-- ==== Sys2Proof/Word.lean ====
section
/-! DEFINITION. The word types and the small plain-data types that a command's operands are made of. -/

namespace Sys2Proof

/-- A register (R5: every register is 32 bits wide). -/
abbrev Word := BitVec 32
/-- One byte of memory. -/
abbrev Byte := BitVec 8
/-- A 64-bit quantity: a DPA carried in a descriptor, a host address, a job seed. -/
abbrev DWord := BitVec 64
/-- A 16-bit status code (R15). -/
abbrev Status := BitVec 16

/-- The header of one command entry as the mailbox service reads it (R397): the ring set and ring index it
was taken from, its tag, its context field, its two flags, and whether any reserved byte, payload gap or
reserved flag bit of the entry is nonzero. -/
structure Hdr where
  set : Nat
  index : Nat
  tag : Word
  ctx : Nat
  idem : Bool
  fence : Bool
  rsvd : Bool
deriving DecidableEq, Repr

/-- Who performs an access to control space or to guarded memory (R11, R44, R219). -/
inductive Writer where
  /-- hub core `core` (0 to 47) of `half` -/
  | hub (half core : Nat)
  /-- core `core` of the active Headframe complex -/
  | headframe (core : Nat)
  /-- the host, through BAR0 or BAR2 -/
  | host
  /-- a mailbox command of the given ring set -/
  | mailbox (set : Nat)
deriving DecidableEq, Repr

/-- The parameters that step.submit carries (R289). -/
structure StepParams where
  graph : Nat
  schedule : Nat
  nanPolicy : Nat
  replayMax : Nat
  mbCount : Nat
  step : Nat
  timeout : Nat
  startBell : Nat
deriving DecidableEq, Repr

/-- The 16-byte header of a Ulusil packet (R310). `rsv` says that a reserved bit or code is set. -/
structure Packet where
  dst : Nat
  dstHalf : Nat
  src : Nat
  srcHalf : Nat
  ldst : Nat
  vc : Nat
  type : Nat
  gen : Nat
  tag : Nat
  len : Nat
  poison : Bool
  express : Bool
  lane : Nat
  ctx : Nat
  rsv : Bool
deriving DecidableEq, Repr

/-- What a collective packet carries besides its header (R319, R326, R329): the sender's rank in the group,
the due bell, the exponent of a SUM, one non-finite bit per block, the elements (mantissas of a SUM, otherwise
bit patterns) and the 61-bit digest. -/
structure Part where
  rank : Nat
  due : Nat
  exp : Int
  nf : List Bool
  elems : List Int
  digest : Nat
deriving DecidableEq, Repr

/-- What a defect of an engine or of its correction lane does to one attempt at a tile (R89 to R101, R120 to R125, R361). Every
field empty: the attempt is sound. Values are FP32 bit patterns; rows and columns are counted within the tile. -/
structure TileFault where
  /-- cells whose accumulators come out wrong: row, column, `acc` and `mag` -/
  cells : List (Nat × Nat × Word × Word)
  /-- columns whose check-row accumulator comes out wrong -/
  chk : List (Nat × Word)
  /-- the lane's stage 1: row, q and the sum t, and the check column of a row -/
  strip : List (Nat × Nat × Word)
  stripChk : List (Nat × Word)
  /-- the lane's stage 2: row, column and the sum corr, and the check column of a row -/
  corr : List (Nat × Nat × Word)
  corrChk : List (Nat × Word)
  /-- cells whose ACC adder errs by n · 2^e: row, column, n and e -/
  sums : List (Nat × Nat × Int × Int)
  /-- the drain converter's two pipelines differ -/
  drain : Bool
  /-- the page walker's or the row-statistics unit's two pipelines differ while the tile is fed or folded (R228) -/
  walk : Bool
deriving DecidableEq, Repr

/-- A sound attempt. -/
abbrev TileFault.none : TileFault := ⟨[], [], [], [], [], [], [], false, false⟩

/-- A crosscut flit as a link carries it (R29): the 64-bit header, the 16 payload words, and the payload-parity field. -/
structure XFlit where
  header : BitVec 64
  words : List Word
  parity : BitVec 16
deriving DecidableEq, Repr

/-- A row of a protected stream as the ring passes it (R342, R343): the half, the stream (0 and 1 the copies, 2 static), the row,
the XOR of units so far, and the digests of the units, with poison where one was poisoned. -/
structure ParityRow where
  half : Nat
  stream : Nat
  row : Nat
  data : List (BitVec 8)
  digests : List Nat
  poison : Bool
deriving DecidableEq, Repr

/-- A data unit of a failed member as the spare receives it at the end of its chain (R347): the DPA it has in the member, its
bytes, the digest that the row's holder kept, and whether a unit of the chain was poisoned (R352). -/
structure RebuiltUnit where
  dpa : Nat
  data : List (BitVec 8)
  digest : Nat
  poison : Bool
deriving DecidableEq, Repr

/-- The end of a ring's upkeep of a commit (R340, R343): whether the members agree, the largest unit count in the ring of each
half's streams, and the rows that reach this device as their holder. -/
structure Upkeep where
  ringOk : Bool
  counts : List Nat
  rows : List ParityRow
deriving DecidableEq, Repr

/-- What a spare holds at the end of a rebuild (R347): the units of the failed member, and the parity rows that it takes over. -/
structure Rebuilt where
  units : List RebuiltUnit
  rows : List ParityRow
deriving DecidableEq, Repr

/-- An access of a hub core: its DPA and its kind, 0 a fetch, 1 a load, 2 a store. -/
structure HubAccess where
  dpa : Nat
  kind : Nat
deriving DecidableEq, Repr

/-- A whole crosscut message as its sender forms it and its receiver puts it together (R23, R29). -/
structure XMsg where
  cls : Nat
  src : Nat
  dst : Nat
  window : Nat
  gen : Nat
  poison : Bool
  words : List Word
deriving DecidableEq, Repr

/-- What the collective exchanges of a step carry from one device (R292, R295, R297): whether it votes
COMMIT, its cause classes as the bits of ONS_CTX_CAUSE, the form of its attempt (plus 4 where a range miss or
a miss of a probe calls for the wide form at once, log entry 12), and the amax maxima of its COLLECTIVE slots
as (slot key, FP32 bits). -/
structure Vote where
  commit : Bool
  classes : Nat
  form : Nat
  maxima : List (Nat × Word)
deriving DecidableEq, Repr

/-- The decision of an exchange (R292, R295, R297): `kind` 0 COMMIT, 1 SKIP, 2 REPLAY (ABANDON in a seal), 3 END; the bell at which it
acts, the union of the cause classes, the form of a replay, whether the replay runs the stash-less recompute
form, and the job-wide maxima. -/
structure Decision where
  kind : Nat
  bell : Nat
  classes : Nat
  form : Nat
  recompute : Bool
  maxima : List (Nat × Word)
deriving DecidableEq, Repr

/-- One error event of a unit, as the health service enters it (R366): `kind` 0 corrected error, 1
uncorrectable error, 2 check failure, 3 lockstep mismatch; `key` is the location key of R365. -/
structure UnitEvent where
  unit : Nat
  key : Nat
  kind : Nat
deriving DecidableEq, Repr

/-- The low 32 bits of a natural number as a word. -/
abbrev word (n : Nat) : Word := BitVec.ofNat 32 n

end Sys2Proof
end

