-- ==== Sys2Proof/Syntax.lean ====
section
/-! DEFINITION. The commands of the block: one constructor per row of spec/opcode_table.json. -/

namespace Sys2Proof

/-- The commands. A mailbox command carries the header `h` of its entry and its payload fields (R397); an
event carries what the outside world supplies with it (a packet, a reading, the verdict of a check).
`since` is the time in ns since the current bell's boundary, where the command's rule needs it. -/
inductive Instr where
  /- session and contexts (R401, R402, R408, R409, R411) -/
  | sessHello (h : Hdr) (verMin verMax graceS : Nat)
  | sessBye (h : Hdr) (mode : Nat)
  | sessAdopt (h : Hdr) (token : Word)
  | sessReset (h : Hdr) (level force : Nat)
  | sessSpdm (h : Hdr) (req reqBytes rsp rspMax : Nat)
  | ctxOpen (h : Hdr)
  | ctxClose (h : Hdr)
  | ctxSnapshot (h : Hdr) (buf max : Nat)
  | ctxRestore (h : Hdr) (buf bytes phase : Nat)
  | ctxQuery (h : Hdr)
  /- memory (R241, R238, R493) -/
  | memAlloc (h : Hdr) (bytes half hint flags : Nat)
  | memFree (h : Hdr) (dpa : Nat)
  | memHint (h : Hdr) (dpa hint : Nat)
  | memQuota (h : Hdr) (ctx half hbm deep : Nat)
  | memQuery (h : Hdr) (ctx : Nat)
  | memAssign (h : Hdr) (kind op half first count : Nat)
  /- graphs and steps (R300) -/
  | graphLoad (h : Hdr) (image : Nat)
  | graphUnload (h : Hdr) (graph : Nat)
  | stepSubmit (h : Hdr) (p : StepParams)
  | stepAbort (h : Hdr) (step : Nat)
  | stepQuery (h : Hdr) (step : Nat)
  /- KV (R229) -/
  | kvCreate (h : Hdr) (seqRec ptPtr statsPtr ptEntries initLen poolId hq flags : Nat)
  | kvSwap (h : Hdr) (seqRec ptPtr ptEntries expGen : Nat)
  | kvSet (h : Hdr) (seqRec index : Nat) (entry : Word) (expGen : Nat)
  | kvRelease (h : Hdr) (seqRec expGen : Nat)
  | kvQuery (h : Hdr) (seqRec : Nat)
  /- fabric and relief (R332, R357) -/
  | fabJoin (h : Hdr) (fabric phys dx dy dz dw period tk1 tk2 : Nat) (fabClass : Nat)
  | fabLeave (h : Hdr)
  | fabBind (h : Hdr) (job logical group0 count : Nat)
  | fabGroup (h : Hdr) (group table : Nat)
  | fabQuery (h : Hdr)
  | reliefArm (h : Hdr) (ring spares snapExtents : Nat)
  | reliefSpare (h : Hdr) (offer : Nat)
  | reliefStart (h : Hdr) (logical : Nat)
  | reliefQuery (h : Hdr)
  /- health and pit log (R382) -/
  | hltRead (h : Hdr) (unit buf : Nat)
  | logRead (h : Hdr) (first count buf : Nat)
  | logClear (h : Hdr) (expEpoch : Nat)
  | hltCanary (h : Hdr) (unit : Nat)
  | hltSticky (h : Hdr) (index : Nat) (clear : Word)
  | hltQuery (h : Hdr)
  /- configuration and power (R403, R469, R487) -/
  | cfgStage (h : Hdr) (list count : Nat)
  | cfgCommitCmd (h : Hdr) (group : Nat)
  | cfgOverlay (h : Hdr) (overlay : Nat)
  | cfgQuery (h : Hdr) (group half : Nat)
  | pwrLimit (h : Hdr) (kind value : Nat)
  | pwrQuery (h : Hdr)
  | pwrTelemetry (h : Hdr) (period buf : Nat)
  /-- R16: an entry whose opcode is reserved or unassigned -/
  | opcodeInvalid (h : Hdr) (opcode : Nat)
  /- host interface (R386 to R410) -/
  | cmdTailDoorbell (set tail : Nat)
  | ringEnableWrite (set : Nat) (value : Word)
  | eventRingEnableWrite (value : Word)
  | loadStart
  | loadGo
  | loadAbort
  /-- what the fuses hold: whether the header's key slot is revoked, the key hash of that slot, and the minimum svn (R393) -/
  | imageVerifyDone (revoked : Bool) (keyHash minSvn : Nat)
  | baseConfigLoad
  | startTimeout
  | hostHeartbeatWrite (value : Word)
  | hostHeartbeatLost
  | orphanGraceExpiry
  | hotReset
  | flr
  | hostLinkDown
  | hostWavelengthLoss (lam : Nat)
  | bar2Read (off bytes : Nat)
  | bar2Write (off : Nat) (data : List Byte)
  | eventDeliver
  /- register reads and writes with a row of their own (R9, R339, R389, R373) -/
  | rcCounterRead (die off : Nat)
  | belNowRead (die since : Nat)
  | hifBellRead
  | stickyClearWrite (w : Writer) (index : Nat) (value : Word)
  | registerWrite (w : Writer) (die off : Nat) (value : Word)
  /- hub cores (R219, R240, R434) -/
  | hubAccessFault (half core dpa : Nat) (kind : Nat)
  | guardedStore (w : Writer) (dpa : Nat) (data : List Byte)
  | hubEvictedAccess (half core : Nat) (access : HubAccess) (deepOk : Bool)
  | cfgCommitWrite (w : Writer) (half : Nat) (value : Word)
  | tlyPortGo (half core : Nat) (value : Word)
  | tallyDrawDone (half core : Nat) (mismatch : Bool)
  | kvPortSwap (half core : Nat)
  | kvPortSet (half core : Nat)
  | kvPortOpDone (half core : Nat)
  | hubDoneWrite (half core : Nat) (value : Word)
  | dbcDoorbell (w : Writer) (half : Nat) (value : Word)
  | dbcMaskSet (w : Writer) (half : Nat) (value : Word)
  | dbcMaskClr (w : Writer) (half : Nat) (value : Word)
  | dbcPendSet (w : Writer) (half : Nat) (value : Word)
  | dbcPendClr (w : Writer) (half : Nat) (value : Word)
  | dbcEoi (half target : Nat) (value : Word)
  | doorbellDispatch (half : Nat)
  /- the Onsetter and the engines (R282 to R297); `newer` names the newer of a context's two steps -/
  | instanceAdmit (ctx : Nat) (newer : Bool) (task mb : Nat)
  | pageExhausted (ctx : Nat) (newer : Bool) (task mb : Nat)
  | hbmAdmitDeadline (ctx : Nat) (newer : Bool) (task mb : Nat)
  | sliceIssue (die cluster core : Nat)
  /-- `f` says what a defect of the engine did to this attempt at the tile; the check row and the check columns find it or
  do not -/
  | fTileDrain (die cluster core tile : Nat) (f : TileFault)
  | bTileDrain (die cluster core eng tile : Nat) (f : TileFault)
  | tileReplay (die cluster core tile : Nat) (f : TileFault)
  | foreignTileRun (die cluster core eng : Nat) (f : TileFault)
  /-- `fail` 0: the group passes; 1: a lane's residue or a compared pipeline differs; 3: the drain converter's pipelines
  differ; 4: the attention engine's pipelines differ -/
  | vuGroupDone (die cluster core group fail : Nat)
  | sliceComplete (die cluster core : Nat)
  | spareHandoff (die cluster slot : Nat)
  | coreMapOut (die cluster core : Nat)
  | ladderConvertDone (ctx : Nat) (newer : Bool) (task mb : Nat)
  | copyDone (ctx : Nat) (newer : Bool) (task mb : Nat)
  | updateTensorStart (ctx : Nat) (newer : Bool) (task : Nat)
  | updateTensorDone (ctx : Nat) (newer : Bool) (task : Nat) (mismatch : Bool)
  | collectiveComplete (ctx : Nat) (newer : Bool) (task mb : Nat)
  | instanceComplete (ctx : Nat) (newer : Bool) (task mb since : Nat)
  | attemptDrained (ctx : Nat) (newer : Bool)
  | stepTimeout (ctx : Nat) (newer : Bool)
  | bellBoundary
  /-- `kind` 0 a stash block, 1 an HBM extent; `key` the DPA of the permanent location -/
  | locationRetire (kind key : Nat)
  /- Ulusil packets and exchanges (R292, R297, R310 to R333, R347) -/
  | ulusilWritePacket (port : Nat) (p : Packet) (data : List Byte)
  | writeAckPacket (port : Nat) (p : Packet)
  | collectiveContribution (port : Nat) (p : Packet) (part : Part)
  | collectiveResult (port : Nat) (p : Packet) (part : Part)
  | abandonNotice (ctx src : Nat)
  | abandonVote (ctx src : Nat) (v : Vote)
  | abandonDecision (ctx : Nat) (dec : Decision)
  | sealVote (ctx src : Nat) (v : Vote) (since : Nat)
  | sealDecision (ctx : Nat) (dec : Decision)
  | reliefNotice (job logical : Nat)
  | leaveNotice (job logical : Nat)
  | digestNotice (src cseq : Nat)
  | spareClaim (lead job logical : Nat)
  | spareClaimTimeout (ctx : Nat)
  | spareClaimAnswer (ctx phys : Nat) (accepted : Bool)
  | reliefRebuildDone (job : Nat) (logical : Nat) (rebuilt : Rebuilt) (snapshots : List Nat)
  | spareReady (ctx : Nat)
  | reliefLeadTimeout (ctx newLead : Nat)
  | parityUpkeepDone (ctx step : Nat) (upkeep : Upkeep)
  | controlPacket (port : Nat) (p : Packet) (data : List Byte)
  | managementPacket (port : Nat) (p : Packet) (data : List Byte)
  | bell (port num hops tk : Nat) (crcOk : Bool)
  | heartbeat (port : Nat) (word : Word) (peerHalf : Nat) (crcOk : Bool)
  | ack (port seq : Nat)
  | nak (port seq : Nat)
  | credit (port : Nat) (counts : List Nat)
  | portRetire (port : Nat)
  | wavelengthFail (port lam : Nat)
  | fabUnresponsive (phys : Nat)
  | trainingComplete
  | trainingTimeout
  | bellLock
  | bellLockTimeout
  | leaveTimeout
  | bellHoldover
  | secondaryTimekeeper
  | bellLost
  /- the crosscut (R23 to R35); `dir` 0 West to East, 1 East to West; a message is one flit or more -/
  | crosscutMessage (dir link : Nat) (first : XFlit) (rest : List XFlit)
  | crosscutReplayRequest (dir link seq : Nat)
  | crosscutLinkRetire (dir link : Nat)
  /- the deep tier, the stash and poison (R244, R248, R255, R257) -/
  | deepResponse (id : Nat) (ok poison : Bool) (data : List Byte)
  | deepTimeout (id : Nat)
  | deepLinkDown (half : Nat)
  | stashMoveDone (half : Nat)
  | parityRepairDone (ctx : Nat) (ok : Bool) (lines : List (Nat × List Byte))
  /-- `err` 0: clean; 1: a correctable error; 2: an uncorrectable error -/
  | scrubLine (half off err : Nat)
  /- health (R365 to R372) -/
  | healthPoll (events : List UnitEvent)
  | suspectRelease (unit : Nat)
  | canaryStart (unit : Nat)
  | canaryResult (unit : Nat) (pass : Bool)
  | canaryHandoffTimeout (unit : Nat)
  | canaryRunTimeout (unit : Nat)
  | canaryDeferred (unit : Nat)
  | suspectCanaryDue (unit : Nat)
  /- Headframe firmware (R414 to R428) -/
  | redfishPush (sub : Nat) (ok : Bool)
  | redfishRetry (sub : Nat) (ok : Bool)
  /-- `op` 0 subscribe by push, 1 subscribe by Server-Sent Events, 2 unsubscribe `arg`, 3 read the pit log at
  `arg`, 4 read the service, chassis or processor resource, 5 read a metric report -/
  | redfishRequest (op arg : Nat)
  | spdmTcpRequest (req : List Byte)
  | kernelTick (half core : Nat) (work : List Nat)
  | shedWindowEnd (half : Nat)
  | serviceException (prio : Nat)
  | watchdogBite (core : Nat)
  | coreRestartTimeout
  | fwRestartDone (imageOk : Bool)
  | fwAbsent
  | fwAbsentFailed
  /-- `why` 0 third restart, 1 image digest mismatch, 2 a PERMANENT unit of the active complex -/
  | handover (why : Nat)
  | handoverDone
  | headframeCoreTest (half core : Nat) (pass : Bool)
  /- power (R476 to R484) -/
  | supplyInRange
  /-- the straps as read, the rise of the coupling test in 1/16 K, and whether the edge electrode senses fluid -/
  | classSelected (coolId rise : Nat) (fluid : Bool)
  | domainInTolerance (domain : Nat)
  | domainToleranceTimeout (domain : Nat)
  | pwrEnRise
  | pwrEnFall
  | powerFault
  | thermTrip
  /-- `cause` 0 thermal, 1 power, 2 domain current, 3 input current; `up` false lowers, true recovers;
  `half` the half of a thermal cause, `domain` the domain of a current cause -/
  | throttleStep (cause half domain : Nat) (up : Bool)
  /-- the readings a telemetry sample takes: input voltage and current word, power in W, hottest word,
  energy in J, and the hottest sensor of each half -/
  | telemetrySample (input power hottest energy hotW hotE : Nat)
  | powerDownComplete
  | sensorsBelow85C
  | hostLinkUp
  /- the remaining link events -/
  | crosscutAck (dir link seq : Nat)
  | crosscutParityFail (dir link : Nat) (flit : XFlit)
  | flitCrcFail (port seq : Nat)
deriving DecidableEq, Repr

end Sys2Proof
end

