-- ==== Sys2Proof/Config.lean ====
section
/-! DEFINITION. What an implementation fixes and the free values: constants with no body, so that nothing can
be proved of the value they take (log entries 1 and 4). -/

namespace Sys2Proof.Config

/-- The n-th choice that the device makes where the spec leaves the choice to it (log entry 4). -/
opaque choice : Nat → Nat
/-- The n-th draw of the package's hardware random source, an adoption token (R402). -/
opaque token : Nat → Word
/-- The n-th reading of a domain's temperature (R374), in 1/16 °C as 16 bits. -/
opaque temp : Nat → Nat
/-- The n-th reading of a domain's voltage (R374), in mV. -/
opaque volts : Nat → Nat
/-- The severity of a record of a type and status, which no rule states (R374); taken modulo 4. -/
opaque severity : Nat → Nat → Nat
/-- The fused stepping (R389). -/
opaque stepping : Nat
/-- The fused serial number (R389). -/
opaque serial : DWord
/-- The version of the firmware in an image of a given svn (R389: running firmware version). -/
opaque fwVersion : Nat → Word
/-- Whether the body of an image of a given svn asks for the fused minimum to be raised (R393). -/
opaque raisesSvn : Nat → Bool
/-- The SPDM responder's answer to the requests of one connection, oldest first (R411). -/
opaque spdmAnswer : List (List Byte) → List Byte
/-- The body of a Redfish answer (R427). -/
opaque redfishAnswer : Nat → Nat → List Nat
/-- The capacity of the attached deep-tier device in extents; at most 8 TiB is used (R234). -/
opaque deepExtents : Nat
/-- The n-th one-way link delay measured at link training (R315, R337). -/
opaque delay : Nat → Nat
/-- The n-th estimate of the offset from the parent's bell boundary (R339). -/
opaque phase : Nat → Nat
/-- The 99th-percentile mailbox latency in the n-th second of operation, in µs (R418). -/
opaque mailboxLatency : Nat → Nat
/-- The exponent that a converter outside the collective engine gives a BFX32 block of these values under a tensor scale, as
the number e + 127 modulo 255 (log entry 7). -/
opaque bfxExponent : List Rat → Rat → Nat
/-- A value the spec leaves undefined at the n-th use, as 32 bits. -/
opaque value : Nat → Word

/-- A value the spec leaves undefined at place k of the n-th use, as 32 bits. -/
opaque valueAt : Nat → Nat → Word

end Sys2Proof.Config
end

