-- ==== Sys2Proof/Machine/State.lean ====
section
/-! DEFINITION. The machine's state: plain data holding every piece of state the spec gives the block, the
queue of waiting commands, the reasons a step can stop, and the state right after reset. -/

namespace Sys2Proof.Machine

/-- A finite map by a natural key, kept sorted with no repeated key; an unlisted key has the map's default. -/
abbrev SMap (α : Type) := List (Nat × α)
/-- Byte-addressed storage: addresses strictly rising, an unlisted address reads as zero (log entry 3). -/
abbrev Memory := List Host.Cell

/-- One record (R374). `slot` is its position k in the pit log, none when it was not written there. -/
structure Record where
  slot : Option Nat := none
  epoch : Nat := 0
  type : Nat
  unit : Nat
  bell : Nat
  opTime : Nat
  cycles : Nat
  temp : Nat
  volts : Nat
  opcode : Word
  addr : DWord
  ctx : Option Nat
  status : Status
  severity : Nat
  permanent : Bool
  suspect : Bool
  snapShed : Bool
  noMirror : Bool
  east : Bool
  snap : List Word
deriving DecidableEq, Repr

/-- What leaves the block: the model's own record of its outputs, newest first in `Dev.out`. -/
inductive Emit where
  /-- an MSI-X vector fires (R400) -/
  | msix (vector : Nat)
  /-- the value a register read returns (R9) -/
  | readValue (v : Word)
  /-- the data of a BAR2 read; none: Completer Abort (R391) -/
  | bar2Data (data : Option (List Byte))
  /-- a Ulusil packet sent on a port (R310, R312) -/
  | packet (port : Nat) (p : Packet) (data : List Byte)
  /-- an ordered set on a port: 0 BELL, 1 HEARTBEAT, 2 ACK, 3 NAK, 4 CREDIT (R307) -/
  | orderedSet (port kind : Nat) (data : List Nat)
  /-- a message between devices of a job: 0 abandon notice, 1 relief notice, 2 leave notice, 3 digest notice,
  4 spare claim, 5 spare answer, 6 switch bell, 7 ready report, 8 resume bell, 9 parity upkeep, 10 relief failed,
  11 rollback. `dst` is a logical id; a physical one for kinds 4, 5 and 7, and where 6 and 8 go to a spare -/
  | notice (kind ctx dst : Nat) (data : List Nat)
  /-- a vote: 0 abandon (R292), 1 seal (R297) -/
  | vote (kind ctx : Nat) (v : Vote)
  /-- a decision broadcast by the root -/
  | decision (kind ctx : Nat) (dec : Decision)
  /-- a crosscut flit sent on a link (R29) -/
  | crosscut (dir link : Nat) (flit : XFlit)
  /-- what this device gives to the chain of a row of a protected stream (R343, R347) -/
  | parityTerm (ctx : Nat) (row : ParityRow)
  /-- a crosscut acknowledgement by SEQ (R30) -/
  | crosscutAck (dir link seq : Nat)
  /-- a crosscut replay request naming a SEQ (R30) -/
  | crosscutNak (dir link seq : Nat)
  /-- a deep-tier request: identifier, half, deep address, whether it writes, its data and the CXL poison bit (R244, R253) -/
  | deepRequest (id half addr : Nat) (write : Bool) (data : List Byte) (poison : Bool)
  /-- a record sent to a Redfish subscription (R427) -/
  | redfish (sub : Nat) (r : Record)
  /-- the answer to a Redfish request (R427) -/
  | redfishAnswer (op : Nat) (data : List Nat)
  /-- an SPDM response on the management port (R411) -/
  | spdm (data : List Byte)
  /-- the host link trains at a width (R387) -/
  | hostLink (width : Nat)
deriving DecidableEq, Repr

/-- The three banks of the RWS registers, keyed by die × 2^32 + offset (R453); an unlisted register holds its
reset value. `armedGroups` lists the groups armed and not yet in effect, in arming order (R466), as
(group id, half, mark), the mark naming the hub core that committed it, or 4096 and 4097 where another record covers the
commit (4097: together with the West instance); `done` holds each group's last status and bell of effect (R469). -/
structure Banks where
  staged : SMap Word := []
  armed : SMap Word := []
  committed : SMap Word := []
  armedGroups : List (Nat × Nat × Option Nat) := []
  done : SMap (Status × Nat) := []
  progs : List Nat := []
deriving DecidableEq, Repr

/-- One completion entry waiting for a slot of its ring (R399). -/
structure Completion where
  tag : Word
  status : Status
  rescanned : Bool
  index : Nat
  words : List Word
deriving DecidableEq, Repr

/-- A ring set (R396). `cplOut` counts completions written and not yet consumed. -/
structure Ring where
  cmdBase : DWord := 0
  cplBase : DWord := 0
  sizeLog : Word := 0
  ctl : Word := 0
  cmdTail : Word := 0
  cmdHead : Nat := 0
  cplHead : Word := 0
  cplTail : Nat := 0
  phase : Bool := true
  cplOut : Nat := 0
  enabled : Bool := false
  configErr : Bool := false
  session : Bool := false
  queue : List Completion := []
deriving DecidableEq, Repr

/-- The event ring and its MRAM queue (R399). -/
structure EvtRing where
  base : DWord := 0
  size : Word := 0
  head : Word := 0
  tail : Nat := 0
  shadow : DWord := 0
  ctl : Word := 0
  enabled : Bool := false
  configErr : Bool := false
  queue : List Record := []
  dropped : Nat := 0
  unreported : Nat := 0
deriving DecidableEq, Repr

/-- A command the mailbox service has taken and not completed: an entry of the in-flight table (R422). `note` is what
its start noted for its completion, `since` its place in the order of arrival of what waits (R208). -/
structure Inflight where
  id : Nat
  h : Hdr
  cmd : Instr
  rescanned : Bool := false
  discard : Bool := false
  note : Nat := 0
  since : Nat := 0
deriving DecidableEq, Repr

/-- The host interface: BAR0, the rings, the in-flight table and the load staging area. `orphanUs` is what is
left of the orphan grace in µs. -/
structure HostIf where
  linkUp : Bool := false
  badLambdas : List Nat := []
  width : Nat := 0
  state : Nat := 0
  bootResult : Nat := 0
  cfgStatus : Status := 0
  fwVersion : Word := 0
  loadCtl : Word := 0
  imgBytes : Word := 0
  cfgBytes : Word := 0
  staging : Memory := []
  heartbeat : Word := 0
  orphanCause : Nat := 0
  orphanUs : Nat := 0
  grace : Nat := 30
  winBaseLo : Word := 0
  winBaseHi : Word := 0
  winCtl : Word := 0
  bellHiLatch : Word := 0
  rings : SMap Ring := []
  evt : EvtRing := {}
  msix : SMap Word := []
  inflight : List Inflight := []
  nextId : Nat := 0
deriving DecidableEq, Repr

/-- A tracker slot (R153). `sq` is the exact square sum in units of 2^-298. -/
structure Slot where
  scale : Word := 0x3F800000
  attemptScale : Word := 0x3F800000
  provAmax : Word := 0
  adoptAmax : Word := 0
  normEma : Word := 0
  seen : Nat := 0
  ovf : Nat := 0
  unf : Nat := 0
  unfBlk : Nat := 0
  sat : Nat := 0
  nfCount : Nat := 0
  sq : Nat := 0
  nfPos : DWord := 0
  nfTask : Word := 0
  missOvf : Bool := false
  missUnf : Bool := false
  missBfx : Bool := false
  nf : Bool := false
  nj : Bool := false
  adopted : Bool := false
  provNorm : Word := 0
  owner : Option Nat := none
  hist : List Word := List.replicate 16 0
deriving DecidableEq, Repr

/-- One step of a context (R289, R290). `state` has the codes of ONS_CTX_STATE. -/
structure StepRun where
  p : StepParams
  state : Nat := 1
  gen : Nat := 0
  form : Nat := 0
  recompute : Bool := false
  replays : Nat := 0
  attempts : Nat := 0
  firstBell : Nat := 0
  startBell : Nat := 0
  seed : DWord := 0
  voted : Bool := false
  draining : Bool := false
  drained : Bool := false
  causes : List (Status × Nat) := []
  peer : Bool := false
  votes : List (Nat × Vote) := []
  decision : Option Decision := none
  done : List (Nat × Nat) := []
  onceDone : List (Nat × Nat) := []
  ready : List (Nat × Nat × Nat) := []
  rungs : List (Nat × Nat × Nat) := []
  rungBufs : List (Nat × Nat × Nat) := []
  pins : List (Nat × Nat) := []
  spill : List Nat := []
  sealLens : List (Nat × Nat) := []
  appended : List Nat := []
  relieving : Bool := false
  updRun : Nat := 0
  events : List (Status × Nat × Word) := []
  probe : Bool := false
  sealTested : Bool := false
deriving DecidableEq, Repr

/-- A context's relief state (R340 to R359); `resume` is the resume bell, 0 while none is named. `others` are further
members relieved in the same relief, `ready` those whose resume bell is named; `prot` says that both copies of the ring have
had an upkeep, and `weak` lists the relieved members of this ring that it has not yet protected again. -/
structure Relief where
  state : Nat := 0
  n : Nat := 0
  position : Nat := 0
  ring : List Nat := []
  spares : List Nat := []
  snap : List Nat := []
  epoch : Nat := 0
  units : List Nat := []
  parity : Memory := []
  digests : List (Nat × List Nat) := []
  waits : Bool := false
  subject : Option Nat := none
  spare : Option Nat := none
  refused : List Nat := []
  count : Nat := 0
  lead : Bool := false
  upkeep : Bool := false
  firstUpkeep : Bool := false
  inRing : Bool := false
  resume : Nat := 0
  others : List Nat := []
  ready : List Nat := []
  prot : Bool := false
  weak : List Nat := []
deriving DecidableEq, Repr

/-- A resident graph: its id and the DPA of its image (R278); the image itself stands, guarded, in memory. -/
structure ResGraph where
  gid : Nat
  image : Nat
deriving DecidableEq, Repr

/-- A context. `clipSum` is the exact square sum of R169, none once a term was not finite; `repairs` lists the
poisoned lines that await repair from parity (R255). -/
structure Ctx where
  isOpen : Bool := false
  owner : Option Nat := none
  orphaned : Bool := false
  token : Word := 0
  closing : Bool := false
  older : Option StepRun := none
  newer : Option StepRun := none
  stepCnt : Nat := 0
  lastStatus : Status := 0
  gen : Nat := 0
  lastEnded : List (Nat × Status) := []
  submits : List StepParams := []
  lastSubmit : Option StepParams := none
  late : Nat := 0
  xcCopyBytes : Nat := 0
  startBell : Nat := 0
  commitBell : Nat := 0
  cause : Nat := 0
  graphs : List ResGraph := []
  /- Screen, per context (R154) -/
  wideCount : Nat := 0
  persist : Bool := false
  sincePersist : Nat := 0
  miss : Bool := false
  fbOver : Bool := false
  nf : Bool := false
  nj : Bool := false
  fbCount : Nat := 0
  ladderTotal : Nat := 0
  nfPos : DWord := 0
  nfTask : Word := 0
  missWord : Word := 0
  /- fabric (R338) -/
  bound : Bool := false
  job : Nat := 0
  logical : Nat := 0
  groups : SMap (List Nat) := []
  collLate : Nat := 0
  lateDev : Nat := 0
  digestFails : Nat := 0
  leaving : Bool := false
  relief : Relief := {}
  /- Update Engine (R173, R181) -/
  curSlot : Nat := 0
  stateSel : Nat := 0
  vernum : List Nat := [0, 0]
  pins : List Nat := [0, 0]
  clipNorm : Word := 0
  clipFactor : Word := 0x3F800000
  clipKnown : Bool := false
  clipOrder : Nat := 0
  clipSum : Option Rat := some 0
  waitPin : Bool := false
  rlo : Bool := false
  rhi : Bool := false
  uovf : Bool := false
  lockstep : Bool := false
  refresh : Bool := false
  /- memory (R238, R259) -/
  hbmQuota : List Nat := [0, 0]
  deepQuota : Nat := 0
  poisonCount : Nat := 0
  repairs : List Nat := []
  scrubbed : List Nat := []
  restored : Bool := false
  /- stash (R260) -/
  spillBytes : List Nat := [0, 0]
  recompute : Bool := false
  exhausted : Bool := false
deriving DecidableEq, Repr

/-- An allocation (R237): `base` its first DPA, `both` one of a pair made with half both. -/
structure Alloc where
  ctx : Nat
  base : Nat
  extents : Nat
  hint : Nat
  parity : Bool
  both : Bool
  freeing : Bool := false
deriving DecidableEq, Repr

/-- The state of one extent (R239), keyed by DPA / 2 MiB. `moving` is 0 where it rests, 1 while a copy to its deep extent is
outstanding, 2 while it is fetched into an HBM extent that is taken already. -/
structure Extent where
  evicted : Bool := false
  moving : Nat := 0
  deepExt : Nat := 0
  last : Nat := 0
deriving DecidableEq, Repr

/-- A retired page table and the admitted instances that hold it (R217, R221); `deep` the deep frames that it gives back when it
is freed. -/
structure RetiredTable where
  half : Nat
  pool : Nat
  table : Nat
  entries : Nat
  holders : List (Nat × Bool × Nat × Nat)
  port : Option Nat
  deep : List Nat := []
deriving DecidableEq, Repr

/-- A KV pool's state beyond its registers (R205, R215). -/
structure Pool where
  owner : Option Nat := none
  deepUsed : List Nat := []
deriving DecidableEq, Repr

/-- A stage reservation of the stash and its items (R246 to R250). -/
structure Resv where
  ctx : Nat
  newer : Bool
  half : Nat
  mb : Nat
  stage : Nat
  blocks : Nat
  excess : Nat := 0
deriving DecidableEq, Repr

/-- A live stash item: where it lies in its logical space, its blocks, due bell and how many of its blocks lie in the stash (R248). -/
structure StashItem where
  ctx : Nat
  newer : Bool
  half : Nat
  mb : Nat
  stage : Nat
  task : Nat
  base : Nat
  bytes : Nat
  blocks : Nat
  due : Nat
  inStash : Nat
deriving DecidableEq, Repr

/-- A sequence snapshot an admitted instance holds (R213): record, table, entries, generation, and the L of
R209 with the rows appended (zero rows for a walk). -/
structure KvSnap where
  seqRec : Nat
  table : Nat
  entries : Nat
  gen : Nat
  l : Nat
  rows : Nat
deriving DecidableEq, Repr

/-- An instance of a task in a step attempt. `state`: 0 waiting at admission step 4, 1 admitted, 2 complete.
`tiles` counts its tiles or element groups, `issued` how many have been cut into slices, `written` how many
have been written; `op` and `src` its operation and, for a HUB task, its doorbell source; `rung` the rung of a LADDER task; `slot` the version slot its micro-batch pinned;
`waitStash`, `waitPool`, `waitLock` (a record) and `fetches` say what it waits for at admission step 4, and `since` when that
wait began, in the order of arrival; `kvFrames` holds the frames it has reserved, as (pool key, frame, record, page), and
`kvLocks` the records whose LOCK it holds (R208, R213, R216). -/
structure Inst where
  ctx : Nat
  newer : Bool
  task : Nat
  mb : Nat
  op : Nat := 0
  src : Nat := 0
  state : Nat := 0
  half : Nat := 0
  due : Nat := 0
  order : Nat := 0
  slot : Nat := 0
  tiles : Nat := 0
  issued : Nat := 0
  written : Nat := 0
  rung : Nat := 0
  kv : List KvSnap := []
  exts : List Nat := []
  windows : List Nat := []
  fetches : List Nat := []
  nfPos : DWord := 0
  nfAt : List (Nat × DWord) := []
  status : Status := 0
  runs : Nat := 0
  started : Bool := false
  token : Nat := 0
  late : Bool := false
  waitStash : Bool := false
  waitPool : Option Nat := none
  waitLock : Option Nat := none
  since : Nat := 0
  kvFrames : List (Nat × Nat × Nat × Nat) := []
  kvLocks : List Nat := []
  atnFails : Nat := 0
deriving DecidableEq, Repr

/-- A slice on a core (R284): tiles or groups `lo` to `hi` − 1 of an instance; `drained` those written,
`failed` those awaiting attempt 2 (with the engine that ran attempt 1); `bound` its task has bindings, `stats` it folds row
statistics, `refold` a walk or fold of it is to be repeated (R228, R231). -/
structure Slice where
  ctx : Nat
  newer : Bool
  task : Nat
  mb : Nat
  op : Nat
  fmt : Nat
  lo : Nat
  hi : Nat
  drained : List Nat := []
  failed : List (Nat × Nat) := []
  foreign : List (Nat × Nat) := []
  retried : Bool := false
  rank : Nat := 0
  rdim : Nat := 0
  acc : Bool := false
  bound : Bool := false
  stats : Bool := false
  refold : Bool := false
deriving DecidableEq, Repr

/-- A tile in a B-engine's foreign queue (R123): the requesting engine's sub-unit code and the tile. -/
structure ForeignTile where
  requester : Nat
  tile : Nat
deriving DecidableEq, Repr

/-- A physical core: the active and next task slots of its four engines (0 F-engine, 1 and 2 the B-engines, 3
VU), its B-engines' foreign queues and the foreign tile in each B-engine's array, and the position words (R105, R107,
R123, R127). -/
structure Core where
  act : List (Option Slice) := [none, none, none, none]
  nxt : List (Option Slice) := [none, none, none, none]
  fq : List (List ForeignTile) := [[], []]
  arr : List (Option ForeignTile) := [none, none]
  nfPos : List DWord := [0, 0, 0, 0]
  canary : Bool := false
deriving DecidableEq, Repr

/-- A cluster: which physical core serves each logical slot (R42); `parked` names a slot parked for a canary. -/
structure Cluster where
  slots : List (Option Nat) := [some 0, some 1, some 2, some 3, some 4, some 5, some 6, some 7]
  parked : Option Nat := none
deriving DecidableEq, Repr

/-- The registers an RV64GCV hart with VLEN 512 holds beside its trap registers (R432, R434): x1 to x31, f0 to f31, v0 to
v31, the floating and vector control registers, satp and sscratch. A register that a list does not reach is 0. No row
executes an instruction of the hart (log entry 68). -/
structure HartRegs where
  x : List DWord := []
  f : List DWord := []
  v : List (BitVec 512) := []
  fcsr : DWord := 0
  vtype : DWord := 0
  vl : DWord := 0
  vstart : DWord := 0
  vcsr : DWord := 0
  satp : DWord := 0
  sscratch : DWord := 0
deriving DecidableEq, Repr

/-- A hub core: the supervisor state R444 names, the level stack, the held HUB token, and its Tally, KV and
task ports (R201, R233, R303). `kvWait` is the KV operation that waits in the attention engine (1 swap, 2 set,
0 none), `kvNext` the status, OLD_FREE and generation of one that has acted and not yet completed. -/
structure HubCore where
  pc : DWord := 0
  mode : Nat := 1
  sepc : DWord := 0
  scause : DWord := 0
  stval : DWord := 0
  stvec : DWord := 0
  sie : Bool := false
  spie : Bool := false
  spp : Nat := 0
  stack : List (Nat × Nat) := []
  holds : Option Nat := none
  tlyValid : Bool := false
  tlyBusy : Bool := false
  tlyBad : Bool := false
  tlyNoCtx : Bool := false
  tlyKey : List Word := []
  tlyOut : List Word := [0, 0, 0, 0]
  kvBusy : Bool := false
  kvDone : Bool := false
  kvOldFree : Bool := false
  kvStatus : Status := 0
  kvResult : Word := 0
  kvWait : Nat := 0
  kvSince : Nat := 0
  kvNext : Option (Status × Bool × Nat) := none
  commitStatus : Nat := 0
  commitCode : Status := 0
  canary : Bool := false
  regs : HartRegs := {}
deriving DecidableEq, Repr

/-- A doorbell source beyond its configuration register (R439, R445). -/
structure Source where
  masked : Bool := false
  pending : Bool := false
  active : List Nat := []
deriving DecidableEq, Repr

/-- A flit in a sender's replay buffer (R306, R30): its sequence number, the message or packet it belongs to, one more than
the sends that failed, and its place in the message. -/
structure Flit where
  seq : Nat
  msg : Nat
  sends : Nat
  ix : Nat := 0
deriving DecidableEq, Repr

/-- A Ulusil port (R305 to R307, R337). -/
structure Port where
  state : Nat := 0
  lambdas : List Nat := [0, 1, 2, 3, 4, 5, 6, 7]
  hbOk : Bool := false
  peer : Nat := 0
  peerHalf : Nat := 0
  delay : Nat := 0
  txSeq : Nat := 0
  replay : List Flit := []
  queued : SMap (Packet × List Byte) := []
  rxSeq : Nat := 0
  discarding : Bool := false
  creditsIn : List Nat := [0, 0, 0, 0, 0, 0, 0, 0]
  creditsOwed : List Nat := [0, 0, 0, 0, 0, 0, 0, 0]
  flitsOut : List Nat := [0, 0, 0, 0, 0, 0, 0, 0]
deriving DecidableEq, Repr

/-- A collective instance in progress on this device (R319 to R330). -/
structure Coll where
  ctx : Nat
  newer : Bool
  task : Nat
  mb : Nat
  cseq : Nat
  gen : Nat
  due : Nat
  posted : Bool := false
  parts : List Part := []
  lateRanks : List Nat := []
  result : Option Part := none
  failed : Option Status := none
  named : List Nat := []
deriving DecidableEq, Repr

/-- The fabric side of the device (R308 to R339). `rx` holds the data of the write packets received, keyed by context,
half and transfer tag, `rxPoison` the keys of the poisoned ones. `claim` is the claim a spare has accepted: its lead's physical id, and the
job with the logical id below it. -/
structure Fabric where
  state : Nat := 0
  fabric : Nat := 0
  phys : Nat := 0
  dims : List Nat := [1, 1, 1, 1]
  period : Nat := 10
  tk1 : Nat := 0
  tk2 : Nat := 0
  remap : SMap Nat := []
  remapStaged : SMap Nat := []
  switchBell : Nat := 0
  switchPending : Bool := false
  ports : SMap Port := []
  alternate : SMap Nat := []
  colls : List Coll := []
  rx : SMap (List Byte) := []
  rxPoison : List Nat := []
  locked : Bool := false
  holdover : Bool := false
  timekeeper : Bool := false
  secondary : Bool := false
  hops : Nat := 0
  phase : Nat := 0
  beat : Bool := false
  missing : Nat := 0
  digestTimes : List Nat := []
  silent : List Nat := []
  claim : Option (Nat × Nat) := none
  leaveJobs : Nat := 0
  nextMsg : Nat := 0
  heartbeats : Nat := 0
  hbState : Nat := 0
deriving DecidableEq, Repr

/-- A crosscut link in one direction (R27 to R31), both its ends: the messages that the sender has not had acknowledged by
their age, how many flits of each it has sent, the flits it holds for replay and the credits it has in each class; the
receiver's place in the sequence and what it holds of a message of each class. No rule gives the number of credits (log
entry 63). -/
structure XLink where
  up : Bool := true
  txSeq : Nat := 0
  replay : List Flit := []
  msgs : SMap XMsg := []
  sent : SMap Nat := []
  credits : List Nat := [341, 341, 341]
  rxSeq : Nat := 0
  discarding : Bool := false
  rx : SMap XMsg := []
deriving DecidableEq, Repr

/-- What a receive window is for: a copy of what the other half holds from `addr` on (R24); the writes of an instance of the
other half to `addr` and on (R22, R25); a fabric packet that arrived in the other half (R313). -/
inductive WinUse where
  | read
  | out
  | packet (k : Packet)
deriving DecidableEq, Repr

/-- A receive window (R23); `due` counts the messages on their way to an output window. -/
structure Window where
  half : Nat
  num : Nat
  gen : Nat
  ctx : Nat
  newer : Bool
  task : Nat
  mb : Nat
  addr : Nat := 0
  bytes : Nat := 0
  use : WinUse := .read
  words : List Word := []
  poison : Bool := false
  got : Bool := false
  due : Nat := 0
deriving DecidableEq, Repr

/-- The trap state of a Headframe core (R43): its pc and the machine-mode registers that an access fault writes, with
x1 to x31 of RV32IMAC (R17, log entry 68). -/
structure HfCore where
  pc : Word := 0
  mepc : Word := 0
  mcause : Word := 0
  mtval : Word := 0
  mtvec : Word := 0
  mie : Bool := false
  mpie : Bool := false
  x : List Word := []
deriving DecidableEq, Repr

/-- The crosscut (R27 to R35). -/
structure Crosscut where
  fenced : Bool := false
  links : SMap XLink := []
  windows : List Window := []
  nextWindow : Nat := 1
  nextMsg : Nat := 0
deriving DecidableEq, Repr

/-- Who made a deep-tier request (R244): 0 a running task, 1 an admission's extent fetch, 2 a KV fetch at
admission, 3 an eviction of an extent, 4 a KV eviction, 5 a store of a hub core, 6 a mem.hint. What writes holds its bytes,
with their poison, until the request ends; `cmd` is the mailbox command that an eviction serves (R239, R241). -/
structure DeepReq where
  id : Nat
  half : Nat
  kind : Nat
  ctx : Nat
  newer : Bool
  task : Nat
  mb : Nat
  target : Nat
  data : List Byte := []
  poison : Bool := false
  cmd : Option Nat := none
deriving DecidableEq, Repr

/-- A location entry of a unit's history (R365). -/
structure Loc where
  key : Nat
  tA : Option Nat := none
  tB : Option Nat := none
deriving DecidableEq, Repr

/-- A unit's history entry (R365). `state`: 0 OK, 1 SUSPECT, 2 PERMANENT, 3 MAPPED_OUT; `watchOp` is the
moment from which the observation of R367 counts. -/
structure Hist where
  state : Nat := 0
  held : Bool := false
  corrected : Nat := 0
  uncorrected : Nat := 0
  checks : Nat := 0
  firstOp : Option Nat := none
  lastOp : Nat := 0
  canaryPass : Nat := 0
  canaryFail : Nat := 0
  suspectOp : Nat := 0
  watchOp : Nat := 0
  goodBell : Nat := 0
  canaryBell : Nat := 0
  goodOp : Nat := 0
  locs : List Loc := []
deriving DecidableEq, Repr

/-- A canary under way (R372): `state` has the codes of HLT_CANARY_STATUS; `slot` a slot canary; `bell` the
bell at which it entered RUNNING. -/
structure Canary where
  unit : Nat
  state : Nat
  slot : Bool
  deferred : Bool := false
  bell : Nat := 0
deriving DecidableEq, Repr

/-- Health (R365 to R373). -/
structure Health where
  hist : SMap Hist := []
  sticky : List Word := [0, 0, 0, 0]
  canaries : List Canary := []
  lastCanary : Nat := 0xFFFF
  lastState : Nat := 0
  nextSlot : Nat := 0
  failed : Bool := false
  cause : Nat := 0
  isolated : List Nat := []
  mapped : List Nat := []
  withdrawn : List Nat := []
  stashSpare : List Nat := [64, 64]
  stashRetired : List Nat := []
  hbmRetired : List Nat := []
  pendRetire : List (Nat × Nat) := []
  parked : List (Option (Nat × Nat)) := [none, none]
deriving DecidableEq, Repr

/-- The pit log (R377 to R379): complete records, newest first. -/
structure PitLog where
  records : List Record := []
  epoch : Nat := 0
  dropped : Nat := 0
deriving DecidableEq, Repr

/-- A Redfish subscription (R427, R428): `stage` counts the failed sends of the event at the head, up to
14: the first retry comes after 1 s, the next twelve after 5 s each, every later one after 60 s. -/
structure Subscription where
  id : Nat
  sse : Bool
  queue : List Record := []
  dropped : Nat := 0
  stage : Nat := 0
deriving DecidableEq, Repr

/-- One Headframe complex (R414 to R431). `restarting`: 0 none, 1 a service, 2 a core, 3 the complex; `cores` run their
services; `busy` is each core's time in the 10 ms window under way, `granted` what each service got in its last tick, in µs. -/
structure Complex where
  active : Bool := false
  standby : Bool := false
  restarting : Nat := 0
  tookOver : Bool := false
  out : Bool := false
  cores : List Nat := []
  restartingCores : List Nat := []
  busy : List Nat := [0, 0, 0, 0]
  granted : List Nat := [0, 0, 0, 0, 0, 0, 0, 0, 0]
deriving DecidableEq, Repr

/-- Headframe firmware (R414 to R431). -/
structure Firmware where
  complexes : List Complex := [{}, {}]
  hf : SMap HfCore := []
  shed : Nat := 0
  quiet : Nat := 0
  svc : List Nat := [0, 0, 0, 0, 0, 0, 0, 0, 0]
  restarts : List Nat := [0, 0, 0]
  restartTimes : List Nat := []
  lastRestart : Nat := 0
  mbxLat : Nat := 0
  absentSince : Option Nat := none
  absentMax : Nat := 0
  paused : Bool := false
  handing : Bool := false
  subs : List Subscription := []
  spdmMbx : List (List Byte) := []
  spdmTcp : List (List Byte) := []
  cfgImage : Memory := []
  cfgLen : Nat := 0
  mode : Nat := 0
  classOverlay : Nat := 0
  switchTo : Option (Nat × Option Nat) := none
  skipped : Nat := 0
  measured : List Nat := []
  minSvn : Nat := 0
deriving DecidableEq, Repr

/-- The power controller (R474 to R490). `phase`: 0 supply out of range, 1 always-on domains coming up or up and the class not
fixed, 2 class fixed and waiting for PWR_EN, 3 domains being switched on, 4 powered up, 5 power-down, 6 a domain missed
tolerance, 7 powered down with the supply in range, waiting for a rise of PWR_EN; `held` says that it has come and waits for
the sensors, or that the supply has come back during power-down and power-up waits for its end. `todo` lists the domains not yet in tolerance, the one switched on last at its head. `throttling` lists the limits
that act: the cause, the half (cause 0) or domain (cause 2), and the clock that it requires in MHz. `lastRecord` holds the
moment of the last THROTTLE record of a cause. -/
structure Power where
  phase : Nat := 0
  supply : Bool := false
  pwrEn : Bool := false
  held : Bool := false
  coolId : Nat := 0
  cls : Option Nat := none
  sensed : Nat := 0
  disagree : Bool := false
  fluid : Bool := false
  rise : Nat := 0
  domains : List Nat := [26, 27, 28]
  todo : List Nat := []
  isolatedAny : Bool := false
  good : Bool := false
  tripPin : Bool := false
  thermHold : Bool := false
  input : Word := 0
  power : Word := 0
  hottest : Word := 0
  throttling : List (Nat × Nat × Nat) := []
  lastRecord : SMap Nat := []
  telPeriod : Nat := 0
  telBuf : Nat := 0
  telIndex : Nat := 0
  telDue : Bool := false
  telCount : Nat := 0
deriving DecidableEq, Repr

/-- The device: everything but the command queue. -/
structure Dev where
  bell : Nat := 0
  opUs : Nat := 0
  cycles : Nat := 0
  free : Nat := 0
  out : List Emit := []
  mem : Memory := []
  hostMem : Memory := []
  poison : List Nat := []
  bank : Banks := {}
  rw : SMap Word := []
  rc : SMap Word := []
  host : HostIf := {}
  ctxs : SMap Ctx := []
  slots : SMap Slot := []
  pools : SMap Pool := []
  seqs : List Nat := []
  retired : List RetiredTable := []
  allocs : List Alloc := []
  extents : SMap Extent := []
  resvs : List Resv := []
  items : List StashItem := []
  insts : List Inst := []
  nextOrder : Nat := 0
  chan : SMap Byte := []
  cores : SMap Core := []
  clusters : SMap Cluster := []
  hubs : SMap HubCore := []
  sources : SMap Source := []
  deep : List DeepReq := []
  nextDeep : Nat := 0
  fab : Fabric := {}
  xc : Crosscut := {}
  health : Health := {}
  log : PitLog := {}
  fw : Firmware := {}
  pwr : Power := {}
deriving DecidableEq, Repr

/-- The whole state: the commands that wait, first in first out, and the device. -/
structure State where
  pending : List Instr
  dev : Dev
deriving DecidableEq, Repr

/-- Why a step stops with a fault. No command of this block does: everything the spec calls an error is an
effect on the state. The one constructor stands for a corrupted queue and is raised by nobody (safe). -/
inductive Fault where
  | stuck
deriving DecidableEq, Repr

/-- Why a step is refused. `notModelled` is raised by an arm of exec whose command has no meaning yet (safe:
nothing can be proved of it). -/
inductive Refusal where
  | notModelled (mnemonic : String)
deriving DecidableEq, Repr

/-- The machine right after reset: power just applied, nothing loaded, an empty queue. Every register holds
the reset value its table gives; what the tables leave open is named in log entry 2. -/
def State.reset : State := { pending := [], dev := {} }

end Sys2Proof.Machine
end

