-- ==== Sys2Proof/Machine/Ops.lean ====
section
/-! DEFINITION. The named operations the meanings share: finite maps, bytes of memory, addresses, register
banks and counters, accessors of the device's parts, and how a meaning becomes an outcome. -/

namespace Sys2Proof.Machine

/-! ## Finite maps -/

/-- The entry a map lists for a key. -/
def SMap.find? {α : Type} : SMap α → Nat → Option α
  | [], _ => none
  | (k, v) :: r, i => if k = i then some v else SMap.find? r i

/-- A map with one entry written, in key order. -/
def SMap.insert {α : Type} : SMap α → Nat → α → SMap α
  | [], i, x => [(i, x)]
  | (k, v) :: r, i, x =>
    if i < k then (i, x) :: (k, v) :: r
    else if i = k then (i, x) :: r
    else (k, v) :: SMap.insert r i x

/-- A map with one key unlisted. -/
def SMap.erase {α : Type} : SMap α → Nat → SMap α
  | [], _ => []
  | (k, v) :: r, i => if i = k then SMap.erase r i else (k, v) :: SMap.erase r i

/-- The value of a key, with the map's default. -/
def SMap.get {α : Type} (m : SMap α) (dflt : α) (i : Nat) : α := (m.find? i).getD dflt

/-- A map with one key set; a value equal to the default unlists the key, so that equal maps are equal data. -/
def SMap.put {α : Type} [DecidableEq α] (m : SMap α) (dflt : α) (i : Nat) (x : α) : SMap α :=
  if x = dflt then m.erase i else m.insert i x

/-- Keys strictly rising from above `lo`. -/
def SMap.sortedFrom {α : Type} : Option Nat → SMap α → Bool
  | _, [] => true
  | none, (k, _) :: r => SMap.sortedFrom (some k) r
  | some lo, (k, _) :: r => decide (lo < k) && SMap.sortedFrom (some k) r

/-- The canonical form: keys strictly rising and no value equal to the default. -/
def SMap.wf {α : Type} [DecidableEq α] (dflt : α) (m : SMap α) : Bool :=
  SMap.sortedFrom none m && m.all (fun p => decide (p.2 ≠ dflt))

/-! ## Bytes -/

/-- The canonical form of a byte memory. -/
def Memory.wf (m : Memory) : Bool := SMap.wf (0 : Byte) m

/-- One byte; an address that nothing has written reads as zero (log entry 3). -/
def Memory.read (m : Memory) (a : Nat) : Byte := SMap.get m 0 a

/-- Write one byte. -/
def Memory.write (m : Memory) (a : Nat) (b : Byte) : Memory := SMap.put m 0 a b

/-- `n` bytes from an address on. -/
def Memory.readBytes (m : Memory) (a : Nat) : Nat → List Byte
  | 0 => []
  | n + 1 => m.read a :: Memory.readBytes m (a + 1) n

/-- Write bytes from an address on. -/
def Memory.writeBytes (m : Memory) (a : Nat) : List Byte → Memory
  | [] => m
  | b :: r => Memory.writeBytes (m.write a b) (a + 1) r

/-- The little-endian value of bytes (R5). -/
def leValue : List Byte → Nat
  | [] => 0
  | b :: r => b.toNat + 256 * leValue r

/-- The `n` little-endian bytes of a value (R5). -/
def leBytes : Nat → Nat → List Byte
  | 0, _ => []
  | n + 1, v => BitVec.ofNat 8 v :: leBytes n (v / 256)

/-- The little-endian value of `n` bytes of memory. -/
def Memory.readLE (m : Memory) (a n : Nat) : Nat := leValue (m.readBytes a n)

/-- Bits [hi:lo] of a number. -/
def bits (v hi lo : Nat) : Nat := (v / 2 ^ lo) % 2 ^ (hi + 1 - lo)

/-- Bit i of a number. -/
def bit (v i : Nat) : Bool := (v / 2 ^ i) % 2 = 1

/-- A Bool as the bit at a position. -/
def flag (b : Bool) (i : Nat) : Nat := if b then 2 ^ i else 0

/-- A field value placed at a position. -/
def field (v width lo : Nat) : Nat := (v % 2 ^ width) * 2 ^ lo

/-- Saturate to 32 bits. -/
def sat32 (n : Nat) : Nat := min n 0xFFFFFFFF

/-- Replace element i of a list. -/
def setAt {α : Type} : List α → Nat → α → List α
  | [], _, _ => []
  | _ :: r, 0, x => x :: r
  | y :: r, n + 1, x => y :: setAt r n x

/-- Element i of a list with a default. -/
def at' {α : Type} (l : List α) (i : Nat) (d : α) : α := (l[i]?).getD d

/-- Ceiling division. -/
def ceilDiv (a b : Nat) : Nat := (a + b - 1) / b

/-- The pieces of a list, n elements each. -/
def chunksOf {α : Type} (n : Nat) (l : List α) : List (List α) :=
  (List.range (ceilDiv l.length n)).map (fun i => (l.drop (i * n)).take n)

/-! ## From an effect to an outcome -/

/-- The outcome of a command whose effect on the device is `f`: the queue stays as it is. -/
def onDev (f : Dev → Dev) (s : State) : Host.Outcome State Fault Refusal :=
  .next { s with dev := f s.dev }

/-! ## Accessors -/

/-- Context c. -/
def Dev.ctx (d : Dev) (c : Nat) : Ctx := d.ctxs.get {} c
/-- Set context c. -/
def Dev.setCtx (d : Dev) (c : Nat) (x : Ctx) : Dev := { d with ctxs := d.ctxs.put {} c x }
/-- Change context c. -/
def Dev.updCtx (d : Dev) (c : Nat) (f : Ctx → Ctx) : Dev := d.setCtx c (f (d.ctx c))

/-- Ring set s. -/
def Dev.ring (d : Dev) (s : Nat) : Ring := d.host.rings.get {} s
/-- Set ring set s. -/
def Dev.setRing (d : Dev) (s : Nat) (r : Ring) : Dev :=
  { d with host := { d.host with rings := d.host.rings.put {} s r } }

/-- The key of tracker slot n of a half. -/
def slotKey (half n : Nat) : Nat := half * 4096 + n
/-- A tracker slot by key. -/
def Dev.slot (d : Dev) (k : Nat) : Slot := d.slots.get {} k
/-- Set a tracker slot. -/
def Dev.setSlot (d : Dev) (k : Nat) (x : Slot) : Dev := { d with slots := d.slots.put {} k x }

/-- The key of KV pool p of a half. -/
def poolKey (half p : Nat) : Nat := half * 256 + p
/-- A pool by key. -/
def Dev.pool (d : Dev) (k : Nat) : Pool := d.pools.get {} k
/-- Set a pool. -/
def Dev.setPool (d : Dev) (k : Nat) (x : Pool) : Dev := { d with pools := d.pools.put {} k x }

/-- The key of a physical core. -/
def coreKey (die cluster core : Nat) : Nat := (die * 4 + cluster) * 9 + core
/-- A physical core by key. -/
def Dev.core (d : Dev) (k : Nat) : Core := d.cores.get {} k
/-- Set a core. -/
def Dev.setCore (d : Dev) (k : Nat) (x : Core) : Dev := { d with cores := d.cores.put {} k x }

/-- A cluster by key die × 4 + cluster. -/
def Dev.cluster (d : Dev) (k : Nat) : Cluster := d.clusters.get {} k
/-- Set a cluster. -/
def Dev.setCluster (d : Dev) (k : Nat) (x : Cluster) : Dev := { d with clusters := d.clusters.put {} k x }

/-- The key of hub core n (48 to 51 the Headframe's doorbell targets) of a half. -/
def hubKey (half n : Nat) : Nat := half * 64 + n
/-- A hub core by key. -/
def Dev.hub (d : Dev) (k : Nat) : HubCore := d.hubs.get {} k
/-- Set a hub core. -/
def Dev.setHub (d : Dev) (k : Nat) (x : HubCore) : Dev := { d with hubs := d.hubs.put {} k x }

/-- The key of doorbell source n of a half. -/
def srcKey (half n : Nat) : Nat := half * 4096 + n
/-- A doorbell source by key. -/
def Dev.source (d : Dev) (k : Nat) : Source := d.sources.get {} k
/-- Set a doorbell source. -/
def Dev.setSource (d : Dev) (k : Nat) (x : Source) : Dev := { d with sources := d.sources.put {} k x }

/-- Ulusil port p. -/
def Dev.port (d : Dev) (p : Nat) : Port := d.fab.ports.get {} p
/-- Set a port. -/
def Dev.setPort (d : Dev) (p : Nat) (x : Port) : Dev := { d with fab := { d.fab with ports := d.fab.ports.put {} p x } }

/-- Crosscut link `link` of direction `dir`. -/
def Dev.xlink (d : Dev) (dir link : Nat) : XLink := d.xc.links.get {} (dir * 32 + link)
/-- Set a crosscut link. -/
def Dev.setXlink (d : Dev) (dir link : Nat) (x : XLink) : Dev :=
  { d with xc := { d.xc with links := d.xc.links.put {} (dir * 32 + link) x } }

/-- A unit's history entry. -/
def Dev.hist (d : Dev) (u : Nat) : Hist := d.health.hist.get {} u
/-- Set a unit's history entry. -/
def Dev.setHist (d : Dev) (u : Nat) (x : Hist) : Dev :=
  { d with health := { d.health with hist := d.health.hist.put {} u x } }

/-- The state of an extent, keyed by DPA / 2 MiB. -/
def Dev.extent (d : Dev) (k : Nat) : Extent := d.extents.get {} k
/-- Set an extent's state. -/
def Dev.setExtent (d : Dev) (k : Nat) (x : Extent) : Dev := { d with extents := d.extents.put {} k x }

/-- Send something out of the block. -/
def Dev.emit (d : Dev) (e : Emit) : Dev := { d with out := e :: d.out }

/-- One device choice among the numbers below n (log entry 4); zero where there is nothing to choose. -/
def Dev.pick (d : Dev) (n : Nat) : Nat := Config.choice d.free % n
/-- Advance the free-value counter. -/
def Dev.drawn (d : Dev) : Dev := { d with free := d.free + 1 }

/-- Operating time in s (R366). -/
def Dev.opTime (d : Dev) : Nat := d.opUs / 1000000

/-- Write bytes of device memory. -/
def Dev.store (d : Dev) (a : Nat) (b : List Byte) : Dev := { d with mem := d.mem.writeBytes a b }
/-- Write bytes of host memory. -/
def Dev.storeHost (d : Dev) (a : Nat) (b : List Byte) : Dev := { d with hostMem := d.hostMem.writeBytes a b }
/-- A little-endian field of device memory. -/
def Dev.ld (d : Dev) (a n : Nat) : Nat := d.mem.readLE a n

/-- Change the instances that satisfy a condition. -/
def Dev.updInsts (d : Dev) (p : Inst → Bool) (f : Inst → Inst) : Dev :=
  { d with insts := d.insts.map (fun i => if p i then f i else i) }

/-- An instance is the one of a step, task and micro-batch. -/
def Inst.is (i : Inst) (ctx : Nat) (newer : Bool) (task mb : Nat) : Bool :=
  i.ctx = ctx && i.newer = newer && i.task = task && i.mb = mb

/-- The instance of a step, task and micro-batch. -/
def Dev.inst? (d : Dev) (ctx : Nat) (newer : Bool) (task mb : Nat) : Option Inst :=
  d.insts.find? (fun i => i.is ctx newer task mb)

/-- Change one instance. -/
def Dev.updInst (d : Dev) (x : Inst) (f : Inst → Inst) : Dev :=
  d.updInsts (fun i => i.is x.ctx x.newer x.task x.mb) f

/-- One of a context's two steps. -/
def Ctx.step? (x : Ctx) (newer : Bool) : Option StepRun := if newer then x.newer else x.older
/-- Set one of a context's two steps. -/
def Ctx.setStep (x : Ctx) (newer : Bool) (r : Option StepRun) : Ctx :=
  if newer then { x with newer := r } else { x with older := r }
/-- Change one of a context's two steps, where it exists. -/
def Dev.updStep (d : Dev) (c : Nat) (newer : Bool) (f : StepRun → StepRun) : Dev :=
  d.updCtx c (fun x => match x.step? newer with | some r => x.setStep newer (some (f r)) | none => x)

/-! ## Sorted lists of numbers, used as sets -/

/-- Insert into a rising list without repeats. -/
def insertNat : List Nat → Nat → List Nat
  | [], x => [x]
  | y :: r, x => if x < y then x :: y :: r else if x = y then y :: r else y :: insertNat r x

/-! ## Poison (R253) -/

/-- The key of the 64-byte line that holds an address. -/
def lineOf (a : Nat) : Nat := a / 64
/-- Poison one line. -/
def Dev.poisonLine (d : Dev) (l : Nat) : Dev := { d with poison := insertNat d.poison l }
/-- Clear the poison of one line. -/
def Dev.cureLine (d : Dev) (l : Nat) : Dev := { d with poison := d.poison.filter (· ≠ l) }
/-- The first poisoned line that an access of n bytes meets. -/
def Dev.poisoned? (d : Dev) (a n : Nat) : Option Nat :=
  d.poison.find? (fun l => decide (lineOf a ≤ l ∧ l ≤ lineOf (a + n - 1) ∧ 0 < n))

/-- A device write: bytes are stored, and every line it covers whole loses its poison; a partial write leaves
a line poisoned (R253). -/
def Dev.writeMem (d : Dev) (a : Nat) (b : List Byte) : Dev :=
  let d := d.store a b
  { d with poison := d.poison.filter (fun l => !(decide (a ≤ 64 * l ∧ 64 * l + 64 ≤ a + b.length))) }

/-- A deep-tier request goes out under a new identifier (R244). -/
def Dev.deepAsk (d : Dev) (q : DeepReq) (addr : Nat) (write : Bool) (data : List Byte) : Dev :=
  let id := d.nextDeep
  { d.emit (.deepRequest id q.half addr write data q.poison) with nextDeep := id + 1, deep := d.deep ++ [{ q with id := id }] }

/-! ## Dies, domains and addresses -/

/-- The half of a die (R20). -/
def dieHalf (die : Nat) : Nat :=
  if die < 8 then 0 else if die < 16 then 1 else if die = 16 then 0 else if die = 17 then 1
  else if die = 18 then 0 else if die = 19 then 1 else if die < 26 then 0 else if die < 32 then 1
  else if die < 36 then 0 else 1

/-- The power domain that powers a die (R45); a hub die's control space is in its uncore. -/
def dieDomain (die : Nat) : Nat :=
  if die < 16 then die else if die = 16 then 18 else if die = 17 then 19 else if die = 18 then 20
  else if die = 19 then 21 else if die < 26 then 24 else if die < 32 then 25 else if die < 36 then 22 else 23

/-- A die is powered and not isolated (R43, R47). -/
def Dev.dieOn (d : Dev) (die : Nat) : Bool :=
  decide (die < 40) && d.pwr.domains.contains (dieDomain die) && !d.health.isolated.contains die

/-- The hub die of a half. -/
def hubDie (half : Nat) : Nat := 16 + half

/-- A half is powered: its hub uncore is on. -/
def Dev.halfOn (d : Dev) (half : Nat) : Bool := decide (half < 2) && d.dieOn (hubDie half)

/-- The tier code of a DPA (R41). -/
def tierOf (a : Nat) : Nat := bits a 51 48
/-- The half bit of a DPA (R41). -/
def halfOf (a : Nat) : Nat := bits a 47 47

/-- The HBM die that holds an HBM address (R235). -/
def hbmDie (a : Nat) : Nat :=
  32 + 4 * halfOf a + ((bits a 9 8).xor ((bits a 19 18).xor (bits a 29 28)))

/-- The pseudo-channel of an HBM address: stack-local address bits [13:8], which are o[15:10] (R235, R364). -/
def hbmChannel (a : Nat) : Nat := bits a 15 10

/-- The number of a cluster's physical cores that serve slots. -/
def Dev.activeSlots (d : Dev) (die cluster : Nat) : Nat :=
  ((d.cluster (die * 4 + cluster)).slots.filter (fun o => o.isSome)).length

/-- A DPA is valid (R41, R43). -/
def Dev.dpaValid (d : Dev) (a : Nat) : Bool :=
  decide (a < 2 ^ 52) &&
  match tierOf a with
  | 0x0 => bits a 46 38 = 0 && d.dieOn (hbmDie a)
  | 0x1 => bits a 46 30 = 0 && d.dieOn (18 + halfOf a)
  | 0x2 => bits a 46 30 = 0 && d.dieOn (8 * halfOf a + bits a 29 27)
  | 0x3 => bits a 46 31 = 0 && d.dieOn (8 * halfOf a + bits a 30 28) && decide (bits a 25 22 < 8)
  | 0x8 => bits a 47 43 = 0
  | 0xF => bits a 46 38 = 0 && decide (bits a 37 32 < 40) && decide (dieHalf (bits a 37 32) = halfOf a)
      && d.dieOn (bits a 37 32)
  | _ => false

/-- The control-space DPA of a register (R41). -/
def ctlDpa (die off : Nat) : Nat := 0xF * 2 ^ 48 + dieHalf die * 2 ^ 47 + die * 2 ^ 32 + off

/-- The key under which a logical stash address of a micro-batch is held: bits [29:0] within its half, and, above a DPA's bits,
the space of the step (R245). -/
def stashKey (ctx mb a : Nat) : Nat :=
  2 ^ 60 * (1 + ctx * 256 + mb) + a / 2 ^ 52 * 2 ^ 52 + 2 ^ 48 + halfOf a * 2 ^ 47 + a % 2 ^ 30

/-! ## Registers -/

/-- The key of a control-space register; BAR0 counts as die 64. -/
def regKey (die off : Nat) : Nat := die * 2 ^ 32 + off

/-- A plain RW register's stored value, with its reset value. -/
def Dev.rwGet (d : Dev) (die off : Nat) (reset : Nat) : Nat :=
  (d.rw.get (word reset) (regKey die off)).toNat
/-- Store a plain RW register. -/
def Dev.rwPut (d : Dev) (die off : Nat) (reset v : Nat) : Dev :=
  { d with rw := d.rw.put (word reset) (regKey die off) (word v) }

/-- The committed value of an RWS register, with its reset value (R453). -/
def Dev.com (d : Dev) (die off reset : Nat) : Nat :=
  (d.bank.committed.get (word reset) (regKey die off)).toNat
/-- The staged value of an RWS register, with its reset value (R453). -/
def Dev.stg (d : Dev) (die off reset : Nat) : Nat :=
  (d.bank.staged.get (word reset) (regKey die off)).toNat
/-- Write the staged bank. -/
def Dev.stagePut (d : Dev) (die off reset v : Nat) : Dev :=
  { d with bank := { d.bank with staged := d.bank.staged.put (word reset) (regKey die off) (word v) } }

/-- The value of an RC counter. -/
def Dev.rcGet (d : Dev) (die off : Nat) : Nat := (d.rc.get 0 (regKey die off)).toNat
/-- Set an RC counter. -/
def Dev.rcPut (d : Dev) (die off v : Nat) : Dev :=
  { d with rc := d.rc.put 0 (regKey die off) (word v) }
/-- Count on a 32-bit RC counter, saturating. -/
def Dev.rcAdd (d : Dev) (die off n : Nat) : Dev := d.rcPut die off (sat32 (d.rcGet die off + n))
/-- Count on the low 16-bit field of an RC counter, saturating at 0xFFFF. -/
def Dev.rcAddLo (d : Dev) (die off n : Nat) : Dev :=
  let v := d.rcGet die off
  d.rcPut die off (v / 65536 * 65536 + min (v % 65536 + n) 0xFFFF)
/-- Count on the high 16-bit field of an RC counter, saturating at 0xFFFF. -/
def Dev.rcAddHi (d : Dev) (die off n : Nat) : Dev :=
  let v := d.rcGet die off
  d.rcPut die off (v % 65536 + min (v / 65536 + n) 0xFFFF * 65536)

/-- The register block of a core's sub-unit (R107). -/
def coreBlock (cluster core sub : Nat) : Nat :=
  0x01000000 + cluster * 0x00100000 + core * 0x00010000 + sub * 0x1000

/-- The unit id of a core's sub-unit (R39). -/
def coreUnit (die cluster core sub : Nat) : Nat := die * 1024 + cluster * 256 + core * 16 + sub
/-- The unit id of a hub die's sub-unit without an index (R364). -/
def hubUnit (half sub : Nat) : Nat := hubDie half * 1024 + sub
/-- The unit id of a hub die's sub-unit with an index (R364). -/
def hubUnitIx (half sub ix : Nat) : Nat := hubDie half * 1024 + bits ix 5 4 * 256 + bits ix 3 0 * 16 + sub
/-- The unit id of an optical port or wavelength's die-level port (R20, R364). -/
def portUnit (port : Nat) : Nat := (20 + port / 4) * 1024 + (port % 4) * 16
/-- The unit id of a wavelength (R364). -/
def lambdaUnit (port lam : Nat) : Nat := (20 + port / 4) * 1024 + (port % 4) * 256 + lam * 16 + 1
/-- The unit id of an HBM pseudo-channel (R364). -/
def hbmUnit (a : Nat) : Nat := hbmDie a * 1024 + bits (hbmChannel a) 5 4 * 256 + bits (hbmChannel a) 3 0 * 16

/-- The die of a unit id. -/
def unitDie (u : Nat) : Nat := bits u 15 10
/-- The cluster field of a unit id. -/
def unitCluster (u : Nat) : Nat := bits u 9 8
/-- The core field of a unit id. -/
def unitCore (u : Nat) : Nat := bits u 7 4
/-- The sub-unit field of a unit id. -/
def unitSub (u : Nat) : Nat := bits u 3 0

/-- A unit is marked suspect: its history says SUSPECT, or PERMANENT while it is not yet mapped out (R92, R122, R367). -/
def Dev.isSuspect (d : Dev) (u : Nat) : Bool := (d.hist u).state = 1 || (d.hist u).state = 2

/-- The half that holds the port (R304). -/
def portHalf (p : Nat) : Nat := if p < 24 then 0 else 1

/-! ## Counted loops -/

/-- Apply a function for each number below n, in rising order. -/
def upto {α : Type} (n : Nat) (f : Nat → α → α) (x : α) : α := (List.range n).foldl (fun a i => f i a) x

end Sys2Proof.Machine
end

