-- ==== Sys2Proof/Machine/Flags.lean ====
section
/-! DEFINITION. The codes of the spec that records, completions and registers carry: status codes, record
types, sticky bits and service states. -/

namespace Sys2Proof.Machine

/-! ## Status codes (R15, R34, R43, R80, R152, R180, R199, R230, R258, R301, R334, R358, R383, R410, R430, R470, R488) -/

/-- OK -/
abbrev St.ok : Status := 0x0000
/-- RESERVED_NONZERO -/
abbrev St.reservedNonzero : Status := 0x0001
/-- DPA_INVALID -/
abbrev St.dpaInvalid : Status := 0x0002
/-- HALF_FENCED -/
abbrev St.halfFenced : Status := 0x0003
/-- POISON_CONSUMED -/
abbrev St.poisonConsumed : Status := 0x0101
/-- DEEP_TIMEOUT -/
abbrev St.deepTimeout : Status := 0x0102
/-- DEEP_ERROR -/
abbrev St.deepError : Status := 0x0103
/-- STASH_EXHAUSTED -/
abbrev St.stashExhausted : Status := 0x0104
/-- QUOTA_EXCEEDED -/
abbrev St.quotaExceeded : Status := 0x0105
/-- HINT_MISMATCH -/
abbrev St.hintMismatch : Status := 0x0106
/-- HBM_EXHAUSTED -/
abbrev St.hbmExhausted : Status := 0x0107
/-- CONTEXT_LOST -/
abbrev St.contextLost : Status := 0x0108
/-- PARITY_REPAIRED -/
abbrev St.parityRepaired : Status := 0x0109
/-- ALLOC_INVALID -/
abbrev St.allocInvalid : Status := 0x010A
/-- FORMAT_MISMATCH -/
abbrev St.formatMismatch : Status := 0x0201
/-- CHAN_TABLE_RANGE -/
abbrev St.chanTableRange : Status := 0x0202
/-- BLOCK_SHAPE -/
abbrev St.blockShape : Status := 0x0203
/-- TSCALE_INVALID -/
abbrev St.tscaleInvalid : Status := 0x0204
/-- FORMAT_FLAGS -/
abbrev St.formatFlags : Status := 0x0205
/-- SHAPE_MISMATCH -/
abbrev St.shapeMismatch : Status := 0x0206
/-- NONFINITE -/
abbrev St.nonfinite : Status := 0x0207
/-- SCALE_MISS -/
abbrev St.scaleMiss : Status := 0x0208
/-- FALLBACK_BUDGET -/
abbrev St.fallbackBudget : Status := 0x0209
/-- FALLBACK_PERSISTENT -/
abbrev St.fallbackPersistent : Status := 0x020A
/-- NORM_JUMP -/
abbrev St.normJump : Status := 0x020B
/-- TRACKER_INVALID -/
abbrev St.trackerInvalid : Status := 0x020C
/-- WIDE_FORM_ABSENT -/
abbrev St.wideFormAbsent : Status := 0x020D
/-- FALLBACK_CLEARED -/
abbrev St.fallbackCleared : Status := 0x020E
/-- UPD_PROGRAM_ABSENT -/
abbrev St.updProgramAbsent : Status := 0x0210
/-- UPD_RATIO_LOW -/
abbrev St.updRatioLow : Status := 0x0211
/-- UPD_RATIO_HIGH -/
abbrev St.updRatioHigh : Status := 0x0212
/-- UPD_OVERFLOW -/
abbrev St.updOverflow : Status := 0x0213
/-- UPD_LOCKSTEP -/
abbrev St.updLockstep : Status := 0x0214
/-- VERSION_WRITE -/
abbrev St.versionWrite : Status := 0x0215
/-- RF_DEGENERATE -/
abbrev St.rfDegenerate : Status := 0x0216
/-- TALLY_BINDING -/
abbrev St.tallyBinding : Status := 0x0217
/-- PAGE_EXHAUSTED -/
abbrev St.pageExhausted : Status := 0x0301
/-- PT_GENERATION -/
abbrev St.ptGeneration : Status := 0x0302
/-- PT_CAPACITY -/
abbrev St.ptCapacity : Status := 0x0303
/-- PAGE_SHARED -/
abbrev St.pageShared : Status := 0x0304
/-- KV_SHARE_LIMIT -/
abbrev St.kvShareLimit : Status := 0x0305
/-- KV_INVALID -/
abbrev St.kvInvalid : Status := 0x0306
/-- KV_TABLE_FREED -/
abbrev St.kvTableFreed : Status := 0x0307
/-- GRAPH_LIMIT -/
abbrev St.graphLimit : Status := 0x0401
/-- GRAPH_INVALID -/
abbrev St.graphInvalid : Status := 0x0402
/-- GRAPH_CYCLE -/
abbrev St.graphCycle : Status := 0x0403
/-- GRAPH_BUSY -/
abbrev St.graphBusy : Status := 0x0404
/-- SCHEDULE_INVALID -/
abbrev St.scheduleInvalid : Status := 0x0405
/-- STEP_STATE -/
abbrev St.stepState : Status := 0x0406
/-- STEP_ABORTED -/
abbrev St.stepAborted : Status := 0x0407
/-- STEP_TIMEOUT -/
abbrev St.stepTimeout : Status := 0x0408
/-- STEP_COMMITTED -/
abbrev St.stepCommitted : Status := 0x0409
/-- STEP_SKIPPED -/
abbrev St.stepSkipped : Status := 0x040A
/-- HUB_TASK_FAILED -/
abbrev St.hubTaskFailed : Status := 0x040B
/-- DEADLINE_LATE -/
abbrev St.deadlineLate : Status := 0x0501
/-- DIGEST_MISMATCH -/
abbrev St.digestMismatch : Status := 0x0502
/-- COLL_EXPONENT -/
abbrev St.collExponent : Status := 0x0503
/-- FAB_UNRESPONSIVE -/
abbrev St.fabUnresponsive : Status := 0x0504
/-- FAB_JOIN -/
abbrev St.fabJoin : Status := 0x0505
/-- FAB_CLASS -/
abbrev St.fabClass : Status := 0x0506
/-- FAB_STATE -/
abbrev St.fabState : Status := 0x0507
/-- FAB_GROUP -/
abbrev St.fabGroup : Status := 0x0508
/-- BELL_HOLDOVER -/
abbrev St.bellHoldover : Status := 0x0509
/-- BELL_LOST -/
abbrev St.bellLost : Status := 0x050A
/-- RELIEF_STARTED -/
abbrev St.reliefStarted : Status := 0x0510
/-- RELIEF_DONE -/
abbrev St.reliefDone : Status := 0x0511
/-- RELIEF_FAILED -/
abbrev St.reliefFailed : Status := 0x0512
/-- SPARE_TAKEN -/
abbrev St.spareTaken : Status := 0x0513
/-- RELIEF_ROLLBACK -/
abbrev St.reliefRollback : Status := 0x0514
/-- RELIEVED -/
abbrev St.relieved : Status := 0x0515
/-- SNAPSHOT_VERSION -/
abbrev St.snapshotVersion : Status := 0x0516
/-- RING_INVALID -/
abbrev St.ringInvalid : Status := 0x0517
/-- REPROTECTED -/
abbrev St.reprotected : Status := 0x0518
/-- CHECK_MISMATCH -/
abbrev St.checkMismatch : Status := 0x0601
/-- CANARY_FAIL -/
abbrev St.canaryFail : Status := 0x0602
/-- CANARY_DEFERRED -/
abbrev St.canaryDeferred : Status := 0x0603
/-- UNIT_SUSPECT -/
abbrev St.unitSuspect : Status := 0x0604
/-- UNIT_RELEASED -/
abbrev St.unitReleased : Status := 0x0605
/-- UNIT_PERMANENT -/
abbrev St.unitPermanent : Status := 0x0606
/-- UNIT_MAPPED_OUT -/
abbrev St.unitMappedOut : Status := 0x0607
/-- LOCATION_RETIRED -/
abbrev St.locationRetired : Status := 0x0608
/-- DEVICE_DEGRADED -/
abbrev St.deviceDegraded : Status := 0x0609
/-- DEVICE_FAILED -/
abbrev St.deviceFailed : Status := 0x060A
/-- DIE_ISOLATED -/
abbrev St.dieIsolated : Status := 0x060B
/-- MEM_CORRECTED -/
abbrev St.memCorrected : Status := 0x060C
/-- MEM_UNCORRECTED -/
abbrev St.memUncorrected : Status := 0x060D
/-- LOG_FULL -/
abbrev St.logFull : Status := 0x060E
/-- UNIT_INVALID -/
abbrev St.unitInvalid : Status := 0x060F
/-- CANARY_PASS -/
abbrev St.canaryPass : Status := 0x0610
/-- OPCODE_INVALID -/
abbrev St.opcodeInvalid : Status := 0x0701
/-- ORPHANED -/
abbrev St.orphaned : Status := 0x0702
/-- SESSION_STATE -/
abbrev St.sessionState : Status := 0x0703
/-- VERSION_UNSUPPORTED -/
abbrev St.versionUnsupported : Status := 0x0704
/-- CTX_INVALID -/
abbrev St.ctxInvalid : Status := 0x0705
/-- ADOPT_TOKEN -/
abbrev St.adoptToken : Status := 0x0706
/-- CMD_FLAGS -/
abbrev St.cmdFlags : Status := 0x0707
/-- CTX_LIMIT -/
abbrev St.ctxLimit : Status := 0x0708
/-- CTX_BUSY -/
abbrev St.ctxBusy : Status := 0x0709
/-- IMAGE_REJECTED -/
abbrev St.imageRejected : Status := 0x070A
/-- EVENTS_DROPPED -/
abbrev St.eventsDropped : Status := 0x070B
/-- SPDM_TRANSPORT -/
abbrev St.spdmTransport : Status := 0x070C
/-- FW_RESTARTED -/
abbrev St.fwRestarted : Status := 0x0710
/-- FW_SERVICE_RESTART -/
abbrev St.fwServiceRestart : Status := 0x0711
/-- FW_CORE_RESTART -/
abbrev St.fwCoreRestart : Status := 0x0712
/-- FW_COMPLEX_RESTART -/
abbrev St.fwComplexRestart : Status := 0x0713
/-- FW_HANDOVER -/
abbrev St.fwHandover : Status := 0x0714
/-- FW_SHED -/
abbrev St.fwShed : Status := 0x0715
/-- FW_IMAGE_CORRUPT -/
abbrev St.fwImageCorrupt : Status := 0x0716
/-- FW_ABSENT -/
abbrev St.fwAbsent : Status := 0x0717
/-- MGMT_QUEUE_DROP -/
abbrev St.mgmtQueueDrop : Status := 0x0718
/-- LIMIT_CLAMPED -/
abbrev St.limitClamped : Status := 0x0801
/-- PWR_RANGE -/
abbrev St.pwrRange : Status := 0x0802
/-- POWER_FAULT -/
abbrev St.powerFault : Status := 0x0803
/-- THERM_TRIP -/
abbrev St.thermTrip : Status := 0x0804
/-- THROTTLE -/
abbrev St.throttle : Status := 0x0805
/-- CLASS_SELECTED -/
abbrev St.classSelected : Status := 0x0806
/-- CLASS_DISAGREE -/
abbrev St.classDisagree : Status := 0x0807
/-- POWER_DOWN -/
abbrev St.powerDown : Status := 0x0808
/-- STAGE_CONFLICT -/
abbrev St.stageConflict : Status := 0x0901
/-- CFG_REGISTER -/
abbrev St.cfgRegister : Status := 0x0902
/-- CFG_OVERLAY -/
abbrev St.cfgOverlay : Status := 0x0903
/-- CFG_IMAGE -/
abbrev St.cfgImage : Status := 0x0904
/-- CFG_GROUP -/
abbrev St.cfgGroup : Status := 0x0905
/-- CFG_SWITCHED -/
abbrev St.cfgSwitched : Status := 0x0906

/-! ## Sticky bits (R373) -/

/-- bit 0 of HLT_STICKY0 -/
abbrev Sticky.thermTrip : Nat := 0
/-- bit 1 of HLT_STICKY0 -/
abbrev Sticky.throttle : Nat := 1
/-- bit 2 of HLT_STICKY0 -/
abbrev Sticky.powerFault : Nat := 2
/-- bit 3 of HLT_STICKY0 -/
abbrev Sticky.dieIsolated : Nat := 3
/-- bit 4 of HLT_STICKY0 -/
abbrev Sticky.failed : Nat := 4
/-- bit 5 of HLT_STICKY0 -/
abbrev Sticky.degraded : Nat := 5
/-- bit 6 of HLT_STICKY0 -/
abbrev Sticky.mapout : Nat := 6
/-- bit 7 of HLT_STICKY0 -/
abbrev Sticky.uncorrected : Nat := 7
/-- bit 8 of HLT_STICKY0 -/
abbrev Sticky.poison : Nat := 8
/-- bit 9 of HLT_STICKY0 -/
abbrev Sticky.contextLost : Nat := 9
/-- bit 10 of HLT_STICKY0 -/
abbrev Sticky.check : Nat := 10
/-- bit 11 of HLT_STICKY0 -/
abbrev Sticky.lockstep : Nat := 11
/-- bit 12 of HLT_STICKY0 -/
abbrev Sticky.canaryFail : Nat := 12
/-- bit 13 of HLT_STICKY0 -/
abbrev Sticky.digestNamed : Nat := 13
/-- bit 14 of HLT_STICKY0 -/
abbrev Sticky.reliefFailed : Nat := 14
/-- bit 15 of HLT_STICKY0 -/
abbrev Sticky.relieved : Nat := 15
/-- bit 16 of HLT_STICKY0 -/
abbrev Sticky.fwRestart : Nat := 16
/-- bit 17 of HLT_STICKY0 -/
abbrev Sticky.fwHandover : Nat := 17
/-- bit 18 of HLT_STICKY0 -/
abbrev Sticky.orphaned : Nat := 18
/-- bit 19 of HLT_STICKY0 -/
abbrev Sticky.logFull : Nat := 19
/-- bit 20 of HLT_STICKY0 -/
abbrev Sticky.logNearFull : Nat := 20
/-- bit 21 of HLT_STICKY0 -/
abbrev Sticky.crosscut : Nat := 21
/-- bit 22 of HLT_STICKY0 -/
abbrev Sticky.portRetired : Nat := 22
/-- bit 23 of HLT_STICKY0 -/
abbrev Sticky.bellLost : Nat := 23
/-- bit 24 of HLT_STICKY0 -/
abbrev Sticky.classDisagree : Nat := 24
/-- bit 25 of HLT_STICKY0 -/
abbrev Sticky.limitClamped : Nat := 25
/-- bit 26 of HLT_STICKY0 -/
abbrev Sticky.mramCorrected : Nat := 26
/-- bit 27 of HLT_STICKY0 -/
abbrev Sticky.imageRejected : Nat := 27

/-! ## Record types (R375) -/

/-- record type CHECK (R375) -/
abbrev Rt.check : Nat := 1
/-- record type MEMORY (R375) -/
abbrev Rt.memory : Nat := 2
/-- record type CANARY (R375) -/
abbrev Rt.canary : Nat := 3
/-- record type HEALTH (R375) -/
abbrev Rt.health : Nat := 4
/-- record type NUMERIC (R375) -/
abbrev Rt.numeric : Nat := 5
/-- record type STEP (R375) -/
abbrev Rt.step : Nat := 6
/-- record type KV (R375) -/
abbrev Rt.kv : Nat := 7
/-- record type FABRIC (R375) -/
abbrev Rt.fabric : Nat := 8
/-- record type RELIEF (R375) -/
abbrev Rt.relief : Nat := 9
/-- record type POWER (R375) -/
abbrev Rt.power : Nat := 10
/-- record type CONFIG (R375) -/
abbrev Rt.config : Nat := 11
/-- record type HOST (R375) -/
abbrev Rt.host : Nat := 12
/-- record type FIRMWARE (R375) -/
abbrev Rt.firmware : Nat := 13
/-- record type SECURITY (R375) -/
abbrev Rt.security : Nat := 14

/-! ## Ranges of codes -/

/-- The status codes of R80 and R258 that end a step as a task error when a task carries them stand in the areas
0x01 to 0x05 of R15; this is a code's area. -/
def St.area (s : Status) : Nat := s.toNat / 256

end Sys2Proof.Machine
end

