-- ==== Sys2Proof/Machine/Regs.lean ====
section
/-! DEFINITION. The register map: the staged registers with their groups, reset values and defined bits, the
words that the read-only registers show of the device's state, and the read of any register. -/

namespace Sys2Proof.Machine

/-! ## Staged registers and their groups (R453, R457) -/

/-- A staged register: its agreement group, its defined bits and its reset value. -/
structure RwsReg where
  group : Nat
  mask : Nat
  reset : Nat
deriving DecidableEq, Repr

/-- A group id: kind in [15:12], instance in [11:0] (R457). -/
def groupId (kind ix : Nat) : Nat := kind * 4096 + ix

/-- Bits [31:0] with `n` low bits that must be zero (they are kept as zero, log entry 6). -/
def loMask (n : Nat) : Nat := 0x100000000 - 2 ^ n

/-- A staged register of a Screen slot (R153). -/
def slotRws (s o : Nat) : Option RwsReg :=
  if o = 0x00 then some ⟨groupId 1 s, 0x01FFFFFF, 0x21F0⟩
  else if o = 0x04 then some ⟨groupId 1 s, 0x7FFFF, 0x21550⟩
  else if o = 0x08 then some ⟨groupId 1 s, 0xFFFFFFFF, 0x41000000⟩
  else if o = 0x20 ∨ o = 0x24 then some ⟨groupId 1 s, 0xFFFFFFFF, 0⟩
  else none

/-- A staged register of a KV pool (R232). -/
def poolRws (p o : Nat) : Option RwsReg :=
  match o with
  | 0x00 => some ⟨groupId 2 p, 0x1FF, 0⟩
  | 0x04 => some ⟨groupId 2 p, 0x1FFF, 0⟩
  | 0x08 => some ⟨groupId 2 p, 0xFFFFF, 0⟩
  | 0x0C => some ⟨groupId 2 p, 0xFFFFFFFF, 0x3F800000⟩
  | 0x10 => some ⟨groupId 2 p, loMask 6, 0⟩
  | 0x14 => some ⟨groupId 2 p, 0xFFFFF, 0⟩
  | 0x18 => some ⟨groupId 2 p, 0x3FFFFFFF, 0⟩
  | 0x1C => some ⟨groupId 2 p, 0xFFFFFFFF, 0xFFFFFFFF⟩
  | 0x20 => some ⟨groupId 2 p, loMask 6, 0⟩
  | 0x24 => some ⟨groupId 2 p, 0xFFFFF, 0⟩
  | 0x28 => some ⟨groupId 2 p, 0x3FFFFFFF, 0⟩
  | 0x2C => some ⟨groupId 2 p, 0x3FF, 0x32⟩
  | _ => none

/-- A staged register of the Update Engine's context block (R181). -/
def updRws (c o : Nat) : Option RwsReg :=
  match o with
  | 0x00 => some ⟨groupId 5 c, 1, 0⟩
  | 0x04 => some ⟨groupId 5 c, 0xFFFFFFFF, 0x3F800000⟩
  | 0x08 => some ⟨groupId 5 c, 0xFFFFFFFF, 0x3F800000⟩
  | 0x24 => some ⟨groupId 5 c, loMask 6, 0⟩
  | 0x28 => some ⟨groupId 5 c, 0xFFFFF, 0⟩
  | 0x2C => some ⟨groupId 5 c, 0xFFFFFFFF, 0⟩
  | _ => none

/-- A staged register of the stash's context block (R260). -/
def sthRws (c o : Nat) : Option RwsReg :=
  match o with
  | 0x00 => some ⟨groupId 7 c, 0x7FFF, 0⟩
  | 0x04 => some ⟨groupId 7 c, loMask 21, 0⟩
  | 0x08 => some ⟨groupId 7 c, 0xFFFFF, 0⟩
  | 0x0C => some ⟨groupId 7 c, 0xFFFFFFFF, 0⟩
  | _ => none

/-- A staged register of the power block (R489). Its limits have the class's values once the class is fixed. -/
def pwrRws (o : Nat) : Option RwsReg :=
  if o = 0x08 then some ⟨groupId 12 5, 0x3FFF, 0⟩
  else if o = 0x0C then some ⟨groupId 12 5, 0xFFF, 0⟩
  else if o = 0x10 then some ⟨groupId 12 5, 0x7F, 95⟩
  else if 0x40 ≤ o ∧ o < 0x40 + 120 then some ⟨groupId 12 5, 0x7F, 100⟩
  else none

/-- Whether a register at this offset exists on hub die 16 only, hub die 17 mirroring it (R154, R181, R200,
R302, R338, R359, R384) or not having it (R471, R489). -/
def westOnly (off : Nat) : Bool :=
  (0x02100000 ≤ off && off < 0x02100100) || (0x03000000 ≤ off && off < 0x03000200)
  || (0x04000000 ≤ off && off < 0x04000100) || (0x08000000 ≤ off && off < 0x08000200)
  || (0x09030000 ≤ off && off < 0x09030100) || (0x09040000 ≤ off && off < 0x09040100)
  || (0x0B000000 ≤ off && off < 0x0B000040) || off = 0x1000000C
  || (0x00020000 ≤ off && off < 0x00030000) || (0x00030000 ≤ off && off < 0x00030020)

/-- The staged register at an offset of a hub die's control space, if it is one. -/
def hubRws (off : Nat) : Option RwsReg :=
  if 0x00020000 ≤ off ∧ off < 0x00020100 then pwrRws (off - 0x00020000)
  else if 0x02000000 ≤ off ∧ off < 0x02100000 then slotRws ((off - 0x02000000) / 256) (off % 256)
  else if 0x02100000 ≤ off ∧ off < 0x02100100 then
    if off % 32 = 0 then some ⟨groupId 4 ((off - 0x02100000) / 32), 0x1FFF, 0x1040⟩ else none
  else if 0x03000000 ≤ off ∧ off < 0x03000200 then updRws ((off - 0x03000000) / 64) (off % 64)
  else if 0x03002000 ≤ off ∧ off < 0x03006000 then
    some ⟨groupId 3 ((off - 0x03002000) / 1024), 0xFFFFFFFF, 0⟩
  else if 0x04000000 ≤ off ∧ off < 0x04000100 then
    if off % 32 < 8 then some ⟨groupId 8 ((off - 0x04000000) / 32), 0xFFFFFFFF, 0⟩ else none
  else if 0x05000000 ≤ off ∧ off < 0x05004000 then poolRws ((off - 0x05000000) / 64) (off % 64)
  else if 0x06000000 ≤ off ∧ off < 0x06000200 then
    if off % 64 = 0x18 then some ⟨groupId 6 ((off - 0x06000000) / 64), 0x03FFFFFF, 0x003201F4⟩ else none
  else if 0x07000000 ≤ off ∧ off < 0x07000200 then sthRws ((off - 0x07000000) / 64) (off % 64)
  else if 0x08000000 ≤ off ∧ off < 0x08000200 then
    if off % 64 = 0 then some ⟨groupId 9 ((off - 0x08000000) / 64), 7, 2⟩ else none
  else if 0x09030000 ≤ off ∧ off < 0x09030100 then
    if off % 32 = 0 then some ⟨groupId 10 ((off - 0x09030000) / 32), 0xFF, 0x14⟩ else none
  else if 0x09040000 ≤ off ∧ off < 0x09040100 then
    if off % 32 = 0x18 then some ⟨groupId 11 ((off - 0x09040000) / 32), 0xFFFFFF, 0x190064⟩ else none
  else if off = 0x0B000008 then some ⟨groupId 12 0, 0x1FFFFF, 0xCA168⟩
  else if 0x0C001000 ≤ off ∧ off < 0x0C001800 then
    some ⟨groupId 12 1, if off % 8 = 0 then 0xFFFFFFFF else 0x8000FF7F, 0⟩
  else if off = 0x0E00001C then some ⟨groupId 12 2, 3, 2⟩
  else if 0x0F000040 ≤ off ∧ off < 0x0F000058 then some ⟨groupId 12 3, 0xFFFFFFFF, 0⟩
  else if off = 0x1000000C then some ⟨groupId 12 4, 0xFF, 0⟩
  else none

/-- The staged register at (die, offset), if it is one. -/
def rwsReg (die off : Nat) : Option RwsReg :=
  if off % 4 ≠ 0 then none
  else if die = 16 then hubRws off
  else if die = 17 then if westOnly off then none else hubRws off
  else none

/-- The offsets of a group's registers on a hub die (R457). -/
def groupOffsets (gid : Nat) : List Nat :=
  let ix := gid % 4096
  match gid / 4096 with
  | 1 => [0x00, 0x04, 0x08, 0x20, 0x24].map (0x02000000 + ix * 256 + ·)
  | 2 => [0x00, 0x04, 0x08, 0x0C, 0x10, 0x14, 0x18, 0x1C, 0x20, 0x24, 0x28, 0x2C].map (0x05000000 + ix * 64 + ·)
  | 3 => (List.range 256).map (fun i => 0x03002000 + ix * 1024 + i * 4)
  | 4 => [0x02100000 + ix * 32]
  | 5 => [0x00, 0x04, 0x08, 0x24, 0x28, 0x2C].map (0x03000000 + ix * 64 + ·)
  | 6 => [0x06000018 + ix * 64]
  | 7 => [0x00, 0x04, 0x08, 0x0C].map (0x07000000 + ix * 64 + ·)
  | 8 => [0x04000000 + ix * 32, 0x04000004 + ix * 32]
  | 9 => [0x08000000 + ix * 64]
  | 10 => [0x09030000 + ix * 32]
  | 11 => [0x09040018 + ix * 32]
  | 12 =>
    match ix with
    | 0 => [0x0B000008]
    | 1 => (List.range 512).map (fun i => 0x0C001000 + i * 4)
    | 2 => [0x0E00001C]
    | 3 => (List.range 6).map (fun i => 0x0F000040 + i * 4)
    | 4 => [0x1000000C]
    | 5 => [0x00020008, 0x0002000C, 0x00020010] ++ (List.range 30).map (fun i => 0x00020040 + i * 4)
    | _ => []
  | _ => []

/-- A group id names a group (R457). -/
def groupValid (gid : Nat) : Bool :=
  let ix := gid % 4096
  match gid / 4096 with
  | 1 => true
  | 2 => ix < 256
  | 3 => ix < 16
  | 4 | 5 | 6 | 7 | 8 | 9 | 10 | 11 => ix < 8
  | 12 => ix < 6
  | _ => false

/-- A group has an instance on hub die 17 (R458). -/
def groupPerHalf (gid : Nat) : Bool :=
  match gid / 4096 with
  | 1 | 2 | 3 | 6 | 7 => true
  | 12 => let ix := gid % 4096; ix = 1 || ix = 2 || ix = 3
  | _ => false

/-- A group has an instance in a powered half. -/
def Dev.groupIn (d : Dev) (gid half : Nat) : Bool :=
  groupValid gid && d.halfOn half && (half = 0 || groupPerHalf gid)

/-- The reset value of a staged register, zero for any other. -/
def rwsReset (die off : Nat) : Nat := match rwsReg die off with | some r => r.reset | none => 0
/-- The committed value of a staged register (R453). -/
def Dev.committed (d : Dev) (die off : Nat) : Nat := d.com die off (rwsReset die off)
/-- The staged value of a staged register (R453). -/
def Dev.staged (d : Dev) (die off : Nat) : Nat := d.stg die off (rwsReset die off)
/-- The value a commit armed for a register, none where none is armed. -/
def Dev.armed? (d : Dev) (die off : Nat) : Option Word := d.bank.armed.find? (regKey die off)

/-- A committed 64-bit DPA held in a register pair. -/
def Dev.com64 (d : Dev) (die off : Nat) : Nat := d.committed die off + d.committed die (off + 4) * 2 ^ 32

/-- A group is armed in a half. -/
def Dev.groupArmed (d : Dev) (gid half : Nat) : Bool :=
  d.bank.armedGroups.any (fun g => g.1 = gid && g.2.1 = half)

/-! ## What the read-only registers show -/

/-- A hub core's context assignment (R437, R449): its committed nibble. -/
def Dev.hubNibble (d : Dev) (half core : Nat) : Nat :=
  bits (d.committed (hubDie half) (0x0F000040 + core / 8 * 4)) (core % 8 * 4 + 3) (core % 8 * 4)

/-- The context a hub core runs for (R437). -/
def Dev.hubCtx (d : Dev) (half core : Nat) : Option Nat :=
  let n := d.hubNibble half core
  if core < 48 ∧ bit n 3 then some (n % 8) else none

/-- FEN_STATUS and BEN_STATUS and their counters (R107, R127); `e` 0 the F-engine, 1 and 2 the B-engines. -/
def Dev.engWord (d : Dev) (die cluster core e o : Nat) : Nat :=
  let c := d.core (coreKey die cluster core)
  let u := coreUnit die cluster core (e + 1)
  let act := at' c.act e none
  match o with
  | 0x00 =>
    flag act.isSome 0 + flag (d.isSuspect u) 1
    + flag (match act with | some s => !s.failed.isEmpty || !s.foreign.isEmpty | none => false) 2
    + flag (at' c.nxt e none).isSome 3
    + (if e = 0 then 0 else
        flag (at' c.arr (e - 1) none).isSome 4
        + flag (match act with | some s => s.rdim % 2 = 1 | none => false) 5
        + flag (match act with | some s => s.rdim / 2 = 1 | none => false) 6
        + flag (match act with | some s => s.acc | none => false) 7
        + field (at' c.fq (e - 1) []).length 3 16)
    + field (match act with | some s => s.fmt | none => 0) 8 8
  | 0x10 => (at' c.nfPos e 0).toNat % 2 ^ 32
  | 0x14 => (at' c.nfPos e 0).toNat / 2 ^ 32
  | _ => 0

/-- FEN_CORR_STATUS (R107). -/
def Dev.corrWord (d : Dev) (die cluster core o : Nat) : Nat :=
  match o with
  | 0x00 =>
    let r := match at' (d.core (coreKey die cluster core)).act 0 none with | some s => s.rank | none => 0
    flag (0 < r) 0 + flag (d.isSuspect (coreUnit die cluster core 6)) 1 + field r 6 8
  | _ => 0

/-- SCN_SLOT read-only words (R153). -/
def Slot.word (x : Slot) (o : Nat) : Nat :=
  match o with
  | 0x0C => x.scale.toNat
  | 0x10 => x.attemptScale.toNat
  | 0x14 => x.provAmax.toNat
  | 0x18 => x.adoptAmax.toNat
  | 0x1C => x.normEma.toNat
  | 0x28 => x.seen % 2 ^ 32
  | 0x2C => x.seen / 2 ^ 32 % 2 ^ 32
  | 0x30 => x.ovf % 2 ^ 32
  | 0x34 => x.ovf / 2 ^ 32 % 2 ^ 32
  | 0x38 => x.unf % 2 ^ 32
  | 0x3C => x.unf / 2 ^ 32 % 2 ^ 32
  | 0x40 => x.unfBlk % 2 ^ 32
  | 0x44 => x.unfBlk / 2 ^ 32 % 2 ^ 32
  | 0x48 => sat32 x.sat
  | 0x4C => sat32 x.nfCount
  | 0x50 => x.nfPos.toNat % 2 ^ 32
  | 0x54 => x.nfPos.toNat / 2 ^ 32
  | 0x58 => x.nfTask.toNat
  | 0x5C => flag x.missOvf 0 + flag x.missUnf 1 + flag x.missBfx 2 + flag x.nf 3 + flag x.nj 4 + flag x.adopted 5
  | 0x60 => x.provNorm.toNat
  | 0x64 => match x.owner with | some c => c % 8 + 8 | none => 0
  | _ => if 0x80 ≤ o ∧ o < 0xC0 then (at' x.hist ((o - 0x80) / 4) 0).toNat else 0

/-- SCN_CTX words (R154). -/
def Ctx.scnWord (x : Ctx) (o : Nat) : Nat :=
  match o with
  | 0x04 =>
    (match x.older with | some s => s.form | none => 0) + flag x.persist 2 + field x.wideCount 2 3
    + flag x.miss 5 + flag x.fbOver 6 + flag x.nf 7 + flag x.nj 8
  | 0x08 => x.fbCount
  | 0x0C => x.ladderTotal
  | 0x10 => x.nfPos.toNat % 2 ^ 32
  | 0x14 => x.nfPos.toNat / 2 ^ 32
  | 0x18 => x.nfTask.toNat
  | 0x1C => x.missWord.toNat
  | _ => 0

/-- UPD_CTX words (R181). -/
def Ctx.updWord (x : Ctx) (o : Nat) : Nat :=
  match o with
  | 0x0C => x.curSlot % 2 + 2 * (x.stateSel % 2)
  | 0x10 => at' x.vernum x.curSlot 0 % 2 ^ 32
  | 0x14 => at' x.pins 0 0 % 65536 + at' x.pins 1 0 % 65536 * 65536
  | 0x18 => x.clipNorm.toNat
  | 0x1C => x.clipFactor.toNat
  | 0x20 => flag x.waitPin 0 + flag x.rlo 1 + flag x.rhi 2 + flag x.uovf 3 + flag x.lockstep 4 + flag x.refresh 5
  | _ => 0

/-- The step whose bits x3 carries (R192): the value the step in progress will have once it commits. -/
def Ctx.tallyStep (x : Ctx) : Nat :=
  match x.older with
  | some s => if 2 ≤ s.state ∧ s.state ≤ 6 then s.p.step else x.stepCnt
  | none => x.stepCnt

/-- TLY_CTX words (R200). -/
def Dev.tlyWord (d : Dev) (c o : Nat) : Nat :=
  match o with
  | 0x08 => (d.ctx c).tallyStep % 2 ^ 32
  | 0x0C => flag (d.groupArmed (groupId 8 c) 0) 0
  | _ => 0

/-- The share counts of a pool: one byte per frame after the frame array (R205). -/
def Dev.poolShareBase (d : Dev) (half p : Nat) : Nat :=
  let b := 0x05000000 + p * 64
  let die := hubDie half
  d.com64 die (b + 0x10) + d.committed die (b + 0x18) * (d.committed die (b + 0x08) * 64)

/-- The share count of a frame (R205). -/
def Dev.shareCount (d : Dev) (half p frame : Nat) : Nat :=
  (d.mem.read (d.poolShareBase half p + frame)).toNat

/-- The frames of a pool that admissions have reserved and not installed (R213, R216). -/
def Dev.framesHeld (d : Dev) (half p : Nat) : List Nat :=
  d.insts.flatMap (fun i => (i.kvFrames.filter (fun q => q.1 = poolKey half p)).map (fun q => q.2.1))

/-- The free list of a pool (R205): the frames with share count 0 that no admission has reserved. -/
def Dev.freeFrameList (d : Dev) (half p : Nat) : List Nat :=
  let held := d.framesHeld half p
  (List.range (d.committed (hubDie half) (0x05000000 + p * 64 + 0x18))).filter
    (fun f => decide (d.shareCount half p f = 0) && !held.contains f)

/-- How many frames a pool has free. -/
def Dev.freeFrames (d : Dev) (half p : Nat) : Nat := (d.freeFrameList half p).length

/-- ATN_POOL read-only words (R232). -/
def Dev.poolWord (d : Dev) (half p o : Nat) : Nat :=
  let x := d.pool (poolKey half p)
  match o with
  | 0x30 => d.freeFrames half p
  | 0x34 => x.deepUsed.length
  | 0x38 => match x.owner with | some c => c % 8 + 8 | none => 0
  | 0x3C => (d.insts.filter (fun i => i.waitPool = some (poolKey half p))).length
  | _ => 0

/-- The extents of a context's allocations in a tier and half: (allocation, extent DPA / 2 MiB) pairs. -/
def Dev.ctxExtents (d : Dev) (c : Nat) (deep : Bool) (half : Nat) : List (Alloc × Nat) :=
  (d.allocs.filter (fun a => a.ctx = c && (if deep then tierOf a.base = 8 else tierOf a.base = 0 && halfOf a.base = half))).flatMap
    (fun a => (List.range a.extents).map (fun i => (a, a.base / 2 ^ 21 + i)))

/-- Deep extents a context uses: its deep allocations and its evicted HBM extents (R238). -/
def Dev.deepUsed (d : Dev) (c : Nat) : Nat :=
  (d.ctxExtents c true 0).length
  + ((d.ctxExtents c false 0 ++ d.ctxExtents c false 1).filter (fun e => (d.extent e.2).evicted || (d.extent e.2).moving = 1)).length

/-- MEM_CTX words (R259). -/
def Dev.memWord (d : Dev) (half c o : Nat) : Nat :=
  let x := d.ctx c
  match o with
  | 0x00 => at' x.hbmQuota half 0
  | 0x04 => (d.ctxExtents c false half).length
  | 0x08 => ((d.ctxExtents c false half).filter (fun e => e.1.hint = 2)).length
  | 0x0C => ((d.ctxExtents c false half).filter (fun e => (d.extent e.2).evicted)).length
  | 0x10 => if half = 0 then x.deepQuota else 0
  | 0x14 => if half = 0 then d.deepUsed c else 0
  | 0x1C => sat32 x.poisonCount
  | _ => 0

/-- STH_CTX words (R260). -/
def Dev.sthWord (d : Dev) (half c o : Nat) : Nat :=
  let x := d.ctx c
  let items := d.items.filter (fun i => i.ctx = c && i.half = half)
  match o with
  | 0x10 => ((d.resvs.filter (fun r => r.ctx = c && r.half = half)).map (·.blocks)).sum
  | 0x14 => (items.map (·.inStash)).sum
  | 0x18 => min (items.map (fun i => i.blocks - i.inStash)).sum (32 * d.committed (hubDie half) (0x0700000C + c * 64))
  | 0x1C => (d.insts.filter (fun i => i.ctx = c && i.half = half && i.waitStash)).length
  | 0x20 => at' x.spillBytes half 0 % 2 ^ 32
  | 0x24 => at' x.spillBytes half 0 / 2 ^ 32 % 2 ^ 32
  | 0x28 =>
    flag ((x.older.toList ++ x.newer.toList).any (fun s => s.spill.any (fun b => halfOf b = half))) 0
    + flag x.recompute 1 + flag x.exhausted 2
  | _ => 0

/-- ONS_CTX words (R302). -/
def Dev.onsWord (d : Dev) (c o : Nat) : Nat :=
  let x := d.ctx c
  let mine := d.insts.filter (fun i => i.ctx = c && !i.newer)
  match o with
  | 0x04 =>
    (match x.older with
      | some s => field s.state 3 0 + field s.replays 3 3 + field s.p.schedule 2 6 + flag s.voted 10
          + field s.p.graph 6 12 + field s.gen 8 18
      | none => field x.gen 8 18)
    + (match x.newer with | some s => flag (s.state = 1) 8 + flag (s.state = 2) 9 | none => 0)
  | 0x08 => x.stepCnt % 2 ^ 32
  | 0x0C => x.lastStatus.toNat
  | 0x10 => (mine.filter (fun i => i.state ≠ 0)).length
  | 0x14 => (mine.filter (fun i => i.state = 0)).length
  | 0x18 => sat32 x.late
  | 0x1C => sat32 (ceilDiv x.xcCopyBytes 64)
  | 0x20 => x.startBell % 2 ^ 32
  | 0x24 => x.startBell / 2 ^ 32 % 65536
  | 0x28 => x.commitBell % 2 ^ 32
  | 0x2C => x.commitBell / 2 ^ 32 % 65536
  | 0x30 => x.cause
  | _ => 0

/-- A plane direction of a half's torus has one of its two ports left (R306, R369). -/
def Dev.planeThin (d : Dev) : Bool :=
  (List.range 16).any (fun k =>
    let p := k / 8 * 24 + k % 8 * 2
    ((d.port p).state = 3) != ((d.port (p + 1)).state = 3))

/-- FAB words at 0x0900_0000 (R336). -/
def Dev.fabWord (d : Dev) (half o : Nat) : Nat :=
  let f := d.fab
  match o with
  | 0x00 =>
    let lg := (List.range 8).find? (fun c => (d.ctx c).bound)
    field f.phys 14 0 + flag (half = 1) 14
    + (match lg with | some c => field (d.ctx c).logical 14 16 + flag true 30 | none => 0)
  | 0x04 => field f.state 3 0 + flag d.planeThin 3
  | 0x08 => (at' f.dims 0 1 - 1) % 16 + (at' f.dims 1 1 - 1) % 16 * 16 + (at' f.dims 2 1 - 1) % 8 * 256
      + (at' f.dims 3 1 - 1) % 8 * 2048
  | 0x0C => min (f.digestTimes.countP (fun t => decide (d.opTime < t + 86400))) 3
  | 0x14 => f.switchBell % 2 ^ 32
  | 0x18 => f.switchBell / 2 ^ 32 % 65536 + flag f.switchPending 16
  | _ => 0

/-- A remap table's word: two 16-bit entries, PHYS and VALID (R309). -/
def remapWord (t : SMap Nat) (ix : Nat) : Nat := t.get 0 (2 * ix) % 32768 + t.get 0 (2 * ix + 1) % 32768 * 65536

/-- FAB_PORT words (R337). -/
def Dev.portWord (d : Dev) (p o : Nat) : Nat :=
  let x := d.port p
  match o with
  | 0x00 => field x.state 2 0 + field x.lambdas.length 4 2 + flag x.hbOk 6 + field x.peer 14 8 + flag (x.peerHalf = 1) 22
  | 0x0C => x.delay % 2 ^ 32
  | _ => 0

/-- FAB_CTX words (R338). -/
def Ctx.fabWord (x : Ctx) (o : Nat) : Nat :=
  match o with
  | 0x04 => x.job % 2 ^ 32
  | 0x08 => sat32 x.collLate
  | 0x0C => x.lateDev % 16384
  | 0x10 => sat32 x.digestFails
  | _ => 0

/-- FAB_RELIEF words (R359). -/
def Ctx.reliefWord (x : Ctx) (o : Nat) : Nat :=
  let r := x.relief
  match o with
  | 0x00 => field r.state 3 0 + field r.position 3 3 + field (r.n - 1) 3 6 + flag r.lead 9 + flag r.upkeep 10
      + flag r.waits 11
  | 0x04 => r.epoch % 2 ^ 32
  | 0x08 => field (at' r.units 0 0) 16 0 + field (at' r.units 2 0) 16 16
  | 0x0C => match r.subject with | some l => l % 16384 + 16384 | none => 0
  | 0x10 => match r.spare with | some p => p % 16384 + 16384 | none => 0
  | 0x14 => sat32 r.count
  | _ => 0

/-- BEL words (R339). -/
def Dev.belWord (d : Dev) (o : Nat) : Nat :=
  let f := d.fab
  match o with
  | 0x00 => d.bell % 2 ^ 32
  | 0x08 => flag f.locked 0 + flag f.holdover 1 + flag f.timekeeper 2 + flag f.secondary 3 + field f.hops 8 8
  | 0x0C => f.period
  | 0x10 => f.phase
  | _ => 0

/-- HLT words (R384). -/
def Dev.hltWord (d : Dev) (o : Nat) : Nat :=
  let h := d.health
  match o with
  | 0x00 => flag (h.cause ≠ 0) 0 + flag h.failed 1 + flag (h.canaries.any (fun c => c.state = 3)) 2
      + field h.mapped.length 8 8 + field h.withdrawn.length 8 16
  | 0x04 => h.cause
  | 0x0C => h.lastCanary * (if h.lastCanary = 0xFFFF then 0 else 1) + field h.lastState 3 16 + flag (h.lastCanary ≠ 0xFFFF) 19
  | 0x10 => h.nextSlot % 2 ^ 32
  | 0x14 => h.nextSlot / 2 ^ 32 % 65536
  | 0x18 => field (at' h.stashSpare 0 0) 7 0 + field (at' h.stashSpare 1 0) 7 16
  | 0x1C => min (h.hbmRetired.filter (fun e => halfOf (e * 2 ^ 21) = 0)).length 65535
      + min (h.hbmRetired.filter (fun e => halfOf (e * 2 ^ 21) = 1)).length 65535 * 65536
  | 0x20 => (at' h.sticky 0 0).toNat
      + flag ((List.range 3).any (fun i => at' h.sticky (i + 1) 0 ≠ 0)) 31
  | 0x24 => (at' h.sticky 1 0).toNat
  | 0x28 => (at' h.sticky 2 0).toNat
  | 0x2C => (at' h.sticky 3 0).toNat
  | _ => 0

/-- The fixed cooling class is A. -/
def Dev.isClassA (d : Dev) : Bool := d.pwr.cls = some 2

/-- A flags word of a record (R374). -/
def Record.flags (r : Record) : Nat :=
  r.severity % 4 + flag r.permanent 2 + flag r.suspect 3 + flag r.snapShed 4 + flag r.noMirror 5 + flag r.east 6
  + field r.snap.length 5 8

/-- The sequence word of a complete record (R377). -/
def Record.seq (r : Record) : Nat :=
  match r.slot with
  | some k => r.epoch % 32768 * 131072 + (2 * k + 2)
  | none => 0

/-- The 128 bytes of a record (R374). -/
def Record.bytes (r : Record) : List Byte :=
  leBytes 4 r.seq ++ leBytes 2 r.type ++ leBytes 2 r.unit ++ leBytes 8 r.bell ++ leBytes 4 r.opTime
  ++ leBytes 4 r.cycles ++ leBytes 2 r.temp ++ leBytes 2 r.volts ++ leBytes 4 r.opcode.toNat
  ++ leBytes 8 r.addr.toNat ++ leBytes 4 (match r.ctx with | some c => c % 8 + 8 | none => 0)
  ++ leBytes 2 r.status.toNat ++ leBytes 2 r.flags
  ++ ((List.range 16).flatMap (fun i => leBytes 4 (at' r.snap i 0).toNat)) ++ leBytes 16 0

/-- A word of the pit log's window: record k lies 128 × k from its start (R377). -/
def PitLog.word (l : PitLog) (o : Nat) : Nat :=
  let n := l.records.length
  if o / 128 < n then
    match l.records[n - 1 - o / 128]? with | some r => leValue ((r.bytes.drop (o % 128)).take 4) | none => 0
  else 0

/-- LOG words (R385). MIRROR_OK says that the other hub's copy is current. -/
def Dev.logWord (d : Dev) (o : Nat) : Nat :=
  let n := d.log.records.length
  match o with
  | 0x00 => flag (32768 ≤ n) 0 + flag (32512 ≤ n) 1 + flag (!d.isClassA && d.halfOn 0 && d.halfOn 1) 2
  | 0x04 => n
  | 0x08 => d.log.epoch
  | 0x0C => sat32 d.log.dropped
  | _ => 0

/-- The state of a service as HFM_SVC_STATE shows it: one that runs has shed work from the level on that sheds it (R417,
log entry 33). -/
def Firmware.svcState (f : Firmware) (p : Nat) : Nat :=
  let from' := if p = 8 then 1 else if p = 6 then 2 else if p = 5 then 3 else 4
  if at' f.svc p 0 = 0 ∧ from' ≤ f.shed then 2 else at' f.svc p 0

/-- HFM words of a half's complex (R431); a complex that is not in control shows its status only. -/
def Dev.hfmWord (d : Dev) (half o : Nat) : Nat :=
  let f := d.fw
  let x := at' f.complexes half {}
  match o with
  | 0x00 => flag x.active 0 + flag x.standby 1 + flag (x.restarting ≠ 0) 2 + flag x.tookOver 3 + flag x.out 4
      + (if x.active then field f.shed 2 5 + flag f.paused 7 else 0)
      + field ((List.range 4).map (fun c => flag (x.cores.contains c) c)).sum 4 8
  | _ => if !x.active then 0 else
  match o with
  | 0x04 => min (at' f.restarts 0 0) 255 + min (at' f.restarts 1 0) 255 * 256 + min (at' f.restarts 2 0) 255 * 65536
      + min (f.restartTimes.filter (fun t => decide (d.opTime ≤ t + 60))).length 3 * 2 ^ 24
  | 0x08 => f.lastRestart % 2 ^ 32
  | 0x0C => f.lastRestart / 2 ^ 32 % 65536
  | 0x10 => ((List.range 9).map (fun p => field (f.svcState p) 2 (2 * p))).sum
  | 0x14 => min f.mbxLat 0xFFFFF
  | 0x18 => sat32 f.absentMax
  | _ => 0

/-- The sources of a half with a pending bit. -/
def Dev.pendingSources (d : Dev) (half : Nat) : Nat :=
  (d.sources.filter (fun p => p.2.pending && p.1 / 4096 = half)).length

/-- DBC words at 0x0F00_0000 (R449). -/
def Dev.dbcWord (d : Dev) (half o : Nat) : Nat :=
  match o with
  | 0x18 => min (d.pendingSources half) 0xFFF + flag (d.isSuspect (hubUnit half 5)) 12
  | 0x20 | 0x24 => d.rwGet (hubDie half) (0x0F000000 + o) 0
  | _ => 0

/-- DBC_SRC_CFG of a source: its stored routing bits and its state bits (R450). -/
def Dev.srcWord (d : Dev) (half s : Nat) : Nat :=
  let x := d.source (srcKey half s)
  d.rwGet (hubDie half) (0x0F010000 + s * 4) 8 % 4096 + flag x.masked 12 + flag x.pending 13 + flag (!x.active.isEmpty) 14

/-- DBC_TGT_STATE (R451). -/
def Dev.tgtWord (d : Dev) (half t : Nat) : Nat :=
  let x := d.hub (hubKey half t)
  field (match x.stack with | (_, l) :: _ => l | [] => 0) 4 0 + flag (!x.stack.isEmpty) 4
  + flag (d.health.withdrawn.contains (hubKey half t)) 5 + flag x.canary 6 + flag x.holds.isSome 7
  + field x.stack.length 5 8 + field (match x.stack with | (s, _) :: _ => s | [] => 0) 12 13

/-- CFG words (R471); CFG_LAST is kept per half in the plain registers. -/
def Dev.cfgWord (d : Dev) (half o : Nat) : Nat :=
  let f := d.fw
  match o with
  | 0x08 => field f.mode 8 0 + field f.classOverlay 8 8 + flag f.switchTo.isSome 16
  | 0x10 => f.skipped % 2 ^ 32
  | 0x14 | 0x18 | 0x1C => d.rwGet (hubDie half) (0x10000000 + o) 0
  | _ => 0

/-- The value of CFG_COMMIT_STATUS as a hub core reads it (R471). -/
def HubCore.commitWord (x : HubCore) : Nat := x.commitStatus + x.commitCode.toNat * 65536

/-- The engine clock of a class in MHz (R3, R489). -/
def classClock (cls : Nat) : Nat := if cls = 0 then 1900 else if cls = 1 then 1550 else 1000
/-- The power ceiling of a class in W (R3, R489). -/
def classPower (cls : Nat) : Nat := if cls = 0 then 8200 else if cls = 1 then 6400 else 1800

/-- The engine clock in force in a half, in MHz: the limit, or the lowest clock that something which throttles the half
requires (R484). -/
def Dev.halfClock (d : Dev) (half : Nat) : Nat :=
  ((d.pwr.throttling.filter (fun t => (t.1 = 0 && t.2.1 = half) || t.1 = 1 || t.1 = 3)).map (fun t => t.2.2)).foldl min
    (d.committed 16 0x0002000C)

/-- PWR words (R48, R489). -/
def Dev.pwrWord (d : Dev) (o : Nat) : Nat :=
  let p := d.pwr
  let thr (k : Nat) : Bool := p.throttling.any (fun t => t.1 = k)
  match o with
  | 0x00 => ((List.range 30).map (fun n => flag (p.domains.contains n) n)).sum + flag p.isolatedAny 30
  | 0x04 => (p.cls.getD 0) % 4 + field p.coolId 2 2 + field p.sensed 2 4 + flag p.disagree 6 + flag p.fluid 7
      + min p.rise 255 * 256
  | 0x14 => p.input.toNat
  | 0x18 => p.power.toNat
  | 0x1C => p.hottest.toNat
  | 0x20 => flag (thr 0) 0 + flag (thr 1) 1 + flag (thr 2) 2 + flag (thr 3) 3
      + flag (match p.cls with
          | some k => d.committed 16 0x0002000C < classClock k || d.committed 16 0x00020008 < classPower k
          | none => false) 4
      + field (min (d.halfClock 0) (d.halfClock 1)) 12 16
  | _ => 0

/-- FAB_XC words (R35). In Class A the crosscut is unpowered and they read as zero. -/
def Dev.xcWord (d : Dev) (o : Nat) : Nat :=
  let up (dir : Nat) : Nat := ((List.range 32).filter (fun l => (d.xlink dir l).up)).length
  let mapOf (dir : Nat) : Nat := ((List.range 32).map (fun l => flag (d.xlink dir l).up l)).sum
  if d.isClassA then 0 else
  match o with
  | 0x00 => flag d.xc.fenced 0 + flag ((28 ≤ up 0 && up 0 < 32) || (28 ≤ up 1 && up 1 < 32)) 1
      + flag (up 0 < 28 || up 1 < 28) 2 + field (32 - up 0) 6 8 + field (32 - up 1) 6 16
  | 0x04 => mapOf 0
  | 0x08 => mapOf 1
  | _ => 0

/-- The UPD_ENG_STATUS word of a half (R182): an Update Engine is busy while an UPDATE instance of its half
runs. -/
def Dev.engStatus (d : Dev) (half : Nat) : Nat :=
  let busy := d.insts.find? (fun i => i.op = 6 && i.half = half && i.state = 1 && i.started && !i.token.beq 0)
  flag busy.isSome 0 + flag (d.isSuspect (hubUnit half 2)) 1
  + flag (match busy with | some i => i.runs ≠ 0 | none => false) 2
  + field (match busy with | some i => i.token | none => 0) 8 8

/-- The order of place() in R248: due bell, micro-batch, logical address. -/
def StashItem.before (a b : StashItem) : Bool :=
  decide (a.due < b.due) || (a.due = b.due && (decide (a.mb < b.mb) || (a.mb = b.mb && decide (a.base ≤ b.base))))

/-- Insert an item in place() order. -/
def insertItem : List StashItem → StashItem → List StashItem
  | [], x => [x]
  | y :: r, x => if x.before y then x :: y :: r else y :: insertItem r x

/-- How many blocks of each item place() wants in the stash: the first `share` blocks in order (R248). -/
def stashWant : List StashItem → Nat → List (StashItem × Nat)
  | [], _ => []
  | x :: r, share => (x, min x.blocks share) :: stashWant r (share - min x.blocks share)

/-- place(ctx) of R248 in one half: the context's live items in order, with the blocks each should hold there. -/
def Dev.stashPlan (d : Dev) (half c : Nat) : List (StashItem × Nat) :=
  stashWant ((d.items.filter (fun i => i.ctx = c && i.half = half)).foldl insertItem [])
    (d.committed (hubDie half) (0x07000000 + c * 64))

/-- STH_STATUS (R261): the blocks of every context that lie elsewhere than place() puts them. -/
def Dev.sthStatus (d : Dev) (half : Nat) : Nat :=
  let n := ((List.range 8).map (fun c =>
    ((d.stashPlan half c).map (fun p => (p.1.inStash - p.2) + (p.2 - p.1.inStash))).sum)).sum
  flag (0 < n) 0 + flag (d.isSuspect (hubUnit half 7)) 1 + min (ceilDiv n 64) 0xFFFF * 65536

/-- A hub core's draw-port words (R201). -/
def HubCore.tlyWord (x : HubCore) (o : Nat) : Nat :=
  match o with
  | 0x1C => flag x.tlyValid 0 + flag x.tlyBusy 1 + flag x.tlyBad 2 + flag x.tlyNoCtx 3
  | 0x20 => (at' x.tlyOut 0 0).toNat
  | 0x24 => (at' x.tlyOut 1 0).toNat
  | 0x28 => (at' x.tlyOut 2 0).toNat
  | 0x2C => (at' x.tlyOut 3 0).toNat
  | _ => 0

/-- A hub core's KV-port words (R233). -/
def HubCore.kvWord (x : HubCore) (o : Nat) : Nat :=
  match o with
  | 0x1C => flag x.kvBusy 0 + flag x.kvDone 1 + flag x.kvOldFree 2 + x.kvStatus.toNat * 65536
  | 0x20 => x.kvResult.toNat
  | _ => 0

/-- A hub core's task-port words (R303): the token and the task of the instance presented. -/
def Dev.hubPortWord (d : Dev) (half core o : Nat) : Nat :=
  let x := d.hub (hubKey half core)
  match x.holds with
  | none => 0
  | some t =>
    match o with
    | 0x00 => t % 2 ^ 24
    | 0x04 =>
      match d.insts.find? (fun i => i.op = 9 && i.token = t && i.started && i.state = 1) with
      | some i => i.task % 65536 + i.mb % 256 * 65536 + i.ctx % 8 * 2 ^ 24
      | none => 0
    | _ => 0

/-- Plain registers whose stored value is what a read returns, with their reset value and writable bits: the
draw port (R201), the KV port (R233), the thresholds (R451), the vector bases (R452), the bell latches (R339). -/
def plainReg (off : Nat) : Option (Nat × Nat) :=
  if 0x04010000 ≤ off ∧ off < 0x04010C00 then
    if off % 64 < 0x18 then some (0, 0xFFFFFFFF) else none
  else if 0x05010000 ≤ off ∧ off < 0x05010C00 then
    match off % 64 with
    | 0x00 | 0x08 | 0x0C | 0x10 | 0x14 => some (0, 0xFFFFFFFF)
    | 0x04 => some (0, 0xFFFFF)
    | 0x24 => some (0, 0x1FFF)
    | _ => none
  else if 0x0F020000 ≤ off ∧ off < 0x0F020340 then
    if off % 16 = 4 then some (0, 0xF) else none
  else if 0x0F030000 ≤ off ∧ off < 0x0F030080 then
    match off % 16 with
    | 0x00 => some (0, loMask 6)
    | 0x04 => some (0, 0xFFFFF)
    | _ => none
  else none

/-- The word of a hub die's register at an offset, apart from the staged and the RC registers. -/
def Dev.hubView (d : Dev) (half off : Nat) : Nat :=
  let die := hubDie half
  match plainReg off with
  | some (r, _) => d.rwGet die off r
  | none =>
  if off < 0x00020100 then if half = 0 ∧ 0x00020000 ≤ off then d.pwrWord (off - 0x00020000) else 0
  else if 0x00030000 ≤ off ∧ off < 0x00030020 then d.xcWord (off - 0x00030000)
  else if 0x02000000 ≤ off ∧ off < 0x02100000 then
    (d.slot (slotKey half ((off - 0x02000000) / 256))).word (off % 256)
  else if 0x02100000 ≤ off ∧ off < 0x02100100 then (d.ctx ((off - 0x02100000) / 32)).scnWord (off % 32)
  else if 0x03000000 ≤ off ∧ off < 0x03000200 then (d.ctx ((off - 0x03000000) / 64)).updWord (off % 64)
  else if off = 0x03001000 then d.engStatus half
  else if 0x04000000 ≤ off ∧ off < 0x04000100 then d.tlyWord ((off - 0x04000000) / 32) (off % 32)
  else if 0x04010000 ≤ off ∧ off < 0x04010C00 then (d.hub (hubKey half ((off - 0x04010000) / 64))).tlyWord (off % 64)
  else if 0x05000000 ≤ off ∧ off < 0x05004000 then d.poolWord half ((off - 0x05000000) / 64) (off % 64)
  else if 0x05010000 ≤ off ∧ off < 0x05010C00 then (d.hub (hubKey half ((off - 0x05010000) / 64))).kvWord (off % 64)
  else if 0x06000000 ≤ off ∧ off < 0x06000200 then d.memWord half ((off - 0x06000000) / 64) (off % 64)
  else if 0x07000000 ≤ off ∧ off < 0x07000200 then d.sthWord half ((off - 0x07000000) / 64) (off % 64)
  else if off = 0x07001000 then d.sthStatus half
  else if 0x08000000 ≤ off ∧ off < 0x08000200 then d.onsWord ((off - 0x08000000) / 64) (off % 64)
  else if 0x08010000 ≤ off ∧ off < 0x08010300 then d.hubPortWord half ((off - 0x08010000) / 16) (off % 16)
  else if 0x09000000 ≤ off ∧ off < 0x09000020 then d.fabWord half (off - 0x09000000)
  else if 0x09001000 ≤ off ∧ off < 0x09001300 then d.portWord (half * 24 + (off - 0x09001000) / 32) (off % 32)
  else if 0x09010000 ≤ off ∧ off < 0x09018000 then remapWord d.fab.remap ((off - 0x09010000) / 4)
  else if 0x09020000 ≤ off ∧ off < 0x09028000 then remapWord d.fab.remapStaged ((off - 0x09020000) / 4)
  else if 0x09030000 ≤ off ∧ off < 0x09030100 then (d.ctx ((off - 0x09030000) / 32)).fabWord (off % 32)
  else if 0x09040000 ≤ off ∧ off < 0x09040100 then (d.ctx ((off - 0x09040000) / 32)).reliefWord (off % 32)
  else if off = 0x0A000004 ∨ off = 0x0A000014 then d.rwGet die off 0
  else if 0x0A000000 ≤ off ∧ off < 0x0A000020 then d.belWord (off - 0x0A000000)
  else if 0x0B000000 ≤ off ∧ off < 0x0B000040 then d.hltWord (off - 0x0B000000)
  else if 0x0C000000 ≤ off ∧ off < 0x0C000010 then d.logWord (off - 0x0C000000)
  else if 0x0D000000 ≤ off ∧ off < 0x0D400000 then d.log.word (off - 0x0D000000)
  else if 0x0E000000 ≤ off ∧ off < 0x0E000040 then d.hfmWord half (off - 0x0E000000)
  else if 0x0F000000 ≤ off ∧ off < 0x0F000040 then d.dbcWord half (off - 0x0F000000)
  else if 0x0F010000 ≤ off ∧ off < 0x0F014000 then d.srcWord half ((off - 0x0F010000) / 4)
  else if 0x0F020000 ≤ off ∧ off < 0x0F020340 then
    if off % 16 = 0 then d.tgtWord half ((off - 0x0F020000) / 16) else 0
  else if 0x0F030000 ≤ off ∧ off < 0x0F030080 then
    if off % 16 = 8 then 256 + 480 * ((off - 0x0F030000) / 16) else 0
  else if 0x10000000 ≤ off ∧ off < 0x10000040 then d.cfgWord half (off - 0x10000000)
  else 0

/-- The RC registers of control space (R9). -/
def isRc (die off : Nat) : Bool :=
  if die < 16 then
    if 0x01000000 ≤ off && off < 0x01400000 then
      let sub := off / 0x1000 % 16
      let o := off % 0x1000
      if off / 0x10000 % 16 = 15 then sub = 7 && (o = 4 || o = 8 || o = 0xC)
      else
        match sub with
        | 1 => o = 4 || o = 8 || o = 0xC
        | 2 | 3 => o = 4 || o = 8 || o = 0xC || o = 0x18
        | 6 => o = 4
        | _ => false
    else false
  else if die = 16 || die = 17 then
    off = 0x03001004 || off = 0x03001008 || off = 0x09000010 || off = 0x0A000018 || off = 0x0F00001C
    || (0x09001000 ≤ off && off < 0x09001300 && (off % 32 = 4 || off % 32 = 8))
    || (die = 16 && (off = 0x0003000C || off = 0x00030010 || off = 0x00020024))
  else die = 64 && off = 0x48

/-- ATN_STATUS of a cluster (R231). -/
def Dev.atnStatus (d : Dev) (die cluster : Nat) : Nat :=
  let act := (List.range 9).flatMap (fun n => (d.core (coreKey die cluster n)).act.filterMap id)
  flag (act.any (·.bound)) 0 + flag (d.isSuspect (coreUnit die cluster 15 7)) 1 + flag (act.any (·.stats)) 2
  + flag (act.any (fun s => s.stats && s.refold)) 3

/-- A compute die's register word, apart from the RC registers. -/
def Dev.computeView (d : Dev) (die off : Nat) : Nat :=
  if 0x01000000 ≤ off ∧ off < 0x01400000 then
    let cluster := (off - 0x01000000) / 0x00100000
    let core := off / 0x10000 % 16
    let sub := off / 0x1000 % 16
    let o := off % 0x1000
    if core = 15 then
      if sub = 7 ∧ o = 0 then d.atnStatus die cluster else 0
    else if 8 < core then 0
    else
      match sub with
      | 1 => d.engWord die cluster core 0 o
      | 2 => d.engWord die cluster core 1 o
      | 3 => d.engWord die cluster core 2 o
      | 6 => d.corrWord die cluster core o
      | _ => 0
  else 0

/-- A read of a control-space register without side effect: zero on a die that is off (R378) and at an offset
that no rule lists (R8). -/
def Dev.readReg (d : Dev) (die off : Nat) : Nat :=
  if !d.dieOn die then 0
  else if 0x80000000 ≤ off then
    let o := off - 0x80000000
    match rwsReg die o with
    | some _ => d.committed die o
    | none => if die = 17 && westOnly o && o ≠ 0x1000000C && 0x00030000 ≤ o
        then (if (rwsReg 16 o).isSome then d.committed 16 o else 0) else 0
  else if isRc die off then d.rcGet die off
  else
    match rwsReg die off with
    | some _ => d.staged die off
    | none =>
      if die = 16 then d.hubView 0 off
      else if die = 17 then
        if off = 0x1000000C ∨ off < 0x00030000 then 0
        else if westOnly off then
          if (rwsReg 16 off).isSome then d.staged 16 off
          else if isRc 16 off then d.rcGet 16 off
          else d.hubView 0 off
        else d.hubView 1 off
      else if die < 16 then d.computeView die off
      else 0

end Sys2Proof.Machine
end

