-- ==== Sys2Proof/Machine/Log.lean ====
section
/-! DEFINITION. Records, the pit log and their deliveries, sticky bits, and the marking of suspect units. -/

namespace Sys2Proof.Machine

/-- Set sticky bit `n` of HLT_STICKY0 to 3 taken as one 128-bit word (R373). -/
def Dev.stick (d : Dev) (n : Nat) : Dev :=
  let w := at' d.health.sticky (n / 32) 0
  { d with health := { d.health with sticky := setAt d.health.sticky (n / 32) (w ||| word (2 ^ (n % 32))) } }

/-- The half whose complex is in control (R414); East only after a hand-over. -/
def Dev.fwHalf (d : Dev) : Nat := if (at' d.fw.complexes 1 {}).active then 1 else 0

/-! ## Snapshots (R378) -/

/-- A unit's register block under R107, where it has one. -/
def unitBlock (u : Nat) : Option Nat :=
  if unitDie u < 16 ∧ (unitCore u < 9 ∨ unitCore u = 15) ∧ unitSub u < 9 then
    some (coreBlock (unitCluster u) (unitCore u) (unitSub u))
  else none

/-- One snapshot word: list entry (lo, hi) of LOG_SNAP read for a record of unit u and a context. -/
def Dev.snapWord (d : Dev) (lo hi u : Nat) (ctx : Option Nat) : Word :=
  let die := if bits hi 5 0 = 63 then unitDie u else bits hi 5 0
  let base? := if bit hi 6 then unitBlock u else some 0
  let stride := bits hi 15 8
  match base? with
  | none => 0
  | some b =>
    if stride = 0 then word (d.readReg die (b + lo))
    else match ctx with
      | some c => word (d.readReg die (b + lo + c * stride * 16))
      | none => 0

/-- The configured snapshot words of a record type: the valid entries of its committed list, in entry order. -/
def Dev.snapList (d : Dev) (type u : Nat) (ctx : Option Nat) : List Word :=
  let die := hubDie d.fwHalf
  (List.range 16).filterMap (fun i =>
    let o := 0x0C001000 + type * 128 + i * 8
    let hi := d.com die (o + 4) 0
    if bit hi 31 then some (d.snapWord (d.com die o 0) hi u ctx) else none)

/-! ## Records (R374 to R380) -/

/-- A record goes into the pit log (R379). -/
def PitLog.takes (l : PitLog) (r : Record) : Bool :=
  let n := l.records.length
  n < 32512 || (n < 32768 && (r.severity = 3 || r.type = Rt.health || r.type = Rt.relief))

/-- Write a record into the pit log, or count it as dropped (R377, R379). -/
def PitLog.append (l : PitLog) (r : Record) : PitLog :=
  if l.takes r then
    { l with records := { r with slot := some l.records.length, epoch := l.epoch } :: l.records }
  else { l with dropped := l.dropped + 1 }

/-- Queue a record for the host, or count it as lost (R399). -/
def EvtRing.enqueue (e : EvtRing) (r : Record) : EvtRing :=
  if e.queue.length < 16384 then { e with queue := e.queue ++ [r] }
  else { e with dropped := e.dropped + 1, unreported := e.unreported + 1 }

/-- Queue a record on a Redfish subscription; a full queue drops its oldest event (R428). -/
def Subscription.enqueue (q : Subscription) (r : Record) : Subscription :=
  if q.queue.length < 4096 then { q with queue := q.queue ++ [r] }
  else { q with queue := q.queue.drop 1 ++ [r], dropped := q.dropped + 1 }

/-- What a governing rule names of a record; the rest follows from the device. -/
structure Ev where
  type : Nat
  unit : Nat := 0xFFFF
  status : Status := 0
  opcode : Nat := 0
  addr : Nat := 0
  ctx : Option Nat := none
  fixed : List Word := []
deriving DecidableEq, Repr

/-- The record of an event as the device fills it in (R374, R378, R417). -/
def Dev.mkRecord (d : Dev) (e : Ev) : Record :=
  let sev := Config.severity e.type e.status.toNat % 4
  let shed := 2 ≤ d.fw.shed && sev ≤ 1
  let u := (d.hist e.unit).state
  { type := e.type, unit := e.unit, bell := d.bell, opTime := d.opTime, cycles := d.cycles,
    temp := Config.temp d.free % 65536, volts := Config.volts d.free % 65536,
    opcode := word e.opcode, addr := BitVec.ofNat 64 e.addr, ctx := e.ctx, status := e.status, severity := sev,
    permanent := 2 ≤ u, suspect := u = 1, snapShed := shed,
    noMirror := !d.isClassA && !(d.halfOn 0 && d.halfOn 1),
    east := d.fwHalf = 1,
    snap := (e.fixed ++ (if shed then [] else d.snapList e.type e.unit e.ctx)).take 16 }

/-- Deliver a record to the pit log, to the host's queue and to the management queues (R377 to R380). -/
def Dev.deliver (d : Dev) (r : Record) : Dev :=
  let log := d.log.append r
  let r := { r with slot := if d.log.takes r then some d.log.records.length else none, epoch := d.log.epoch }
  let least := bits (d.committed 16 0x0B000008) 20 19
  { d with
    log := log
    host := { d.host with evt := d.host.evt.enqueue r }
    fw := { d.fw with subs := if least ≤ r.severity then d.fw.subs.map (·.enqueue r) else d.fw.subs } }

/-- Write the record of an event (R377); filling slot 32,511 sets LOG_NEAR_FULL, filling slot 32,767 sets
LOG_FULL and is itself an event (R379, R383). -/
def Dev.record (d : Dev) (e : Ev) : Dev :=
  let n := d.log.records.length
  let d1 := (d.deliver (d.mkRecord e)).drawn
  let m := d1.log.records.length
  if n = m then d1
  else if m = 32512 then d1.stick Sticky.logNearFull
  else if m = 32768 then
    let d2 := d1.stick Sticky.logFull
    (d2.deliver (d2.mkRecord { type := Rt.health, status := St.logFull })).drawn
  else d1

/-- The 128 bytes of a unit's history entry (R365). -/
def Hist.bytes (h : Hist) (u : Nat) : List Byte :=
  let t (o : Option Nat) : Nat := o.getD 0xFFFFFFFF
  leBytes 2 u ++ leBytes 1 h.state ++ leBytes 1 (if h.held then 1 else 0) ++ leBytes 4 (sat32 h.corrected)
  ++ leBytes 4 (sat32 h.uncorrected) ++ leBytes 4 (sat32 h.checks) ++ leBytes 4 (h.firstOp.getD 0)
  ++ leBytes 4 h.lastOp ++ leBytes 2 (min h.canaryPass 65535) ++ leBytes 2 (min h.canaryFail 65535)
  ++ leBytes 4 h.suspectOp ++ leBytes 8 h.goodBell ++ leBytes 8 h.canaryBell ++ leBytes 4 h.goodOp ++ leBytes 12 0
  ++ ((List.range 4).flatMap (fun i =>
      match h.locs[i]? with
      | some l => leBytes 8 l.key ++ leBytes 4 (t l.tA) ++ leBytes 4 (t l.tB)
      | none => leBytes 8 0 ++ leBytes 4 0xFFFFFFFF ++ leBytes 4 0xFFFFFFFF))

/-! ## Suspect units and the device's state (R366, R369) -/

/-- A unit enters SUSPECT; a unit that is not OK takes no further mark (R366). -/
def Dev.markSuspect (d : Dev) (u : Nat) : Dev :=
  let h := d.hist u
  if h.state = 0 then
    (d.setHist u { h with state := 1, suspectOp := d.opTime, watchOp := d.opTime }).record
      { type := Rt.health, unit := u, status := St.unitSuspect }
  else d

/-- A cluster of a powered compute die runs fewer than 8 cores. -/
def Dev.clusterThin (d : Dev) : Bool :=
  (List.range 16).any (fun die => d.dieOn die && (List.range 4).any (fun k => d.activeSlots die k < 8))

/-- The links in service of a crosscut direction. -/
def Dev.xcLinks (d : Dev) (dir : Nat) : Nat := ((List.range 32).filter (fun l => (d.xlink dir l).up)).length

/-- The causes of R369 that hold, as the bits of HLT_CAUSE; none before the device has powered up. -/
def Dev.causes (d : Dev) : Nat :=
  if d.pwr.phase ≠ 4 then 0 else
  flag d.clusterThin 0
  + flag (!d.isClassA && (d.xcLinks 0 < 32 || d.xcLinks 1 < 32)) 1
  + flag d.planeThin 2
  + flag (!d.health.withdrawn.isEmpty) 3
  + flag ((List.range 2).any (fun h => 64 ≤ (d.health.hbmRetired.filter (fun e => halfOf (e * 2 ^ 21) = h)).length)) 4
  + flag ((List.range 2).any (fun h => at' d.health.stashSpare h 0 < 16)) 5
  + flag (!d.isClassA && 5 ≤ d.host.state && !(d.fw.complexes.any (·.standby))) 6

/-- Bring HLT_CAUSE up to date: becoming degraded, and each cause added, is a change of state and writes a
HEALTH record with status DEVICE_DEGRADED (R369, R383). -/
def Dev.refreshHealth (d : Dev) : Dev :=
  let new := d.causes
  let old := d.health.cause
  let d1 := { d with health := { d.health with cause := new } }
  if Nat.land new old = new then d1
  else (if old = 0 then d1.stick Sticky.degraded else d1).record { type := Rt.health, status := St.deviceDegraded }

/-- A check failure: its record, its sticky bit (R92, R122, R361, R373). -/
def Dev.checkRecord (d : Dev) (u : Nat) (ctx : Option Nat) (addr : Nat) : Dev :=
  (d.stick Sticky.check).record { type := Rt.check, unit := u, status := St.checkMismatch, ctx := ctx, addr := addr }

end Sys2Proof.Machine
end

