-- ==== Sys2Proof/Machine/HostLink.lean ====
section
/-! DEFINITION. What the host link's events do: MSI-X vectors, the host state, orphaning and the reset of the host interface
(R388, R394, R400, R407). -/

namespace Sys2Proof.Machine

/-- The key of the pending-bit word in the MSI-X map; keys 0 to 63 are the table's words. -/
def pbaKey : Nat := 64

/-- An MSI-X vector fires, or becomes pending while its mask bit is set (R400, log entry 9); nothing
crosses a link that is down. -/
def Dev.fire (d : Dev) (v : Nat) : Dev :=
  if !d.host.linkUp then d
  else if bit (d.host.msix.get 0 (4 * v + 3)).toNat 0 then
    { d with host := { d.host with msix := d.host.msix.put 0 pbaKey (d.host.msix.get 0 pbaKey ||| word (2 ^ v)) } }
  else d.emit (.msix v)

/-- The device enters a host state; a change fires vector 1. -/
def Dev.hostState (d : Dev) (n : Nat) : Dev :=
  if d.host.state = n then d else Dev.fire { d with host := { d.host with state := n } } 1

/-- A context is orphaned. -/
def Dev.orphanCtx (d : Dev) (c : Nat) : Dev :=
  if (d.ctx c).isOpen then d.updCtx c (fun x => { x with orphaned := true, owner := none }) else d

/-- HIF_ORPHAN takes a cause and the grace starts. -/
def Dev.startGrace (d : Dev) (cause : Nat) : Dev :=
  Dev.fire { d with host := { d.host with orphanCause := cause, orphanUs := d.host.grace * 1000000 } } 1

/-- Every session and every context is orphaned; while the device is ORPHANED already, the cause found first stands (R407,
R410). -/
def Dev.orphanAll (d : Dev) (cause : Nat) : Dev :=
  if d.host.state < 5 ∨ d.host.state = 7 then d
  else
    let d1 := upto 4 (fun s d =>
      let r := d.ring s
      d.setRing s { r with enabled := false, session := false, cmdHead := r.cmdTail.toNat, queue := [] }) d
    let d2 := upto 8 (fun c d => d.orphanCtx c) d1
    let d3 : Dev := { d2 with host := { d2.host with
      inflight := d2.host.inflight.map (fun (x : Inflight) => { x with discard := true }) } }
    (((d3.startGrace cause).hostState 7).stick Sticky.orphaned).record { type := Rt.host, status := St.orphaned }

/-- The host interface's registers, ring sets, MSI-X and window back at their reset values (R388); what the event queue
holds stays. -/
def HostIf.clear (h : HostIf) : HostIf :=
  { h with loadCtl := 0, imgBytes := 0, cfgBytes := 0, heartbeat := 0, winBaseLo := 0, winBaseHi := 0, winCtl := 0,
           rings := [], msix := [], evt := { queue := h.evt.queue, dropped := h.evt.dropped, unreported := h.evt.unreported } }

/-- A link event: the interface is reset, the sessions are orphaned, and LOADING falls back to UNLOADED with the staged
image discarded (R388, R394). -/
def Dev.linkEvent (d : Dev) (cause : Nat) : Dev :=
  let d1 := d.orphanAll cause
  let d2 : Dev := { d1 with host := d1.host.clear }
  if d2.host.state = 1 then Dev.hostState { d2 with host := { d2.host with staging := [] } } 0 else d2

/-- The host link goes down (R38, R388). -/
def Dev.linkLost (d : Dev) : Dev :=
  let d1 := d.linkEvent 2
  { d1 with host := { d1.host with linkUp := false, width := 0 } }

end Sys2Proof.Machine
end

