-- ==== Sys2Proof/Machine/Numerics.lean ====
section
/-! DEFINITION. Exact numbers, the element formats, rounding and conversion (chapter 02), and the correctly
rounded FP32 operations. -/

namespace Sys2Proof.Machine

/-! ## Exact extended numbers -/

/-- A value that a stored element or an exact computation stands for: NaN, an infinity, or a sign with an exact
magnitude (R59, R66, R74). -/
inductive Num where
  | nan
  | inf (neg : Bool)
  | fin (neg : Bool) (mag : Rat)
deriving DecidableEq, Repr

/-- Positive zero. -/
def Num.zero : Num := .fin false 0
/-- An exact rational as a number; zero is positive. -/
def Num.ofRat (r : Rat) : Num := if r < 0 then .fin true (-r) else .fin false r
/-- The signed rational of a finite number, zero for the others. -/
def Num.toRat : Num → Rat
  | .fin n m => if n then -m else m
  | _ => 0
/-- A finite number. -/
def Num.isFin : Num → Bool
  | .fin _ _ => true
  | _ => false
/-- Not a finite number. -/
def Num.nonfinite (x : Num) : Bool := !x.isFin
/-- A number's sign bit. -/
def Num.isNeg : Num → Bool
  | .nan => false
  | .inf n => n
  | .fin n _ => n
/-- The negation. -/
def Num.neg : Num → Num
  | .nan => .nan
  | .inf n => .inf (!n)
  | .fin n m => .fin (!n) m
/-- The magnitude. -/
def Num.abs : Num → Num
  | .nan => .nan
  | .inf _ => .inf false
  | .fin _ m => .fin false m

/-- The exact sum (R74, R84): a sum of +0 and −0 is +0. -/
def Num.add : Num → Num → Num
  | .nan, _ => .nan
  | _, .nan => .nan
  | .inf a, .inf b => if a = b then .inf a else .nan
  | .inf a, .fin _ _ => .inf a
  | .fin _ _, .inf b => .inf b
  | .fin a x, .fin b y =>
    let r := (if a then -x else x) + (if b then -y else y)
    if r = 0 then .fin (a && b && decide (x = 0)) 0 else .ofRat r

/-- The exact product (R74). -/
def Num.mul : Num → Num → Num
  | .nan, _ => .nan
  | _, .nan => .nan
  | .inf a, .inf b => .inf (a != b)
  | .inf a, .fin b y => if y = 0 then .nan else .inf (a != b)
  | .fin a x, .inf b => if x = 0 then .nan else .inf (a != b)
  | .fin a x, .fin b y => .fin (a != b) (x * y)

/-- The exact quotient (R74). -/
def Num.div : Num → Num → Num
  | .nan, _ => .nan
  | _, .nan => .nan
  | .inf _, .inf _ => .nan
  | .inf a, .fin b _ => .inf (a != b)
  | .fin a _, .inf b => .fin (a != b) 0
  | .fin a x, .fin b y =>
    if y = 0 then (if x = 0 then .nan else .inf (a != b)) else .fin (a != b) (x / y)

/-- The exact sum of a list; an empty one is +0. -/
def Num.sum : List Num → Num
  | [] => .zero
  | [x] => x
  | x :: r => x.add (Num.sum r)

/-- 2 to an integer power. -/
def pow2 (e : Int) : Rat := if 0 ≤ e then mkRat (2 ^ e.toNat) 1 else mkRat 1 (2 ^ (-e).toNat)

/-- The floor of the binary logarithm of a positive rational. -/
def floorLog2 (a : Rat) : Int :=
  let k : Int := (Nat.log2 a.num.natAbs : Int) - (Nat.log2 a.den : Int)
  if pow2 k ≤ a then k else k - 1

/-- The integer multiple of a step nearest to a ≥ 0, ties to the even multiple (round_step of R77, R64). -/
def roundStep (a step : Rat) : Nat :=
  let q := a / step
  let n := q.floor.toNat
  let r := q - (n : Rat)
  if 1 / 2 < r ∨ (r = 1 / 2 ∧ n % 2 = 1) then n + 1 else n

/-! ## Element formats (R49 to R54) -/

/-- The constants of a floating element format (R49, R52). -/
structure FloatFmt where
  ebits : Nat
  f : Nat
  bias : Int
  emin : Int
  emax : Int
  maxf : Rat
  hasInf : Bool
  nan : Option Nat
deriving DecidableEq, Repr

/-- The floating format of a format code (R12, R49); `nan` is the canonical NaN written (R73). -/
def floatFmt (code : Nat) : Option FloatFmt :=
  match code with
  | 0x01 => some ⟨2, 1, 1, 0, 2, 6, false, none⟩
  | 0x02 => some ⟨2, 3, 1, 0, 2, 15 / 2, false, none⟩
  | 0x03 => some ⟨3, 2, 3, -2, 4, 28, false, none⟩
  | 0x04 => some ⟨4, 3, 7, -6, 8, 448, false, some 0x7F⟩
  | 0x05 => some ⟨5, 2, 15, -14, 15, 57344, true, some 0x7E⟩
  | 0x08 => some ⟨8, 7, 127, -126, 127, (2 - pow2 (-7)) * pow2 127, true, some 0x7FC0⟩
  | 0x09 => some ⟨5, 10, 15, -14, 15, 65504, true, some 0x7E00⟩
  | 0x0A => some ⟨8, 23, 127, -126, 127, (2 - pow2 (-23)) * pow2 127, true, some 0x7FC00000⟩
  | _ => none

/-- Element bits of a format code (R12). -/
def fmtBits (code : Nat) : Nat :=
  match code with
  | 0x01 => 4
  | 0x02 | 0x03 => 6
  | 0x04 | 0x05 | 0x06 | 0x07 => 8
  | 0x08 | 0x09 => 16
  | 0x0A | 0x0B => 32
  | _ => 0

/-- A format code with an E8M0 scale per block (R12). -/
def isMx (code : Nat) : Bool := 1 ≤ code && code ≤ 6
/-- A format code with block scales or block exponents (R55). -/
def isBlocked (code : Nat) : Bool := isMx code || code = 0x0B

/-- A two's complement reading of w bits. -/
def signed (v w : Nat) : Int := if v % 2 ^ w < 2 ^ (w - 1) then (v % 2 ^ w : Nat) else (v % 2 ^ w : Nat) - (2 ^ w : Nat)

/-- The value of the bits of a floating element (R49). -/
def FloatFmt.decode (t : FloatFmt) (v : Nat) : Num :=
  let neg := bit v (t.ebits + t.f)
  let e := bits v (t.ebits + t.f - 1) t.f
  let m := v % 2 ^ t.f
  let top := 2 ^ t.ebits - 1
  if t.hasInf ∧ e = top then (if m = 0 then .inf neg else .nan)
  else if ¬ t.hasInf ∧ t.nan.isSome ∧ e = top ∧ m = 2 ^ t.f - 1 then .nan
  else if e = 0 then .fin neg ((m : Rat) * pow2 (t.emin - t.f))
  else .fin neg (((2 ^ t.f + m : Nat) : Rat) * pow2 ((e : Int) - t.bias - t.f))

/-- The bits of a finite magnitude that the format holds exactly. -/
def FloatFmt.encodeMag (t : FloatFmt) (m : Rat) : Nat :=
  if m = 0 then 0
  else
    let e := floorLog2 m
    if e < t.emin then (m / pow2 (t.emin - t.f)).floor.toNat
    else (e + t.bias).toNat * 2 ^ t.f + ((m / pow2 (e - t.f)).floor.toNat - 2 ^ t.f)

/-- The bits of ±Inf. -/
def FloatFmt.infBits (t : FloatFmt) (neg : Bool) : Nat :=
  (2 ^ t.ebits - 1) * 2 ^ t.f + flag neg (t.ebits + t.f)

/-- Round a magnitude to a floating format, the exponent unbounded above (round_elem of R77). -/
def FloatFmt.round (t : FloatFmt) (a : Rat) : Rat :=
  if a = 0 then 0
  else
    let s := pow2 (max (floorLog2 a) t.emin - t.f)
    (roundStep a s : Rat) * s

/-- The value of a stored element before its scales (R49, R50, R51); for INT8Z without the zero point. -/
def decodeElem (code v : Nat) : Num :=
  match floatFmt code with
  | some t => t.decode v
  | none =>
    match code with
    | 0x06 => .ofRat ((signed v 8 : Rat) * pow2 (-6))
    | 0x07 => .ofRat (signed v 8)
    | 0x0B => .ofRat (signed v 32)
    | _ => .zero

/-- The FP32 format. -/
def fp32 : FloatFmt := ⟨8, 23, 127, -126, 127, (2 - pow2 (-23)) * pow2 127, true, some 0x7FC00000⟩
/-- The BF16 format. -/
def bf16 : FloatFmt := ⟨8, 7, 127, -126, 127, (2 - pow2 (-7)) * pow2 127, true, some 0x7FC0⟩

/-- Round an exact number to a format as arithmetic does: overflow gives ±Inf (R64, R74; to BF16, log entry 56). -/
def FloatFmt.roundNum (t : FloatFmt) : Num → Num
  | .nan => .nan
  | .inf n => .inf n
  | .fin n m => let r := t.round m; if t.maxf < r then .inf n else .fin n r

/-- The bits of a number that the format holds, NaN canonical (R73). -/
def FloatFmt.bitsOf (t : FloatFmt) : Num → Nat
  | .nan => t.nan.getD 0
  | .inf n => t.infBits n
  | .fin n m => t.encodeMag m + flag n (t.ebits + t.f)

/-- round_fp32 (R84). -/
def roundFp32 (x : Num) : Num := fp32.roundNum x
/-- The FP32 number of a word. -/
def fp32Val (w : Word) : Num := fp32.decode w.toNat
/-- The FP32 word of an exact number, rounded once. -/
def fp32Word (x : Num) : Word := word (fp32.bitsOf (roundFp32 x))
/-- A finite FP32 word above zero (R60). -/
def fp32Positive (w : Nat) : Bool :=
  match fp32.decode w with
  | .fin n m => !n && decide (m ≠ 0)
  | _ => false

/-! ## Conversion (R64 to R77) -/

/-- The events of a converter (R72). -/
inductive CEvent where
  | none
  | nonfinite
  | overflow
  | saturation
  | underflow
deriving DecidableEq, Repr

/-- One element as a converter writes it: its bits and its event. -/
structure COut where
  bits : Nat
  ev : CEvent
deriving DecidableEq, Repr

/-- convert_elem of R77 into a floating format or MXINT8, for a finite value. -/
def convertElem (code : Nat) (neg : Bool) (mag : Rat) (infOk : Bool) : COut :=
  match floatFmt code with
  | some t =>
    let m := t.round mag
    if t.maxf < m then
      ⟨if infOk then t.infBits neg else t.encodeMag t.maxf + flag neg (t.ebits + t.f), .overflow⟩
    else
      ⟨t.encodeMag m + flag neg (t.ebits + t.f), if m = 0 ∧ mag ≠ 0 then .underflow else .none⟩
  | none =>
    let n := roundStep mag (pow2 (-6))
    if 127 < n then ⟨if neg then 256 - 127 else 127, .overflow⟩
    else ⟨if neg then (256 - n) % 256 else n, if n = 0 ∧ mag ≠ 0 then .underflow else .none⟩

/-- t.emax of R52. -/
def fmtEmax (code : Nat) : Int := match floatFmt code with | some t => t.emax | none => 0

/-- The rounded largest element exceeds t.maxf (the bump test of R52, R77). -/
def bumps (code : Nat) (a : Rat) : Bool :=
  match floatFmt code with
  | some t => decide (t.maxf < t.round a)
  | none => decide (127 < roundStep a (pow2 (-6)))

/-- Whether a non-finite source makes the whole block NaN (R75). -/
def nanBlock (code : Nat) : Bool := code = 1 || code = 2 || code = 3 || code = 6

/-- The element a converter writes for a non-finite source into an MX format that can hold it (R75). -/
def nonfiniteElem (code : Nat) (x : Num) : Nat :=
  match code, x with
  | 0x05, .inf n => 0x7C + flag n 7
  | 0x05, _ => 0x7E
  | _, _ => 0x7F

/-- The largest finite magnitude of a list. -/
def maxMag : List Num → Rat
  | [] => 0
  | .fin _ m :: r => max m (maxMag r)
  | _ :: r => maxMag r

/-- convert_mx_block of R77: the scale code and the elements. -/
def convertMx (code : Nat) (xs : List Num) (tscale : Num) : Nat × List COut :=
  let ys := xs.map (·.div tscale)
  if nanBlock code && ys.any (·.nonfinite) then
    (0xFF, ys.map (fun y => ⟨0, if y.nonfinite then .nonfinite else .none⟩))
  else
    let a := maxMag ys
    let s : Int :=
      if a = 0 then -127
      else
        let s0 := floorLog2 a - fmtEmax code
        let s1 := if bumps code (a / pow2 s0) then s0 + 1 else s0
        min (max s1 (-127)) 127
    ((s + 127).toNat, ys.map (fun y =>
      match y with
      | .fin n m => convertElem code n (m / pow2 s) false
      | y => ⟨nonfiniteElem code y, .nonfinite⟩))

/-- convert_int8z of R77, with the zero point of the element's channel. -/
def convertInt8z (x tscale : Num) (z : Int) : COut :=
  match x with
  | .nan => ⟨(z % 256).toNat, .nonfinite⟩
  | .inf n => ⟨if n then 128 else 127, .nonfinite⟩
  | .fin _ _ =>
    match x.div tscale with
    | .fin n m =>
      let r : Int := if n then -(roundStep m 1 : Int) else (roundStep m 1 : Int)
      let q := r + z
      if 127 < q then ⟨127, .overflow⟩
      else if q < -128 then ⟨128, .overflow⟩
      else ⟨(q % 256).toNat, if r = 0 ∧ m ≠ 0 then .underflow else .none⟩
    | _ => ⟨0, .none⟩

/-- One mantissa of convert_bfx32_block of R77, for a finite source. -/
def bfxMantissa (x tscale : Num) (e : Int) : Int × CEvent :=
  match x.div tscale with
  | .fin n m =>
    let r := roundStep m (pow2 e)
    if 2 ^ 31 - 1 < r then (if n then -(2 ^ 31 - 1) else 2 ^ 31 - 1, .saturation)
    else (if n then -(r : Int) else r, if r = 0 ∧ m ≠ 0 then .underflow else .none)
  | _ => (0, .nonfinite)

/-- convert_bfx32_block of R77: the block exponent byte and the mantissas. -/
def convertBfx (xs : List Num) (tscale : Num) (e : Int) : Nat × List COut :=
  if xs.any (·.nonfinite) then
    (0x80, xs.map (fun x => ⟨0, if x.nonfinite then .nonfinite else .none⟩))
  else
    ((e % 256).toNat, xs.map (fun x => let r := bfxMantissa x tscale e; ⟨(r.1 % 2 ^ 32).toNat, r.2⟩))

/-- The exponent that a converter outside the collective engine gives a BFX32 block, −127 to 127: a free value (log entry 7:
R71 lets the collective engine choose e, and no rule says who chooses it elsewhere). -/
def bfxExp (xs : List Num) (tscale : Num) : Int := (Config.bfxExponent (xs.map Num.toRat) tscale.toRat % 255 : Nat) - 127

/-- Conversion into BF16, FP16 or FP32 (R75, R77). -/
def convertPlain (code : Nat) (x tscale : Num) (infOk : Bool) : COut :=
  match floatFmt code with
  | none => ⟨0, .none⟩
  | some t =>
    match x with
    | .nan => ⟨t.bitsOf .nan, .nonfinite⟩
    | .inf n => ⟨t.infBits n, .nonfinite⟩
    | .fin _ _ =>
      match x.div tscale with
      | .fin n m => convertElem code n m infOk
      | _ => ⟨0, .none⟩

/-! ## Correctly rounded roots, powers and logarithms of FP32 values -/

/-- The integer square root by bits: the largest r + (a sum of lower bits) whose square is at most n. -/
def isqrtBits (n : Nat) : Nat → Nat → Nat
  | 0, r => r
  | k + 1, r => let t := r + 2 ^ k; isqrtBits n k (if t * t ≤ n then t else r)

/-- The floor of the square root. -/
def isqrt (n : Nat) : Nat := isqrtBits n (Nat.log2 n / 2 + 1) 0

/-- A rational within 2^-200 of the square root of a, above it by less than half a unit where it is not exact,
so that rounding it once gives the correctly rounded root. -/
def sqrtRat (a : Rat) : Rat :=
  let k := 400 + 2 * (Nat.log2 a.den)
  let n := a.num.natAbs * 2 ^ k / a.den
  let r := isqrt n
  let exact : Bool := r * r = n && n * a.den = a.num.natAbs * 2 ^ k
  mkRat (if exact then 2 * r else 2 * r + 1) (2 ^ (k / 2 + 1))

/-- 2 to the power of a fraction in [0, 1), in units of 2^-256, from the fraction's bits most significant
first; `root` is 2 to the power of the bit before, in the same units. -/
def exp2Bits : List Bool → Nat → Nat → Nat
  | [], _, acc => acc
  | b :: r, root, acc =>
    let root' := isqrt (root * 2 ^ 256)
    exp2Bits r root' (if b then acc * root' / 2 ^ 256 else acc)

/-- EXP2 of a finite value: exact at an integer, otherwise a value with no tie, correctly rounded once
rounded; beyond ±200 an overflow or an underflow. -/
def exp2Rat (x : Rat) : Rat :=
  let i := x.floor
  if 200 < i then pow2 200 else if i < -200 then pow2 (-200)
  else
    let fr := x - i
    if fr = 0 then pow2 i
    else
      let v := (fr * pow2 150).floor.toNat
      let bs := (List.range 150).map (fun j => bit v (149 - j))
      mkRat (2 * exp2Bits bs (2 ^ 257) (2 ^ 256) + 1) (2 ^ 257) * pow2 i

/-- The first k bits of log2 of m/2^256 in [1, 2), as an integer. -/
def log2Bits : Nat → Nat → Nat → Nat
  | 0, _, acc => acc
  | k + 1, m, acc =>
    let q := m * m / 2 ^ 256
    if 2 ^ 257 ≤ q then log2Bits k (q / 2) (2 * acc + 1) else log2Bits k q (2 * acc)

/-- LOG2 of a positive value: exact at a power of two, otherwise a value with no tie. -/
def log2Rat (a : Rat) : Rat :=
  let e := floorLog2 a
  let m := a / pow2 e
  if m = 1 then (e : Rat)
  else (e : Rat) + mkRat (2 * log2Bits 110 (m * pow2 256).floor.toNat 0 + 1) (2 ^ 111)

/-- SQRT (R74). -/
def Num.sqrt : Num → Num
  | .nan => .nan
  | .inf n => if n then .nan else .inf false
  | .fin n m => if m = 0 then .fin n 0 else if n then .nan else .fin false (sqrtRat m)

/-- RSQRT (R74). -/
def Num.rsqrt : Num → Num
  | .nan => .nan
  | .inf n => if n then .nan else .zero
  | .fin n m => if m = 0 then .inf n else if n then .nan else .fin false (sqrtRat (1 / m))

/-- EXP2 (R74). -/
def Num.exp2 : Num → Num
  | .nan => .nan
  | .inf n => if n then .zero else .inf false
  | .fin n m => .fin false (exp2Rat (if n then -m else m))

/-- LOG2 (R74). -/
def Num.log2 : Num → Num
  | .nan => .nan
  | .inf n => if n then .nan else .inf false
  | .fin n m => if m = 0 then .inf true else if n then .nan else .ofRat (log2Rat m)

end Sys2Proof.Machine
end

