-- ==== Sys2Proof/Machine/Operands.lean ====
section
/-! DEFINITION. The operand forms: tensor descriptors, task descriptors, graph headers, bindings, sequence
records and update records as they lie in memory, and the address and value of a tensor's element. -/

namespace Sys2Proof.Machine

/-! ## Tensor descriptors (R262) -/

/-- A tensor descriptor. -/
structure TD where
  base : Nat
  dim0 : Nat
  dim1 : Nat
  dim2 : Nat
  dim3 : Nat
  stride1 : Nat
  stride2 : Nat
  stride3 : Nat
  fmt : Nat
  flags : Nat
  chan : Nat
  tscale : Word
  tracker : Nat
  tensorId : Nat
  hint : Nat
  versionCtl : Nat
  scaleBase : Nat
deriving DecidableEq, Repr

/-- A descriptor as it lies in device memory (R262). -/
def Dev.readTd (d : Dev) (a : Nat) : TD :=
  { base := d.ld a 8, dim0 := d.ld (a + 0x08) 4, dim1 := d.ld (a + 0x0C) 4, dim2 := d.ld (a + 0x10) 4,
    dim3 := d.ld (a + 0x14) 4, stride1 := d.ld (a + 0x18) 4, stride2 := d.ld (a + 0x1C) 4,
    stride3 := d.ld (a + 0x20) 4, fmt := d.ld (a + 0x24) 1, flags := d.ld (a + 0x25) 1,
    chan := d.ld (a + 0x26) 2, tscale := word (d.ld (a + 0x28) 4), tracker := d.ld (a + 0x2C) 4,
    tensorId := d.ld (a + 0x30) 4, hint := d.ld (a + 0x34) 2, versionCtl := d.ld (a + 0x36) 2,
    scaleBase := d.ld (a + 0x38) 8 }

/-- INTERLEAVED (R57). -/
def TD.interleaved (t : TD) : Bool := bit t.flags 0
/-- POISON_OK (R254). -/
def TD.poisonOk (t : TD) : Bool := bit t.flags 1
/-- INF_OK (R68). -/
def TD.infOk (t : TD) : Bool := bit t.flags 2
/-- The version view (R176). -/
def TD.view (t : TD) : Nat := t.versionCtl % 8
/-- The channel dimension of an INT8Z descriptor (R61). -/
def TD.cdim (t : TD) : Nat := bits t.chan 13 12
/-- The size of dimension k. -/
def TD.dim (t : TD) (k : Nat) : Nat :=
  if k = 0 then t.dim0 else if k = 1 then t.dim1 else if k = 2 then t.dim2 else t.dim3
/-- The number of elements. -/
def TD.elems (t : TD) : Nat := t.dim0 * t.dim1 * t.dim2 * t.dim3

/-- The bytes of a 32-element block (R56). -/
def blockBytes (fmt : Nat) : Nat := fmtBits fmt * 4
/-- Blocks of a row. -/
def TD.rowBlocks (t : TD) : Nat := ceilDiv t.dim0 32
/-- The bytes of one dim0 row (R56, R57). -/
def TD.rowBytes (t : TD) : Nat :=
  if isBlocked t.fmt then
    t.rowBlocks * blockBytes t.fmt + (if t.interleaved then ceilDiv t.rowBlocks 64 * 64 else 0)
  else ceilDiv (t.dim0 * fmtBits t.fmt) 8

/-- A position in a tensor. -/
structure Pos where
  d0 : Nat
  d1 : Nat
  d2 : Nat
  d3 : Nat
deriving DecidableEq, Repr

/-- The address at which row (d1, d2, d3) starts (R263). -/
def TD.rowAddr (t : TD) (p : Pos) : Nat :=
  t.base + 64 * (p.d1 * t.stride1 + p.d2 * t.stride2 + p.d3 * t.stride3)

/-- The address of block b of a row (R56, R57). -/
def TD.blockAddr (t : TD) (p : Pos) (b : Nat) : Nat :=
  t.rowAddr p + b * blockBytes t.fmt + (if isBlocked t.fmt && t.interleaved then (b / 64 + 1) * 64 else 0)

/-- The address of the scale byte of block b of a row (R57). -/
def TD.scaleAddr (t : TD) (p : Pos) (b : Nat) : Nat :=
  if t.interleaved then t.rowAddr p + b / 64 * (64 + 64 * blockBytes t.fmt) + b % 64
  else t.scaleBase + ((p.d3 * t.dim2 + p.d2) * t.dim1 + p.d1) * t.rowBlocks + b

/-- The channel of a position (R61). -/
def TD.channel (t : TD) (p : Pos) : Nat :=
  if t.cdim = 0 then p.d0 else if t.cdim = 1 then p.d1 else if t.cdim = 2 then p.d2 else p.d3

/-- The row-major number of a position's row. -/
def TD.rowIndex (t : TD) (p : Pos) : Nat := (p.d3 * t.dim2 + p.d2) * t.dim1 + p.d1

/-- The position of a row-major row number and a place along dim0. -/
def TD.posOfRow (t : TD) (r d0 : Nat) : Pos :=
  { d0 := d0, d1 := r % t.dim1, d2 := r / t.dim1 % t.dim2, d3 := r / (t.dim1 * t.dim2) }

/-- The rows of a tensor. -/
def TD.rows (t : TD) : Nat := t.dim1 * t.dim2 * t.dim3

/-- A packed tensor: its rows follow each other at the next 64-byte line. -/
def packedTd (base fmt d0 d1 d2 d3 : Nat) : TD :=
  let il := isMx fmt
  let row : TD := {
    base := base, dim0 := d0, dim1 := d1, dim2 := d2, dim3 := d3, stride1 := 0, stride2 := 0,
    stride3 := 0, fmt := fmt, flags := flag il 0, chan := 0, tscale := 0x3F800000, tracker := 0xFFFFFFFF,
    tensorId := 0, hint := 0, versionCtl := 0, scaleBase := 0 }
  let s := ceilDiv row.rowBytes 64
  { row with stride1 := s, stride2 := s * d1, stride3 := s * d1 * d2 }

/-! ## Where the bytes of an instance's operands lie -/

/-- The key under which an address of a context's micro-batch is held: the stash is one logical space for each
micro-batch (R245). -/
def xlate (ctx mb a : Nat) : Nat := if tierOf a = 1 then stashKey ctx mb a else a

/-- A little-endian field at an address of a micro-batch. -/
def Dev.ldX (d : Dev) (ctx mb a n : Nat) : Nat := d.mem.readLE (xlate ctx mb a) n

/-- The raw bits of an element (R56). -/
def Dev.elemBits (d : Dev) (ctx mb : Nat) (t : TD) (p : Pos) : Nat :=
  let w := fmtBits t.fmt
  let a := t.blockAddr p (p.d0 / 32)
  let bitOff := p.d0 % 32 * w
  bits (d.ldX ctx mb (a + bitOff / 8) (if w < 8 then 2 else w / 8)) (bitOff % 8 + w - 1) (bitOff % 8)

/-- The scale code or exponent byte of an element's block. -/
def Dev.scaleCode (d : Dev) (ctx mb : Nat) (t : TD) (p : Pos) : Nat :=
  d.ldX ctx mb (t.scaleAddr p (p.d0 / 32)) 1

/-- The zero point of an element's channel (R62). -/
def Dev.zeroPoint (d : Dev) (ctx mb : Nat) (t : TD) (p : Pos) : Int :=
  signed (d.ldX ctx mb (t.scaleBase + t.channel p) 1) 8

/-- value() of R84: an element without its tensor scale and its block scale; INT8Z gives q − z. -/
def Dev.elemCore (d : Dev) (ctx mb : Nat) (t : TD) (p : Pos) : Num :=
  if t.fmt = 7 then
    .ofRat ((signed (d.elemBits ctx mb t p) 8 - d.zeroPoint ctx mb t p : Int) : Rat)
  else decodeElem t.fmt (d.elemBits ctx mb t p)

/-- The block scale of an element as a number: NaN for a block marked NaN or non-finite, 1 where there is none
(R53, R54). -/
def Dev.blockScale (d : Dev) (ctx mb : Nat) (t : TD) (p : Pos) : Num :=
  if isMx t.fmt then
    let s := d.scaleCode ctx mb t p
    if s = 0xFF then .nan else .fin false (pow2 ((s : Int) - 127))
  else if t.fmt = 0x0B then
    let s := d.scaleCode ctx mb t p
    if s = 0x80 then .nan else .fin false (pow2 (signed s 8))
  else .fin false 1

/-- An element with its block scale and without its tensor scale. -/
def Dev.elemScaled (d : Dev) (ctx mb : Nat) (t : TD) (p : Pos) : Num :=
  match d.blockScale ctx mb t p with
  | .nan => .nan
  | s => s.mul (d.elemCore ctx mb t p)

/-- The value of a stored element (R59). -/
def Dev.elemValue (d : Dev) (ctx mb : Nat) (t : TD) (p : Pos) : Num :=
  (fp32Val t.tscale).mul (d.elemScaled ctx mb t p)

/-- The first poisoned line that the element's bytes, its scale or its zero point meet (R253). -/
def Dev.elemPoison (d : Dev) (ctx mb : Nat) (t : TD) (p : Pos) : Option Nat :=
  let w := fmtBits t.fmt
  let i := p.d0 % 32 * w
  let a := t.blockAddr p (p.d0 / 32)
  match d.poisoned? (xlate ctx mb (a + i / 8)) ((i + w - 1) / 8 - i / 8 + 1) with
  | some l => some l
  | none =>
    if isBlocked t.fmt then d.poisoned? (xlate ctx mb (t.scaleAddr p (p.d0 / 32))) 1
    else if t.fmt = 7 then d.poisoned? (xlate ctx mb (t.scaleBase + t.channel p)) 1
    else none

/-! ## Task descriptors (R264) -/

/-- A task descriptor. -/
structure Task where
  op : Nat
  flags : Nat
  stage : Nat
  half : Nat
  scope : Nat
  replay : Nat
  tds : List Nat
  predCount : Nat
  succCount : Nat
  succIndex : Nat
  dueOffset : Nat
  mbSpacing : Nat
  bindCount : Nat
  stashDecl : Nat
  bindPtr : Nat
  tallyPtr : Nat
  aux : Nat
  chunk : Nat
  chunks : Nat
deriving DecidableEq, Repr

/-- A task descriptor as it lies in device memory (R264). -/
def Dev.readTask (d : Dev) (a : Nat) : Task :=
  { op := d.ld a 2, flags := d.ld (a + 2) 2, stage := d.ld (a + 4) 1, half := d.ld (a + 5) 1,
    scope := d.ld (a + 6) 1, replay := d.ld (a + 7) 1,
    tds := (List.range 6).map (fun i => d.ld (a + 8 + 2 * i) 2), predCount := d.ld (a + 0x14) 2,
    succCount := d.ld (a + 0x16) 2, succIndex := d.ld (a + 0x18) 4, dueOffset := d.ld (a + 0x1C) 4,
    mbSpacing := d.ld (a + 0x20) 2, bindCount := d.ld (a + 0x22) 2, stashDecl := d.ld (a + 0x24) 4,
    bindPtr := d.ld (a + 0x28) 8, tallyPtr := d.ld (a + 0x30) 8, aux := d.ld (a + 0x38) 8,
    chunk := d.ld (a + 0x40) 2, chunks := d.ld (a + 0x42) 2 }

/-- RDIM_A. -/
def Task.rdimA (t : Task) : Bool := bit t.flags 0
/-- RDIM_B. -/
def Task.rdimB (t : Task) : Bool := bit t.flags 1
/-- ACC (R112). -/
def Task.acc (t : Task) : Bool := bit t.flags 2
/-- LADDER (R145). -/
def Task.ladder (t : Task) : Bool := bit t.flags 3
/-- PARTIAL (R286). -/
def Task.partial? (t : Task) : Bool := bit t.flags 4
/-- FORWARD (R268). -/
def Task.forward (t : Task) : Bool := bit t.flags 5
/-- BACKWARD (R268). -/
def Task.backward (t : Task) : Bool := bit t.flags 6
/-- RECOMPUTE (R268). -/
def Task.recompute (t : Task) : Bool := bit t.flags 7
/-- Append or scatter bindings. -/
def Task.appends (t : Task) : Nat := t.bindCount % 128
/-- Gather bindings. -/
def Task.gathers (t : Task) : Nat := bits t.bindCount 10 7

/-- The operations (R265). -/
abbrev opFmul : Nat := 1
/-- BMUL -/
abbrev opBmul : Nat := 2
/-- CONVERT -/
abbrev opConvert : Nat := 3
/-- VU -/
abbrev opVu : Nat := 4
/-- COMBINE -/
abbrev opCombine : Nat := 5
/-- UPDATE -/
abbrev opUpdate : Nat := 6
/-- COLLECTIVE -/
abbrev opCollective : Nat := 7
/-- COPY -/
abbrev opCopy : Nat := 8
/-- HUB -/
abbrev opHub : Nat := 9

/-! ## Graph images (R278) -/

/-- A graph header. -/
structure GraphHdr where
  taskCount : Nat
  sharedTds : Nat
  mbTds : Nat
  mbMax : Nat
  stashPolicy : Nat
  wide : Nat
  recompute : Nat
  taskBase : Nat
  succBase : Nat
  succCount : Nat
  tdBase : Nat
  window : List Nat
deriving DecidableEq, Repr

/-- A graph header as it lies in device memory (R278). -/
def Dev.readGraph (d : Dev) (a : Nat) : GraphHdr :=
  { taskCount := d.ld a 4, sharedTds := d.ld (a + 4) 2, mbTds := d.ld (a + 6) 2, mbMax := d.ld (a + 8) 2,
    stashPolicy := d.ld (a + 0x0A) 1, wide := d.ld (a + 0x0C) 1, recompute := d.ld (a + 0x0D) 1,
    taskBase := d.ld (a + 0x10) 8, succBase := d.ld (a + 0x18) 8, succCount := d.ld (a + 0x20) 4,
    tdBase := d.ld (a + 0x28) 8, window := (List.range 16).map (fun i => d.ld (a + 0x30 + i) 1) }

/-- Task i of a graph. -/
def Dev.graphTask (d : Dev) (g : GraphHdr) (i : Nat) : Task := d.readTask (g.taskBase + 128 * i)

/-- The successors of a task, by the successor array (R264, R278). -/
def Dev.taskSuccs (d : Dev) (g : GraphHdr) (t : Task) : List Nat :=
  (List.range t.succCount).map (fun i => d.ld (g.succBase + 4 * (t.succIndex + i)) 4)

/-- The predecessors of task k. -/
def Dev.taskPreds (d : Dev) (g : GraphHdr) (k : Nat) : List Nat :=
  (List.range g.taskCount).filter (fun i => (d.taskSuccs g (d.graphTask g i)).contains k)

/-- The address of the descriptor that a TD index names for micro-batch m (R266). -/
def GraphHdr.tdAddr (g : GraphHdr) (ix m : Nat) : Nat :=
  g.tdBase + 64 * (if ix < 0x8000 then ix else g.sharedTds + m * g.mbTds + (ix - 0x8000))

/-- The descriptor at a td position of a task for micro-batch m; none for 0xFFFF. -/
def Dev.taskTd (d : Dev) (g : GraphHdr) (t : Task) (m k : Nat) : Option TD :=
  let ix := at' t.tds k 0xFFFF
  if ix = 0xFFFF then none else some (d.readTd (g.tdAddr ix m))

/-- The resident graph of a context with an id. -/
def Ctx.graph? (x : Ctx) (gid : Nat) : Option ResGraph := x.graphs.find? (fun g => g.gid = gid)

/-! ## Bindings (R102, R191, R223) -/

/-- An append or scatter binding (R102). -/
structure AppendBind where
  seqRec : Nat
  rowStart : Nat
  rowCount : Nat
  colStart : Nat
  colCount : Nat
  side : Nat
  fmt : Nat
  rsvd : Bool
deriving DecidableEq, Repr

/-- Append binding i of a task. -/
def Dev.appendBind (d : Dev) (t : Task) (i : Nat) : AppendBind :=
  let a := t.bindPtr + 32 * i
  { seqRec := d.ld a 8, rowStart := d.ld (a + 8) 4, rowCount := d.ld (a + 0x0C) 4,
    colStart := d.ld (a + 0x10) 2, colCount := d.ld (a + 0x12) 2, side := d.ld (a + 0x14) 1,
    fmt := d.ld (a + 0x15) 1, rsvd := d.ld (a + 0x16) 2 ≠ 0 || d.ld (a + 0x18) 8 ≠ 0 }

/-- A task's append bindings. -/
def Dev.appendBinds (d : Dev) (t : Task) : List AppendBind := (List.range t.appends).map (d.appendBind t)

/-- A gather binding (R223). -/
structure GatherBind where
  seqRec : Nat
  keyStart : Nat
  keyCount : Nat
  colStart : Nat
  colCount : Nat
  side : Nat
  fmt : Nat
  operand : Nat
  qhead : Nat
  qpos0 : Nat
  mask : Nat
  smode : Nat
  rsvd : Bool
deriving DecidableEq, Repr

/-- Gather binding i of a task. -/
def Dev.gatherBind (d : Dev) (t : Task) (i : Nat) : GatherBind :=
  let a := t.bindPtr + 32 * (t.appends + i)
  { seqRec := d.ld a 8, keyStart := d.ld (a + 8) 4, keyCount := d.ld (a + 0x0C) 4,
    colStart := d.ld (a + 0x10) 2, colCount := d.ld (a + 0x12) 2, side := d.ld (a + 0x14) 1,
    fmt := d.ld (a + 0x15) 1, operand := d.ld (a + 0x16) 1, qhead := d.ld (a + 0x17) 1,
    qpos0 := d.ld (a + 0x18) 4, mask := d.ld (a + 0x1C) 1, smode := d.ld (a + 0x1D) 1,
    rsvd := d.ld (a + 0x1E) 2 ≠ 0 }

/-- A task's gather bindings. -/
def Dev.gatherBinds (d : Dev) (t : Task) : List GatherBind := (List.range t.gathers).map (d.gatherBind t)

/-- A Tally binding (R191). -/
structure TallyBind where
  stream : Nat
  tensorId : Nat
  stepFixed : Nat
  indexBase : Nat
  pitch1 : Nat
  pitch2 : Nat
  pitch3 : Nat
  kind : Nat
  width : Nat
  flags : Nat
  pcode : Nat
  rsvd : Bool
deriving DecidableEq, Repr

/-- The Tally binding at an address. -/
def Dev.tallyBind (d : Dev) (a : Nat) : TallyBind :=
  { stream := d.ld a 8, tensorId := d.ld (a + 8) 4, stepFixed := d.ld (a + 0x0C) 4, indexBase := d.ld (a + 0x10) 8,
    pitch1 := d.ld (a + 0x18) 8, pitch2 := d.ld (a + 0x20) 8, pitch3 := d.ld (a + 0x28) 8,
    kind := d.ld (a + 0x30) 1, width := d.ld (a + 0x31) 1, flags := d.ld (a + 0x32) 1,
    pcode := d.ld (a + 0x34) 4, rsvd := d.ld (a + 0x33) 1 ≠ 0 || d.ld (a + 0x38) 8 ≠ 0 }

/-! ## Sequence records (R207) -/

/-- A sequence record. -/
structure SeqRec where
  ptPtr : Nat
  gen : Nat
  ptEntries : Nat
  committedLen : Nat
  provLen : Nat
  pool : Nat
  flags : Nat
  hq : Nat
  ctx : Nat
  statsPtr : Nat
  lastBell : Nat
  walks : Nat
deriving DecidableEq, Repr

/-- The sequence record at an address. -/
def Dev.seqRec (d : Dev) (a : Nat) : SeqRec :=
  { ptPtr := d.ld a 8, gen := d.ld (a + 8) 4, ptEntries := d.ld (a + 0x0C) 4, committedLen := d.ld (a + 0x10) 4,
    provLen := d.ld (a + 0x14) 4, pool := d.ld (a + 0x18) 2, flags := d.ld (a + 0x1A) 2, hq := d.ld (a + 0x1C) 2,
    ctx := d.ld (a + 0x1E) 2 % 8, statsPtr := d.ld (a + 0x20) 8, lastBell := d.ld (a + 0x28) 8,
    walks := d.ld (a + 0x30) 4 }

/-- The 64 bytes of a sequence record. -/
def SeqRec.bytes (r : SeqRec) : List Byte :=
  leBytes 8 r.ptPtr ++ leBytes 4 r.gen ++ leBytes 4 r.ptEntries ++ leBytes 4 r.committedLen ++ leBytes 4 r.provLen
  ++ leBytes 2 r.pool ++ leBytes 2 r.flags ++ leBytes 2 r.hq ++ leBytes 2 (r.ctx % 8) ++ leBytes 8 r.statsPtr
  ++ leBytes 8 r.lastBell ++ leBytes 4 r.walks ++ leBytes 12 0

/-- Write a sequence record. -/
def Dev.putSeq (d : Dev) (a : Nat) (r : SeqRec) : Dev := d.store a r.bytes

/-- OPEN. -/
def SeqRec.isOpen (r : SeqRec) : Bool := bit r.flags 0
/-- EVICTABLE. -/
def SeqRec.evictable (r : SeqRec) : Bool := bit r.flags 1
/-- LOCK. -/
def SeqRec.lock (r : SeqRec) : Bool := bit r.flags 2

/-- Entry p of a page table (R206). -/
def Dev.ptEntry (d : Dev) (table p : Nat) : Nat := d.ld (table + 4 * p) 4
/-- VALID. -/
def ptValid (e : Nat) : Bool := bit e 31
/-- EVICTED. -/
def ptEvicted (e : Nat) : Bool := bit e 30
/-- FRAME. -/
def ptFrame (e : Nat) : Nat := e % 2 ^ 30

/-- A pool register as committed (R232). -/
def Dev.poolReg (d : Dev) (half p o : Nat) : Nat := d.committed (hubDie half) (0x05000000 + p * 64 + o)
/-- A pool's frame count. -/
def Dev.poolFrames (d : Dev) (half p : Nat) : Nat := d.poolReg half p 0x18
/-- A pool's frame size in bytes. -/
def Dev.frameBytes (d : Dev) (half p : Nat) : Nat := d.poolReg half p 0x08 * 64
/-- A pool's row as a descriptor of one row in a frame: row (side, slot) of frame f (R203). -/
def Dev.poolRowTd (d : Dev) (half p frame side slot : Nat) : TD :=
  let fb := d.frameBytes half p
  let fmt := d.poolReg half p 0x00 % 256
  { base := d.poolReg half p 0x10 + d.poolReg half p 0x14 * 2 ^ 32 + frame * fb + (16 * side + slot) * (fb / 32),
    dim0 := d.poolReg half p 0x04, dim1 := 1, dim2 := 1, dim3 := 1, stride1 := 0, stride2 := 0, stride3 := 0,
    fmt := fmt, flags := flag (isMx fmt) 0, chan := 0, tscale := word (d.poolReg half p 0x0C),
    tracker := d.poolReg half p 0x1C, tensorId := 0, hint := 0, versionCtl := 0, scaleBase := 0 }

/-! ## Update records (R163) -/

/-- An update record. -/
structure UpdRec where
  tensorId : Nat
  prog : Nat
  round : Nat
  maskKind : Nat
  flags : Nat
  slotBase : Nat
  slotDelta : Nat
  stateBase : Nat
  stateDelta : Nat
  maskBase : Nat
  imgFmt : Nat
  rank : Nat
  stateN : Nat
  stateFmt : Nat
  imgSlot : Nat
  ratioLo : Word
  ratioHi : Word
  hp : List Word
  clipMax : Word
  lrBase : Word
  rfPeriod : Nat
  rfSlot : Nat
deriving DecidableEq, Repr

/-- The update record at an address. -/
def Dev.readUpdRec (d : Dev) (a : Nat) : UpdRec :=
  { tensorId := d.ld a 4, prog := d.ld (a + 4) 1, round := d.ld (a + 5) 1, maskKind := d.ld (a + 6) 1,
    flags := d.ld (a + 7) 1, slotBase := d.ld (a + 8) 8, slotDelta := d.ld (a + 0x10) 8,
    stateBase := d.ld (a + 0x18) 8, stateDelta := d.ld (a + 0x20) 8, maskBase := d.ld (a + 0x28) 8,
    imgFmt := d.ld (a + 0x30) 1, rank := d.ld (a + 0x31) 1, stateN := d.ld (a + 0x32) 1,
    stateFmt := d.ld (a + 0x33) 1, imgSlot := d.ld (a + 0x34) 4, ratioLo := word (d.ld (a + 0x38) 4),
    ratioHi := word (d.ld (a + 0x3C) 4), hp := (List.range 8).map (fun i => word (d.ld (a + 0x40 + 4 * i) 4)),
    clipMax := word (d.ld (a + 0x60) 4), lrBase := word (d.ld (a + 0x64) 4), rfPeriod := d.ld (a + 0x68) 4,
    rfSlot := d.ld (a + 0x6C) 4 }

/-- The committed record table of a context: its address and count (R163, R181). -/
def Dev.updTable (d : Dev) (c : Nat) : Nat × Nat :=
  (d.com64 16 (0x03000000 + c * 64 + 0x24), d.committed 16 (0x03000000 + c * 64 + 0x2C))

/-- Record i of a context's table. -/
def Dev.updRec (d : Dev) (c i : Nat) : UpdRec := d.readUpdRec ((d.updTable c).1 + 128 * i)

/-- The records of a context's table. -/
def Dev.updRecs (d : Dev) (c : Nat) : List UpdRec := (List.range (d.updTable c).2).map (d.updRec c)

/-! ## The descriptors an instance works with -/

/-- The record of a version view's tensor (R164, R176). -/
def Dev.viewRec (d : Dev) (c : Nat) (t : TD) : Option UpdRec :=
  (d.updRecs c).find? (fun r => r.tensorId = t.tensorId)

/-- The half of a TD's tracker slot table is the half of the task; a tracker slot number (R129). -/
def TD.slot? (t : TD) (half : Nat) : Option Nat :=
  if t.tracker = 0xFFFFFFFF then none else some (slotKey half (t.tracker % 4096))

/-- BIND of a tracker slot (R134, R153). -/
def Dev.slotBind (d : Dev) (half n : Nat) : Bool := bit (d.committed (hubDie half) (0x02000000 + n * 256)) 2

/-- A descriptor at another base. -/
def TD.moved (t : TD) (n : Nat) : TD :=
  { t with base := t.base + n, scaleBase := if t.scaleBase = 0 then 0 else t.scaleBase + n }

/-- The stash spaces of a context's two steps in flight are apart: the parity of the step's number, above a DPA's bits (R245). -/
def Dev.stepSpace (d : Dev) (c : Nat) (newer : Bool) : Nat :=
  match (d.ctx c).step? newer with
  | some r => 2 ^ 52 * (r.p.step % 2)
  | none => 0

/-- An address of core SRAM in the tiling in force: slot s of a cluster with m active slots is slot s mod m (R42, R356). -/
def Dev.sramAt (d : Dev) (a : Nat) : Nat :=
  if tierOf a = 3 ∧ a < 2 ^ 52 then
    let x := d.cluster ((8 * halfOf a + bits a 30 28) * 4 + bits a 27 26)
    let m := (x.slots.filter (·.isSome)).length + (if x.parked.isSome then 1 else 0)
    let s := bits a 25 22
    if m = 0 ∨ s < m then a else a - (s - s % m) * 2 ^ 22
  else a

/-- A descriptor as an instance takes it: a version view moves to the pinned slot (R176), and a descriptor that
names a slot with BIND set takes the slot's attempt scale (R134). -/
def Dev.resolveTd (d : Dev) (c : Nat) (newer : Bool) (half slot : Nat) (t : TD) : TD :=
  let t0 := { t with base := d.sramAt t.base, scaleBase := d.sramAt t.scaleBase }.moved (if tierOf t.base = 1 then d.stepSpace c newer else 0)
  let t1 :=
    if t.view = 0 ∨ slot = 0 then t0
    else match d.viewRec c t with
      | some r => t0.moved r.slotDelta
      | none => t0
  match t1.slot? half with
  | some k => if d.slotBind half (t.tracker % 4096) then { t1 with tscale := (d.slot k).attemptScale } else t1
  | none => t1

/-- The header of a resident graph of a context. -/
def Dev.stepGraph (d : Dev) (c gid : Nat) : Option GraphHdr :=
  (Ctx.graph? (d.ctx c) gid).map (fun g => d.readGraph g.image)

/-- The graph id that an attempt of a step runs: the step's graph, its wide form, and the recompute form of
either (R142, R251); none where the graph that would run names no such form or it is not resident. -/
def Dev.attemptGid (d : Dev) (c : Nat) (r : StepRun) : Option Nat :=
  let link (gid : Nat) (f : GraphHdr → Nat) : Option Nat :=
    match d.stepGraph c gid with
    | some g => if (d.stepGraph c (f g)).isSome then some (f g) else none
    | none => none
  let base := if r.form = 2 then link r.p.graph (·.wide) else if (d.stepGraph c r.p.graph).isSome then some r.p.graph else none
  match base with
  | none => none
  | some gid => if r.recompute then link gid (·.recompute) else some gid

/-- The header of the graph that an attempt of a step runs. -/
def Dev.attemptGraph (d : Dev) (c : Nat) (newer : Bool) : Option GraphHdr :=
  match (d.ctx c).step? newer with
  | none => none
  | some r => match d.attemptGid c r with
    | none => none
    | some gid => d.stepGraph c gid

end Sys2Proof.Machine
end

