-- ==== Sys2Proof/Machine/Screen.lean ====
section
/-! DEFINITION. The Screen's tracker slots (chapter 05): reports, the miss test, the choice of scales, the norm
watcher, adoption and commit. -/

namespace Sys2Proof.Machine

/-! ## A slot's committed configuration (R153) -/

/-- A slot's half. -/
def slotHalf (k : Nat) : Nat := k / 4096
/-- SCN_SLOT_CTL in force. -/
def Dev.slotCtl (d : Dev) (k : Nat) : Nat := d.committed (hubDie (slotHalf k)) (0x02000000 + k % 4096 * 256)
/-- SCN_SLOT_THR in force. -/
def Dev.slotThr (d : Dev) (k : Nat) : Nat := d.committed (hubDie (slotHalf k)) (0x02000000 + k % 4096 * 256 + 4)
/-- SCN_SLOT_NJ_J in force. -/
def Dev.slotJ (d : Dev) (k : Nat) : Num :=
  fp32Val (word (d.committed (hubDie (slotHalf k)) (0x02000000 + k % 4096 * 256 + 8)))
/-- SCN_SLOT_ELEMS in force. -/
def Dev.slotElems (d : Dev) (k : Nat) : Nat := d.com64 (hubDie (slotHalf k)) (0x02000000 + k % 4096 * 256 + 0x20)
/-- The slots assigned to a context (R128). -/
def Dev.slotsOf (d : Dev) (c : Nat) : List Nat := (d.slots.filter (fun p => p.2.owner = some c)).map (·.1)
/-- LADDER_TOP of a slot (R153). -/
def Dev.ladderTop (d : Dev) (k : Nat) : Nat := bits (d.slotCtl k) 24 23
/-- FBQ of a slot (R153). -/
def Dev.slotFbq (d : Dev) (k : Nat) : Nat := bits (d.slotThr k) 14 10
/-- COLLECTIVE of a slot (R153). -/
def Dev.slotCollective (d : Dev) (k : Nat) : Bool := bit (d.slotCtl k) 3

/-! ## Reports (R130, R131) -/

/-- What one written tile, block or element group reports to its slot. `amax` is an FP32 magnitude, `sq` an
exact square sum in units of 2^-298. -/
structure Report where
  elems : Nat := 0
  ovf : Nat := 0
  unf : Nat := 0
  unfBlk : Nat := 0
  sat : Nat := 0
  nf : Nat := 0
  amax : Rat := 0
  sq : Nat := 0
deriving DecidableEq, Repr

/-- The FP32 magnitude that a source value reports (R130). -/
def reportMag : Num → Rat
  | .fin _ m => min (fp32.round m) fp32.maxf
  | _ => 0

/-- The report of one element: its source, what the converter wrote and its block's scale code. -/
def elemReport (fmt scale : Nat) (x : Num) (o : COut) : Report :=
  let m := reportMag x
  let inBlock := isMx fmt && scale ≠ 0
  { elems := 1
    ovf := if o.ev = .overflow then 1 else 0
    unf := if o.ev = .underflow && !inBlock then 1 else 0
    unfBlk := if o.ev = .underflow && inBlock then 1 else 0
    sat := if o.ev = .saturation then 1 else 0
    nf := if o.ev = .nonfinite then 1 else 0
    amax := if x.isFin then m else 0
    sq := if x.isFin then (m * m * pow2 298).floor.toNat else 0 }

/-- Two reports together. -/
def Report.add (a b : Report) : Report :=
  { elems := a.elems + b.elems, ovf := a.ovf + b.ovf, unf := a.unf + b.unf, unfBlk := a.unfBlk + b.unfBlk,
    sat := a.sat + b.sat, nf := a.nf + b.nf, amax := max a.amax b.amax, sq := a.sq + b.sq }

/-- The report of a list of reports. -/
def Report.sum (l : List Report) : Report := l.foldl Report.add {}

/-- The larger of two FP32 magnitudes held as words. -/
def maxWord (a b : Word) : Word := if a.toNat ≤ b.toNat then b else a

/-- A slot takes a report (R130): counters add, PROV_AMAX keeps the maximum, square sums add exactly. -/
def Slot.take (nj : Bool) (x : Slot) (r : Report) : Slot :=
  { x with
    seen := x.seen + r.elems, ovf := x.ovf + r.ovf, unf := x.unf + r.unf, unfBlk := x.unfBlk + r.unfBlk
    sat := x.sat + r.sat, nfCount := x.nfCount + r.nf
    provAmax := maxWord x.provAmax (Sys2Proof.word (fp32.encodeMag r.amax))
    sq := x.sq + r.sq
    provNorm := if nj then fp32Word (.fin false (sqrtRat ((x.sq + r.sq : Nat) * pow2 (-298)))) else x.provNorm
    missBfx := x.missBfx || r.sat ≠ 0, nf := x.nf || r.nf ≠ 0 }

/-- A report reaches a slot of the half in which its task runs, where the target names one. -/
def Dev.report (d : Dev) (slot? : Option Nat) (r : Report) : Dev :=
  match slot? with
  | none => d
  | some k => d.setSlot k ((d.slot k).take (bit (d.slotCtl k) 22) r)

/-! ## The miss test (R135) -/

/-- miss_test of R135 with the codes of SCN_CTX_MISS: 0 none, 1 ovf, 2 unf, 3 range, 4 bfx32. -/
def Dev.missTest (d : Dev) (k : Nat) (atSeal : Bool) : Nat :=
  let x := d.slot k
  if 0 < x.sat then 4
  else
    let el := d.slotElems k
    if el = 0 ∧ ¬ atSeal then 0
    else
      let n := if 0 < el then el else x.seen
      let ctl := d.slotCtl k
      let thr := d.slotThr k
      let o := bit ctl 20 && decide (n < x.ovf * 2 ^ bits thr 4 0)
      let u := bit ctl 21 && decide (n < x.unf * 2 ^ bits thr 9 5)
      if o && u then 3 else if o then 1 else if u then 2 else 0

/-- The flags of a slot after its test gave a reason. -/
def Slot.flagMiss (x : Slot) (reason : Nat) : Slot :=
  { x with missOvf := x.missOvf || reason = 1 || reason = 3, missUnf := x.missUnf || reason = 2 || reason = 3,
           missBfx := x.missBfx || reason = 4 }

/-- The word of SCN_CTX_MISS for a slot and a reason (R154). -/
def missWordOf (k reason : Nat) : Word := word (k % 4096 + slotHalf k * 4096 + reason * 8192)

/-! ## Choosing the scale (R132, R133) -/

/-- The exponent of the reference magnitude of a format, none for INT8Z (R132). -/
def refExp (code : Nat) : Option Int :=
  match code with
  | 0x01 | 0x02 => some 2
  | 0x03 => some 4
  | 0x04 => some 8
  | 0x05 => some 15
  | 0x06 => some 0
  | 0x08 | 0x0A => some 127
  | 0x09 => some 15
  | 0x0B => some 17
  | _ => none

/-- The reference magnitude (R132). -/
def refMag (code : Nat) : Rat :=
  match refExp code with
  | some e => pow2 e
  | none => 127

/-- The least integer e for which 2^e ≥ x, for x > 0 (R133). -/
def ceilLog2 (x : Rat) : Int := let e := floorLog2 x; if pow2 e = x then e else e + 1

/-- An FP32 value at or above a positive x, the least one; above the largest it is the largest. -/
def roundUpFp32 (x : Rat) : Rat :=
  let s := pow2 (max (floorLog2 x) (-126) - 23)
  let n := (x / s).floor
  let r := (n : Rat) * s
  min (if r = x then r else ((n + 1 : Int) : Rat) * s) fp32.maxf

/-- The magnitude of an FP32 word, zero where it is not finite. -/
def magOf (w : Word) : Rat := match fp32Val w with | .fin _ m => m | _ => 0

/-- history_max of R133. -/
def Dev.historyMax (d : Dev) (k : Nat) (x : Slot) : Rat :=
  let h := ((x.hist.take (bits (d.slotCtl k) 7 4 + 1)).map magOf).foldl max 0
  if x.adopted then max h (magOf x.adoptAmax) else h

/-- select_scale of R133. -/
def Dev.selectScale (d : Dev) (k : Nat) (x : Slot) : Word :=
  let ctl := d.slotCtl k
  let h := d.historyMax k x
  let policy := ctl % 4
  let margin := signed (bits ctl 11 8) 4
  if policy = 0 ∨ policy = 3 ∨ h = 0 then x.scale
  else
    let q := h / refMag (bits ctl 19 12)
    if policy = 1 then
      word (fp32.encodeMag (pow2 (min (max (ceilLog2 q + margin) (-149)) 127)))
    else word (fp32.encodeMag (max (roundUpFp32 (q * pow2 margin)) (pow2 (-149))))

/-! ## Adoption and commit (R141, R151) -/

/-- A slot's counters, provisional amax and square sum cleared. -/
def Slot.clear (x : Slot) : Slot :=
  { x with provAmax := 0, seen := 0, ovf := 0, unf := 0, unfBlk := 0, sat := 0, nfCount := 0, sq := 0,
           nfPos := 0, nfTask := 0, missOvf := false, missUnf := false, missBfx := false, nf := false,
           provNorm := 0 }

/-- A BIND slot with COLLECTIVE set takes the job-wide maximum (R141). -/
def Dev.jobSlot (d : Dev) (k : Nat) : Bool := d.slotBind (slotHalf k) (k % 4096) && d.slotCollective k

/-- An abandoned attempt adopts its amax (R141); `job` is the job-wide maximum for a COLLECTIVE slot. -/
def Dev.adoptSlot (d : Dev) (job : List (Nat × Word)) (k : Nat) : Dev :=
  let x := d.slot k
  let own := maxWord x.adoptAmax x.provAmax
  let top :=
    if d.jobSlot k then
      match job.find? (fun p => p.1 = k) with
      | some p => maxWord own p.2
      | none => own
    else own
  let y := { x.clear with adoptAmax := top, adopted := true }
  d.setSlot k { y with attemptScale := d.selectScale k y }

/-- Every slot of a context adopts (R141). -/
def Dev.adopt (d : Dev) (c : Nat) (job : List (Nat × Word)) : Dev :=
  (d.slotsOf c).foldl (fun d k => d.adoptSlot job k) d

/-- A step that ends without commit clears the provisional state of every slot (R151). -/
def Dev.screenDrop (d : Dev) (c : Nat) : Dev :=
  (d.slotsOf c).foldl (fun d k =>
    let x := (d.slot k).clear
    d.setSlot k { x with adoptAmax := 0, adopted := false, attemptScale := x.scale }) d

/-- a < b on exact numbers and infinities; NaN compares false (R74). -/
def Num.lt : Num → Num → Bool
  | .fin a x, .fin b y => decide ((if a then -x else x) < (if b then -y else y))
  | .fin _ _, .inf n => !n
  | .inf n, .fin _ _ => n
  | .inf a, .inf b => a && !b
  | _, _ => false

/-- norm_commit of R138 on a slot with its norm: the slot after it, and whether the norm jumped. -/
def Dev.normCommit (d : Dev) (k : Nat) (x : Slot) : Slot × Bool :=
  let n := fp32Val x.provNorm
  let ema := fp32Val x.normEma
  if x.normEma = 0 then ({ x with normEma := x.provNorm }, false)
  else
    let top := (d.slotJ k).mul ema
    let jump := top.lt n
    let n' := if jump then roundFp32 top else n
    let sh : Num := .fin false (pow2 (-(bits (d.slotThr k) 18 15 : Int)))
    ({ x with normEma := fp32Word (ema.add ((n'.add ema.neg).mul sh)), nj := jump }, jump)

/-- screen_commit's work on one slot (R151), whose counters two steps in flight share (log entry 56). -/
def Dev.commitSlot (d : Dev) (c : Nat) (skip : Bool) (k : Nat) : Dev :=
  let x := d.slot k
  if x.seen = 0 ∧ ¬ x.adopted then d.setSlot k { x with nj := false }
  else if skip then
    d.setSlot k { x.clear with adoptAmax := 0, adopted := false, attemptScale := x.scale, nj := false }
  else
    let x1 := { x with hist := (maxWord x.provAmax x.adoptAmax :: x.hist).take 16, adopted := false, nj := false }
    let x2 := { x1 with scale := d.selectScale k x1 }
    let r := if bit (d.slotCtl k) 22 then d.normCommit k x2 else (x2, false)
    let y := { r.1.clear with adoptAmax := 0, adopted := false, attemptScale := r.1.scale }
    let d1 := d.setSlot k y
    if r.2 then
      (d1.updCtx c (fun z => { z with nj := true })).record
        { type := Rt.numeric, unit := hubUnit (slotHalf k) 0xC, status := St.normJump, opcode := k % 4096,
          ctx := some c, fixed := [x.provNorm, x.normEma] }
    else d1

/-- The wide-step count and PERSIST at a commit, under SKIP_STEP too; `probe` says that the step is a probe (R150). -/
def Dev.wideCommit (d : Dev) (c form : Nat) (probe : Bool) : Dev :=
  let x := d.ctx c
  let n := if form = 2 then min (x.wideCount + 1) 3 else 0
  let x1 := { x with wideCount := n, sincePersist := if x.persist then x.sincePersist + 1 else 0 }
  if x.persist ∧ form = 0 ∧ probe then
    (d.setCtx c { x1 with persist := false, sincePersist := 0 }).record
      { type := Rt.numeric, status := St.fallbackCleared, ctx := some c }
  else if ¬ x.persist ∧ n = 3 then
    (d.setCtx c { x1 with persist := true, sincePersist := 0 }).record
      { type := Rt.numeric, status := St.fallbackPersistent, ctx := some c }
  else d.setCtx c x1

/-- screen_commit of R151. -/
def Dev.screenCommit (d : Dev) (c form : Nat) (skip probe : Bool) : Dev :=
  let d0 := d.updCtx c (fun z => { z with nj := false })
  ((d0.slotsOf c).foldl (fun d k => d.commitSlot c skip k) d0).wideCommit c form probe

/-- Whether the next step of a context starts wide (R150, R467): CFG_WIDE, or PERSIST on a step that is no
probe. -/
def Dev.startsWide (d : Dev) (c : Nat) : Bool :=
  let x := d.ctx c
  bit (d.committed 16 0x1000000C) c ||
  (x.persist && (x.sincePersist + 1) % max (bits (d.committed 16 (0x02100000 + c * 32)) 12 8) 1 ≠ 0)

/-- A position held for a step gives way to that of a lower micro-batch, or of a lower task of the same one (R145). -/
def givesWay (pos : DWord) (held : Word) (task mb : Nat) : Bool :=
  pos = 0 || decide (mb * 65536 + task < bits held.toNat 23 16 * 65536 + held.toNat % 65536)

/-- A flagged task reports its first non-finite position to the Onsetter, and to each slot that one of its outputs names the
first position there; each position kept is the one of the lowest micro-batch and then the lowest task (R96, R145). The
verdict itself comes with the non-finite events (log entry 47). -/
def Dev.reportNf (d : Dev) (c : Nat) (at? : List (Nat × DWord)) (task mb : Nat) (pos : DWord) : Dev :=
  let w := word (task % 65536 + mb % 256 * 65536)
  let d1 := at?.foldl (fun (d : Dev) (q : Nat × DWord) =>
    let x := d.slot q.1
    if givesWay x.nfPos x.nfTask task mb then d.setSlot q.1 { x with nfPos := q.2, nfTask := w } else d) d
  if pos = 0 then d1
  else d1.updCtx c (fun z => if givesWay z.nfPos z.nfTask task mb then { z with nfPos := pos, nfTask := w } else z)

end Sys2Proof.Machine
end

