-- ==== Sys2Proof/Machine/Doorbell.lean ====
section
/-! DEFINITION. The doorbell controller (chapter 16): sources, rings, selection, presentation and traps of the
hub cores. -/

namespace Sys2Proof.Machine

/-! ## Sources (R438 to R441) -/

/-- The context that owns a doorbell source; sources 0 to 255 are the Headframe's (R438). -/
def srcCtx (s : Nat) : Option Nat := if s < 256 ∨ 4096 ≤ s then none else some ((s - 256) / 480)

/-- The configuration word of a source (R450). -/
def Dev.srcCfg (d : Dev) (half s : Nat) : Nat := d.rwGet (hubDie half) (0x0F010000 + s * 4) 8
/-- PRIO; the entry source of a context has 15 once R442 set it. -/
def Dev.srcPrio (d : Dev) (half s : Nat) : Nat := bits (d.srcCfg half s) 3 0
/-- MULTI. -/
def Dev.srcMulti (d : Dev) (half s : Nat) : Bool := bit (d.srcCfg half s) 11

/-- A window is one of an instance's. -/
def Window.of (w : Window) (x : Inst) : Bool := w.ctx = x.ctx && w.newer = x.newer && w.task = x.task && w.mb = x.mb

/-- The windows of an instance for what it reads of the other half have received their bytes (R24). -/
def Dev.windowsIn (d : Dev) (x : Inst) : Bool := (d.xc.windows.filter (fun w => w.of x && w.use = .read)).all (·.got)

/-- A deep-tier request of a running instance is outstanding. -/
def Dev.deepWaits (d : Dev) (x : Inst) : Bool :=
  d.deep.any (fun q => q.kind = 0 && q.ctx = x.ctx && q.newer = x.newer && q.task = x.task && q.mb = x.mb)

/-- Everything an admitted instance reads of the other half and of the deep tier has arrived. -/
def Dev.inputsReady (d : Dev) (x : Inst) : Bool := d.windowsIn x && !d.deepWaits x

/-- The admitted HUB instances of a source that wait for a core, in the order of admission (R440). -/
def Dev.hubWaiting (d : Dev) (half s : Nat) : List Inst :=
  d.insts.filter (fun i => i.op = 9 && i.half = half && i.src = s && i.state = 1 && !i.started && d.inputsReady i)

/-- A HUB task of a resident graph names the source (R440, R443). -/
def Dev.hubNames (d : Dev) (half s : Nat) : Bool :=
  d.ctxs.any (fun p => p.2.graphs.any (fun g =>
    (List.range (d.ld g.image 4)).any (fun i =>
      let a := d.ld (g.image + 0x10) 8 + 128 * i
      d.ld a 2 = 9 && d.ld (a + 5) 1 = half && d.ld (a + 0x38) 8 % 4096 = s)))
  || d.insts.any (fun i => i.op = 9 && i.half = half && i.src = s)

/-- Set the pending bit of a source (R439). -/
def Dev.ring! (d : Dev) (half s : Nat) : Dev :=
  if d.halfOn half && decide (s < 4096) then
    d.setSource (srcKey half s) { d.source (srcKey half s) with pending := true }
  else d

/-- The pending bit of a HUB task's source follows its waiting instances (R440). -/
def Dev.refreshHubSource (d : Dev) (half s : Nat) : Dev :=
  d.setSource (srcKey half s) { d.source (srcKey half s) with pending := !(d.hubWaiting half s).isEmpty }

/-- A count of DBC_REFUSED (R438, R446). -/
def Dev.dbcRefuse (d : Dev) (half : Nat) : Dev := d.rcAdd (hubDie half) 0x0F00001C 1

/-- Whether a writer may ring, mask or set a source (R438). -/
def Dev.mayRing (d : Dev) (w : Writer) (half s : Nat) : Bool :=
  match w with
  | .hub h c => h = half && (match d.hubCtx h c with | some x => srcCtx s = some x | none => false)
  | .headframe _ => true
  | _ => false

/-! ## Targets -/

/-- A hub core or Headframe core takes presentations (R443, R370). -/
def Dev.targetUp (d : Dev) (half t : Nat) : Bool :=
  let x := d.hub (hubKey half t)
  d.halfOn half && !d.health.withdrawn.contains (hubKey half t) && !x.canary &&
  (if t < 48 then (d.hubCtx half t).isSome && !(d.hist (hubUnitIx half 0 t)).held
   else
     let c := at' d.fw.complexes half {}
     (c.active || c.standby) && c.restarting = 0 && c.cores.contains (t - 48))

/-- Whether a source is routed to a target (R441, R447, R450). -/
def Dev.routed (d : Dev) (half s t : Nat) : Bool :=
  let cfg := d.srcCfg half s
  let tgt := bits cfg 10 5
  match srcCtx s with
  | none => t = (if 48 ≤ tgt ∧ tgt < 52 then tgt else 48)
  | some c =>
    if bit cfg 4 ∧ ¬ d.health.withdrawn.contains (hubKey half tgt) then t = tgt
    else t < 48 && d.hubCtx half t = some c

/-- select(t) of R443. -/
def Dev.select (d : Dev) (half t : Nat) : Option Nat :=
  let x := d.hub (hubKey half t)
  let thresh := d.rwGet (hubDie half) (0x0F020004 + t * 16) 0 % 16
  let cand := (d.sources.filter (fun p =>
      p.1 / 4096 = half && p.2.pending && !p.2.masked)).filterMap (fun p =>
    let s := p.1 % 4096
    let pr := d.srcPrio half s
    if thresh ≤ pr && d.routed half s t && (p.2.active.isEmpty || d.srcMulti half s)
      && (match x.stack with | (_, l) :: _ => decide (l < pr) | [] => true)
      && (x.holds.isNone || !d.hubNames half s)
    then some (s, pr) else none)
  (cand.foldl (fun (b : Option (Nat × Nat)) c =>
    match b with
    | none => some c
    | some y => if y.2 < c.2 then some c else some y) none).map (·.1)

/-! ## Traps and presentation (R434, R444) -/

/-- A hub core takes a RISC-V exception in S-mode with a cause and a trap value; the CSR effects are those of
the RISC-V privileged architecture (R433, log entry 9). -/
def HubCore.trap (x : HubCore) (cause tval : Nat) : HubCore :=
  { x with sepc := x.pc, scause := BitVec.ofNat 64 cause, stval := BitVec.ofNat 64 tval, spie := x.sie,
           sie := false, spp := x.mode, mode := 1, pc := x.stvec }

/-- RISC-V exception codes: instruction access fault. -/
abbrev faultFetch : Nat := 1
/-- Load access fault. -/
abbrev faultLoad : Nat := 5
/-- Store or AMO access fault. -/
abbrev faultStore : Nat := 7

/-- A hub core traps. -/
def Dev.hubTrap (d : Dev) (half core cause tval : Nat) : Dev :=
  d.setHub (hubKey half core) ((d.hub (hubKey half core)).trap cause tval)

/-- The context's allocations cover an address: HBM of a half, or the deep tier (R434). -/
def Dev.ctxOwns (d : Dev) (c a : Nat) : Bool :=
  d.allocs.any (fun x => x.ctx = c && decide (x.base ≤ a) && decide (a < x.base + x.extents * 2 ^ 21))

/-- The entry address of a context in a half: the base of its lowest HBM allocation there with PARITY (R444). -/
def Dev.entryAddr (d : Dev) (c half : Nat) : Option Nat :=
  ((d.allocs.filter (fun x => x.ctx = c && tierOf x.base = 0 && halfOf x.base = half && x.parity)).map (·.base)).min?

/-- The vector address of a source, and whether its handler may be fetched there; where a context has no entry address, 0
stands for it (R444). -/
def Dev.vector (d : Dev) (half s : Nat) : Nat × Bool :=
  match srcCtx s with
  | none => ((d.rwGet (hubDie half) 0x0F000020 0 + d.rwGet (hubDie half) 0x0F000024 0 * 2 ^ 32 + s * 64) % 2 ^ 52, true)
  | some c =>
    let b := d.rwGet (hubDie half) (0x0F030000 + c * 16) 0 + d.rwGet (hubDie half) (0x0F030004 + c * 16) 0 * 2 ^ 32
    if b = 0 then ((d.entryAddr c half).getD 0, (d.entryAddr c half).isSome)
    else
      let v := (b + s * 64) % 2 ^ 52
      (v, d.ctxOwns c v)

/-- Enter the handler of a source; one that may not be fetched traps at its vector address (R444). -/
def HubCore.enter (x : HubCore) (s prio : Nat) (v : Nat × Bool) : HubCore :=
  let y := { x with
    sepc := x.pc, scause := BitVec.ofNat 64 0x8000000000000009, stval := BitVec.ofNat 64 s, spie := x.sie,
    sie := false, spp := x.mode, mode := 1, stack := (s, prio) :: x.stack, pc := BitVec.ofNat 64 v.1 }
  if v.2 then y else y.trap faultFetch v.1

/-- Present a source to a target: it becomes active there and no longer pending; a HUB task's source passes the
token of its oldest waiting instance (R444, R445). -/
def Dev.present (d : Dev) (half s t : Nat) : Dev :=
  let k := srcKey half s
  let x := d.source k
  let d1 := d.setSource k { x with pending := false, active := t :: x.active }
  let d2 := d1.setHub (hubKey half t) ((d1.hub (hubKey half t)).enter s (d.srcPrio half s) (d.vector half s))
  match d2.hubWaiting half s with
  | [] => d2
  | i :: _ =>
    let d3 := d2.updInst i (fun j => { j with started := true })
    (d3.setHub (hubKey half t) { d3.hub (hubKey half t) with holds := some i.token }).refreshHubSource half s

/-- One dispatch cycle of a half (R443): every target selects from the state at the cycle's start, and a source
goes to the lowest-numbered target that selects it. -/
def Dev.dispatch (d : Dev) (half : Nat) : Dev :=
  let picks := (List.range 52).filterMap (fun t =>
    if d.targetUp half t then (d.select half t).map (fun s => (s, t)) else none)
  (picks.foldl (fun (a : Dev × List Nat) p =>
    if a.2.contains p.1 then a else (a.1.present half p.1 p.2, p.1 :: a.2)) (d, [])).1

/-- A target ends the handler of a source: its level is popped and its active mark cleared (R446). -/
def Dev.eoi (d : Dev) (half t s : Nat) : Dev :=
  let x := d.hub (hubKey half t)
  match x.stack with
  | (top, _) :: rest =>
    if top = s then
      let y := d.source (srcKey half s)
      (d.setHub (hubKey half t) { x with stack := rest }).setSource (srcKey half s)
        { y with active := y.active.erase t }
    else d.dbcRefuse half
  | [] => d.dbcRefuse half

/-- A hub core is withdrawn: its level stack is discarded and its sources become pending again (R447). -/
def Dev.withdrawTarget (d : Dev) (half t : Nat) : Dev :=
  let x := d.hub (hubKey half t)
  let d1 := x.stack.foldl (fun d p =>
    let y := d.source (srcKey half p.1)
    d.setSource (srcKey half p.1) { y with active := y.active.erase t, pending := true }) d
  let d2 := d1.setHub (hubKey half t) { x with stack := [], holds := none }
  { d2 with health := { d2.health with withdrawn := insertNat d2.health.withdrawn (hubKey half t) } }

/-- The sources of a context at ctx.open and ctx.restore, in each powered half (R442). -/
def Dev.initSources (d : Dev) (c : Nat) : Dev :=
  upto 2 (fun half d =>
    if !d.halfOn half then d
    else
      let d1 := upto 480 (fun i d =>
        let s := 256 + 480 * c + i
        (d.rwPut (hubDie half) (0x0F010000 + s * 4) 8 (if i = 0 then 15 else 8)).setSource (srcKey half s) {}) d
      (d1.rwPut (hubDie half) (0x0F030000 + c * 16) 0 0).rwPut (hubDie half) (0x0F030004 + c * 16) 0 0) d

/-- Mask a context's sources and clear their pending bits (R448). -/
def Dev.maskSources (d : Dev) (c : Nat) : Dev :=
  upto 2 (fun half d => upto 480 (fun i d =>
    let k := srcKey half (256 + 480 * c + i)
    d.setSource k { d.source k with masked := true, pending := false }) d) d

/-- A handler of the context runs on some hub core (R448). -/
def Dev.handlerRuns (d : Dev) (c : Nat) : Bool :=
  d.hubs.any (fun p => p.2.stack.any (fun e => srcCtx e.1 = some c))

end Sys2Proof.Machine
end

