-- ==== Sys2Proof/Machine/Kv.lean ====
section
/-! DEFINITION. KV pools, page tables and sequence records (chapter 08): share counts, set, swap and release,
eviction, and the reservation of an admission. -/

namespace Sys2Proof.Machine

/-! ## Frames and share counts (R205) -/

/-- Set the share count of a frame. -/
def Dev.putShare (d : Dev) (half p frame n : Nat) : Dev :=
  d.store (d.poolShareBase half p + frame) (leBytes 1 n)

/-- Name a frame once more. -/
def Dev.shareUp (d : Dev) (half p frame : Nat) : Dev := d.putShare half p frame (d.shareCount half p frame + 1)
/-- Name a frame once less. -/
def Dev.shareDown (d : Dev) (half p frame : Nat) : Dev := d.putShare half p frame (d.shareCount half p frame - 1)

/-- The byte address of a frame. -/
def Dev.frameAddr (d : Dev) (half p frame : Nat) : Nat :=
  d.poolReg half p 0x10 + d.poolReg half p 0x14 * 2 ^ 32 + frame * d.frameBytes half p
/-- The byte address of a deep frame. -/
def Dev.deepFrameAddr (d : Dev) (half p ix : Nat) : Nat :=
  d.poolReg half p 0x20 + d.poolReg half p 0x24 * 2 ^ 32 + ix * d.frameBytes half p

/-- The deep indices of a pool not in use. -/
def Dev.freeDeepList (d : Dev) (half p : Nat) : List Nat :=
  (List.range (d.poolReg half p 0x28)).filter (fun i => !(d.pool (poolKey half p)).deepUsed.contains i)

/-- Put a deep index in use. -/
def Dev.deepTake (d : Dev) (half p ix : Nat) : Dev :=
  let x := d.pool (poolKey half p)
  d.setPool (poolKey half p) { x with deepUsed := insertNat x.deepUsed ix }
/-- Return a deep index to the pool's deep free list. -/
def Dev.deepGive (d : Dev) (half p ix : Nat) : Dev :=
  let x := d.pool (poolKey half p)
  d.setPool (poolKey half p) { x with deepUsed := x.deepUsed.filter (· ≠ ix) }

/-- Write entry p of a table (R206). -/
def Dev.putEntry (d : Dev) (table p e : Nat) : Dev := d.store (table + 4 * p) (leBytes 4 e)

/-- The entry that names a frame. -/
def entryFrame (frame : Nat) : Nat := 2 ^ 31 + frame % 2 ^ 30
/-- The entry that names a deep frame. -/
def entryDeep (ix : Nat) : Nat := 2 ^ 31 + 2 ^ 30 + ix % 2 ^ 30

/-- An entry is well formed for a pool (R206). -/
def Dev.entryOk (d : Dev) (half p e : Nat) : Bool :=
  if ptValid e then
    if ptEvicted e then ptFrame e < d.poolReg half p 0x28 else ptFrame e < d.poolFrames half p
  else e = 0

/-! ## Sequences -/

/-- The half and pool of a record. -/
def Dev.seqPool (d : Dev) (a : Nat) : Nat × Nat := (halfOf a, (d.seqRec a).pool)

/-- A table is current or retired for some sequence (R217). -/
def Dev.tableLive (d : Dev) (table : Nat) : Bool :=
  d.seqs.any (fun a => (d.seqRec a).ptPtr = table) || d.retired.any (fun r => r.table = table)

/-- DEEP_ANY of a record follows its current table (R207). -/
def Dev.fixDeepAny (d : Dev) (a : Nat) : Dev :=
  let r := d.seqRec a
  let any := (List.range r.ptEntries).any (fun p => ptEvicted (d.ptEntry r.ptPtr p))
  d.putSeq a { r with flags := r.flags % 8 + r.flags / 16 * 16 + flag any 3 }

/-- The holders of a record's current table: the admitted instances whose snapshot names it (R213, R218). -/
def Dev.holdersOf (d : Dev) (a table : Nat) : List (Nat × Bool × Nat × Nat) :=
  (d.insts.filter (fun i => i.kv.any (fun s => s.seqRec = a && s.table = table))).map
    (fun i => (i.ctx, i.newer, i.task, i.mb))

/-- An entry of a table, other than by its deep frame, names a frame. -/
def Dev.namesFrame (d : Dev) (table entries f : Nat) : Bool :=
  (List.range entries).any (fun k => let e := d.ptEntry table k; ptValid e && !ptEvicted e && decide (ptFrame e = f))

/-- The frames that a table names, each once: a share count counts tables (R205). -/
def Dev.tableFrames (d : Dev) (table entries : Nat) : List Nat :=
  (((List.range entries).map (d.ptEntry table)).filter (fun e => ptValid e && !ptEvicted e)).foldl (fun l e => insertNat l (ptFrame e)) []

/-- The deep frames that a table names. -/
def Dev.tableDeep (d : Dev) (table entries : Nat) : List Nat :=
  (((List.range entries).map (d.ptEntry table)).filter (fun e => ptValid e && ptEvicted e)).map ptFrame

/-- Raise the share counts of every frame of a table. -/
def Dev.shareTable (d : Dev) (half p table entries : Nat) : Dev :=
  (d.tableFrames table entries).foldl (fun d f => d.shareUp half p f) d

/-- A table is live no more: the share counts of its frames fall. -/
def Dev.unshareTable (d : Dev) (half p table entries : Nat) : Dev :=
  (d.tableFrames table entries).foldl (fun d f => d.shareDown half p f) d

/-- A live table's entry takes a value: the share counts of the frame it no longer names and of the one it names follow. -/
def Dev.changeEntry (d : Dev) (half p table entries k e : Nat) : Dev :=
  let old := d.ptEntry table k
  let d1 := d.putEntry table k 0
  let d2 := if ptValid old && !ptEvicted old && !d1.namesFrame table entries (ptFrame old) then d1.shareDown half p (ptFrame old) else d1
  let d3 := if ptValid e && !ptEvicted e && !d2.namesFrame table entries (ptFrame e) then d2.shareUp half p (ptFrame e) else d2
  d3.putEntry table k e

/-- A retired table whose holders reached zero: its frames are released, the event is posted and the port's
source rung (R221). Deep frames it has not passed on go back to the deep free list (log entry 13). -/
def Dev.freeTable (d : Dev) (r : RetiredTable) : Dev :=
  let d1 := r.deep.foldl (fun d i => d.deepGive r.half r.pool i) (d.unshareTable r.half r.pool r.table r.entries)
  let d2 := d1.record { type := Rt.kv, status := St.kvTableFreed, addr := r.table }
  match r.port with
  | some s => d2.ring! r.half s
  | none => d2

/-- Retire a table: it is freed at once where nothing holds it. The answer says so (R221). -/
def Dev.retire (d : Dev) (r : RetiredTable) : Dev × Bool :=
  if r.holders.isEmpty then (d.freeTable r, true) else ({ d with retired := d.retired ++ [r] }, false)

/-- A half's list of retired tables is full (R221). -/
def Dev.retiredFull (d : Dev) (half : Nat) : Bool := 1024 ≤ (d.retired.filter (fun r => r.half = half)).length

/-- An instance lets go of its snapshots: walks fall, and retired tables without holders are freed (R213, R221). -/
def Dev.dropSnaps (d : Dev) (i : Inst) : Dev :=
  let d1 := i.kv.foldl (fun d s =>
    let r := d.seqRec s.seqRec
    if d.seqs.contains s.seqRec && r.ptPtr = s.table then d.putSeq s.seqRec { r with walks := r.walks - 1 } else d) d
  let me := (i.ctx, i.newer, i.task, i.mb)
  let upd := d1.retired.map (fun r => { r with holders := r.holders.filter (· ≠ me) })
  (upd.filter (fun r => r.holders.isEmpty)).foldl (fun d r => d.freeTable r)
    { d1 with retired := upd.filter (fun r => !r.holders.isEmpty) }

/-! ## Set, swap, create and release (R218, R220, R229) -/

/-- The tests of a new table (R218 items 2 to 4): its entries are well formed, an evicted entry is the current
table's own, and no frame's share count would exceed 255. -/
def Dev.checkTable (d : Dev) (half p table entries : Nat) (cur : Option (Nat × Nat)) : Status :=
  if table % 64 ≠ 0 || d.tableLive table || entries = 0 || 1048576 < entries then St.kvInvalid
  else
    let es := (List.range entries).map (d.ptEntry table)
    let same (k e : Nat) : Bool := match cur with
      | some (t, n) => decide (k < n) && d.ptEntry t k = e
      | none => false
    if (List.range entries).any (fun k =>
        let e := at' es k 0
        !d.entryOk half p e || (ptValid e && ptEvicted e && !same k e)) then St.kvInvalid
    else if es.any (fun e => ptValid e && !ptEvicted e &&
        255 ≤ d.shareCount half p (ptFrame e)) then St.kvShareLimit
    else St.ok

/-- The deep frames of a table that do not pass, as the same entries, to the table that replaces it (R218 item 3). -/
def Dev.deepLeftBy (d : Dev) (old oldN new newN : Nat) : List Nat :=
  ((List.range oldN).filter (fun k =>
    let e := d.ptEntry old k
    ptValid e && ptEvicted e && !(decide (k < newN) && d.ptEntry new k = e))).map (fun k => ptFrame (d.ptEntry old k))

/-- A swap of a sequence's table (R218): the status, whether the old table was freed at once, and the device. -/
def Dev.kvSwap (d : Dev) (a table entries expGen : Nat) (port : Option Nat) : Status × Bool × Dev :=
  let r := d.seqRec a
  let (half, p) := d.seqPool a
  if expGen ≠ r.gen ∨ r.provLen ≠ r.committedLen then (St.ptGeneration, false, d)
  else
    match d.checkTable half p table entries (some (r.ptPtr, r.ptEntries)) with
    | 0 =>
      let hold := d.holdersOf a r.ptPtr
      let d1 := d.putSeq a { r with ptPtr := table, ptEntries := entries, gen := (r.gen + 1) % 2 ^ 32, walks := 0 }
      let res := (d1.shareTable half p table entries).retire {
        half := half, pool := p, table := r.ptPtr, entries := r.ptEntries, holders := hold, port := port
        deep := d1.deepLeftBy r.ptPtr r.ptEntries table entries }
      (St.ok, res.2, res.1.fixDeepAny a)
    | st => (st, false, d)

/-- A set of one entry (R220). -/
def Dev.kvSet (d : Dev) (a index e expGen : Nat) : Status × Dev :=
  let r := d.seqRec a
  let (half, p) := d.seqPool a
  if expGen ≠ r.gen ∨ index < ceilDiv r.provLen 16 ∨ r.ptEntries ≤ index then (St.ptGeneration, d)
  else if !d.entryOk half p e || (ptValid e && ptEvicted e) then (St.kvInvalid, d)
  else if ptValid e && 255 ≤ d.shareCount half p (ptFrame e) && !d.namesFrame r.ptPtr r.ptEntries (ptFrame e) then (St.kvShareLimit, d)
  else
    let old := d.ptEntry r.ptPtr index
    let d1 := if ptValid old && ptEvicted old then d.deepGive half p (ptFrame old) else d
    (St.ok, (d1.changeEntry half p r.ptPtr r.ptEntries index e).fixDeepAny a)

/-- kv.release of an open sequence (R229): CLOSED, its table retired, its deep frames returned, its guard
lifted. -/
def Dev.kvRelease (d : Dev) (a expGen : Nat) : Status × Bool × Dev :=
  let r := d.seqRec a
  let (half, p) := d.seqPool a
  if expGen ≠ r.gen ∨ r.provLen ≠ r.committedLen then (St.ptGeneration, false, d)
  else
    let hold := d.holdersOf a r.ptPtr
    let d1 := (d.tableDeep r.ptPtr r.ptEntries).foldl (fun d i => d.deepGive half p i) d
    let d2 := { d1.putSeq a { r with flags := r.flags / 16 * 16 + r.flags % 8 / 2 * 2 } with seqs := d1.seqs.filter (· ≠ a) }
    let res := d2.retire { half := half, pool := p, table := r.ptPtr, entries := r.ptEntries, holders := hold, port := none }
    (St.ok, res.2, res.1)

/-! ## Eviction (R215) -/

/-- The pages of a table whose frames have share count 1, lowest first. -/
def Dev.evictable (d : Dev) (half p : Nat) (r : SeqRec) : List Nat :=
  (List.range r.ptEntries).filter (fun k =>
    let e := d.ptEntry r.ptPtr k
    ptValid e && !ptEvicted e && d.shareCount half p (ptFrame e) = 1)

/-- Set or clear LOCK of a record (R215). -/
def Dev.setLock (d : Dev) (a : Nat) (on : Bool) : Dev :=
  let r := d.seqRec a
  if d.seqs.contains a then d.putSeq a { r with flags := r.flags % 4 + r.flags / 8 * 8 + flag on 2 } else d

/-- The frames of a pool whose evictions are outstanding. -/
def Dev.leavingFrames (d : Dev) (half p : Nat) : Nat :=
  (d.deep.filter (fun q => q.kind = 4 && d.seqPool (q.target / 2 ^ 20) = (half, p))).length

/-- One page of a sequence begins to move to the deep region: the request holds the page, and its `task` the deep frame. -/
def Dev.evictPage (d : Dev) (half p a : Nat) (r : SeqRec) (k : Nat) : Dev :=
  match d.freeDeepList half p with
  | [] => d
  | l =>
    let ix := at' l (d.pick l.length) 0
    let f := ptFrame (d.ptEntry r.ptPtr k)
    let bytes := d.mem.readBytes (d.frameAddr half p f) (d.frameBytes half p)
    (d.drawn.deepTake half p ix).deepAsk
      { id := 0, half := half, kind := 4, ctx := r.ctx, newer := false, task := ix, mb := 0, target := a * 2 ^ 20 + k, data := bytes,
        poison := (d.poisoned? (d.frameAddr half p f) (d.frameBytes half p)).isSome }
      (d.deepFrameAddr half p ix) true bytes

/-- The end of an eviction: the generation rises and LOCK is cleared, once no page of the sequence is still on its way (R215). -/
def Dev.evictEnd (d : Dev) (a : Nat) : Dev :=
  if !d.seqs.contains a || d.deep.any (fun q => q.kind = 4 && q.target / 2 ^ 20 = a) then d
  else
    let r := d.seqRec a
    ((d.putSeq a { r with gen := (r.gen + 1) % 2 ^ 32 }).fixDeepAny a).setLock a false

/-- An eviction's page has reached the deep region, or has not: its entry becomes an evicted one and its frame is given up, or
the entry stays and the deep frame is free again (R215, R244). -/
def Dev.evictPageEnd (d : Dev) (q : DeepReq) (ok : Bool) : Dev :=
  let a := q.target / 2 ^ 20
  let r := d.seqRec a
  let hp := d.seqPool a
  if !d.seqs.contains a then d
  else if !ok then (d.deepGive hp.1 hp.2 q.task).evictEnd a
  else
    let at0 := d.deepFrameAddr hp.1 hp.2 q.task
    let d1 := (d.writeMem at0 q.data).changeEntry hp.1 hp.2 r.ptPtr r.ptEntries (q.target % 2 ^ 20) (entryDeep q.task)
    (if q.poison then upto (ceilDiv q.data.length 64) (fun i d => d.poisonLine (lineOf at0 + i)) d1 else d1).evictEnd a

/-- The victim of evict_oldest. -/
def Dev.kvVictim (d : Dev) (half p : Nat) : Option Nat :=
  if !bit (d.poolReg half p 0) 8 || d.poolReg half p 0x28 = 0 then none
  else
    let cand := d.seqs.filter (fun a =>
      let r := d.seqRec a
      halfOf a = half && r.pool = p && r.evictable && !r.lock && r.walks = 0 && r.provLen = r.committedLen)
    cand.foldl (fun (b : Option Nat) a =>
      match b with
      | none => some a
      | some x =>
        let k (y : Nat) : Nat × Nat := ((d.seqRec y).lastBell, y)
        if decide ((k a).1 < (k x).1) || ((k a).1 = (k x).1 && decide (a < x)) then some a else some x) none

/-- evict_oldest of R215 for a pool that needs `need` free frames: the device and whether it made progress. LOCK is held while
pages are on their way to the deep region. -/
def Dev.evictOldest (d : Dev) (half p need : Nat) : Dev × Bool :=
  match d.kvVictim half p with
  | none => (d, false)
  | some a =>
    let r := d.seqRec a
    let gain (d : Dev) : Nat := d.freeFrames half p + d.leavingFrames half p
    let d1 := upto r.ptEntries (fun k d =>
      let e := d.ptEntry r.ptPtr k
      if ceilDiv r.provLen 16 ≤ k && ptValid e then
        (if ptEvicted e then d.deepGive half p (ptFrame e) else d).changeEntry half p r.ptPtr r.ptEntries k 0
      else d) d
    let d2 := (d1.evictable half p r).foldl (fun d k => if need ≤ gain d then d else d.evictPage half p a r k) d1
    let d3 := (d2.setLock a true).evictEnd a
    (d3, decide (gain d < gain d3))

/-- Evict until a pool has `need` frames free or on their way, or a victim gives no progress. -/
def Dev.evictUntil (half p need : Nat) : Nat → Dev → Dev
  | 0, d => d
  | n + 1, d =>
    if need ≤ d.freeFrames half p + d.leavingFrames half p then d
    else
      let r := d.evictOldest half p need
      if r.2 then Dev.evictUntil half p need n r.1 else r.1

/-! ## Reservation at admission (R213) -/

/-- A word of a hub core's KV port. -/
def Dev.kvPortReg (d : Dev) (half core o : Nat) : Nat := d.rwGet (hubDie half) (0x05010000 + core * 64 + o) 0

/-- The record that the port names. -/
def Dev.kvPortSeq (d : Dev) (half core : Nat) : Nat := d.kvPortReg half core 0 + d.kvPortReg half core 4 * 2 ^ 32

/-- An operation on a record that waits arrived before a place in the order of arrival: of a port, of the mailbox or of an
admission (R208). -/
def Dev.seqBehind (d : Dev) (a since : Nat) : Bool :=
  d.hubs.any (fun p => decide (p.2.kvWait ≠ 0) && decide (p.2.kvSince < since) && decide (d.kvPortSeq (p.1 / 64) (p.1 % 64) = a))
  || d.host.inflight.any (fun x => decide (x.since < since) && (match x.cmd with
      | .kvSwap _ r _ _ _ => decide (r = a)
      | .kvSet _ r _ _ _ => decide (r = a)
      | .kvRelease _ r _ => decide (r = a)
      | _ => false))
  || d.insts.any (fun i => i.state = 0 && decide (i.waitLock = some a) && decide (i.since < since))

/-- The rows a task appends to each record: (record, rows), in increasing record DPA (R210, R213). -/
def appendRows (bs : List AppendBind) : List (Nat × Nat) :=
  let ks := bs.filter (fun b => b.side = 0)
  ((ks.map (·.seqRec)).foldl insertNat []).map (fun a =>
    (a, ((ks.filter (fun b => b.seqRec = a)).map (·.rowCount)).sum))

/-- The pages that an append of n rows from provisional length l touches. -/
def pagesOf (l n : Nat) : List Nat := (List.range (ceilDiv (l + n) 16 - l / 16)).map (l / 16 + ·)

/-- The pages of a gather range. -/
def GatherBind.pages (g : GatherBind) : List Nat :=
  (List.range ((g.keyStart + g.keyCount - 1) / 16 + 1 - g.keyStart / 16)).map (g.keyStart / 16 + ·)

/-- How a KV reservation ends. -/
inductive KvRes where
  | refuse (st : Status)
  /-- wait behind LOCK of a record, or behind an operation on it that began to wait earlier -/
  | locked (record : Nat)
  /-- wait for frames of a pool -/
  | frames (key : Nat)
  /-- evicted pages in range: (record, page) pairs to fetch -/
  | fetch (pages : List (Nat × Nat))
  | ok
deriving DecidableEq, Repr

/-- The entries of a task's appends that need a frame: (record, page). -/
def Dev.appendNeeds (d : Dev) (ap : List (Nat × Nat)) : List (Nat × Nat) :=
  ap.flatMap (fun x =>
    let r := d.seqRec x.1
    ((pagesOf r.provLen x.2).filter (fun p => !ptValid (d.ptEntry r.ptPtr p))).map (fun p => (x.1, p)))

/-- The evicted entries that a task's appends and gathers touch. -/
def Dev.evictedNeeds (d : Dev) (ap : List (Nat × Nat)) (gs : List GatherBind) : List (Nat × Nat) :=
  let ev (a p : Nat) : Bool := let e := d.ptEntry (d.seqRec a).ptPtr p; ptValid e && ptEvicted e
  ((ap.flatMap (fun x => ((pagesOf (d.seqRec x.1).provLen x.2).filter (ev x.1)).map (fun p => (x.1, p))))
    ++ (gs.flatMap (fun g => (g.pages.filter (ev g.seqRec)).map (fun p => (g.seqRec, p))))).dedup

/-- The refusals and waits of reserve_kv, in its order; `busy` says that another operation stands before this one on a record. -/
def Dev.kvRefusal (d : Dev) (busy : Nat → Bool) (ap : List (Nat × Nat)) (gs : List GatherBind) : Option KvRes :=
  let a := ap.findSome? (fun x =>
    let r := d.seqRec x.1
    let (half, p) := d.seqPool x.1
    if busy x.1 then some (.locked x.1)
    else if r.ptEntries ≤ (r.provLen + x.2 - 1) / 16 then some (.refuse St.ptCapacity)
    else if (pagesOf r.provLen x.2).any (fun k =>
        let e := d.ptEntry r.ptPtr k
        ptValid e && !ptEvicted e && decide (1 < d.shareCount half p (ptFrame e))) then some (.refuse St.pageShared)
    else none)
  match a with
  | some x => some x
  | none => gs.findSome? (fun g =>
      let r := d.seqRec g.seqRec
      if busy g.seqRec then some (.locked g.seqRec)
      else if g.pages.any (fun k => !ptValid (d.ptEntry r.ptPtr k)) then some (.refuse St.kvInvalid)
      else none)

/-- The pools that a list of (record, page) needs draws on, with the frames needed of each. -/
def Dev.poolNeeds (d : Dev) (ns : List (Nat × Nat)) : List (Nat × Nat × Nat) :=
  let ps := (ns.map (fun x => d.seqPool x.1)).dedup
  ps.map (fun hp => (hp.1, hp.2, (ns.filter (fun x => d.seqPool x.1 = hp)).length))

/-- The entries for which a reservation still needs a frame: those of its appends and gathers that it has reserved none for. -/
def Dev.kvNeeds (d : Dev) (x : Inst) (ap : List (Nat × Nat)) (gs : List GatherBind) : List (Nat × Nat) :=
  (d.appendNeeds ap ++ d.evictedNeeds ap gs).dedup.filter (fun n => !x.kvFrames.any (fun q => q.2.2 = n))

/-- A pool of a list of needs for whose frames an admission began to wait earlier: frames go in that order (R213). -/
def Dev.poolAhead (d : Dev) (x : Inst) (needs : List (Nat × Nat × Nat)) : Option Nat :=
  let mine := if x.waitPool.isSome then x.since else d.nextOrder
  (d.insts.find? (fun i => i.state = 0 && decide (i.since < mine) &&
    (match i.waitPool with | some k => needs.any (fun n => poolKey n.1 n.2.1 = k) | none => false))).bind (·.waitPool)

/-- reserve_kv of R213 up to the point where it takes frames: what it finds, and the device after the evictions
it began. -/
def Dev.kvProbe (d : Dev) (x : Inst) (busy : Nat → Bool) (ap : List (Nat × Nat)) (gs : List GatherBind) : KvRes × Dev :=
  match d.kvRefusal busy ap gs with
  | some r => (r, d)
  | none =>
    let needs := d.poolNeeds (d.kvNeeds x ap gs)
    match d.poolAhead x needs with
    | some k => (.frames k, d)
    | none =>
      let d1 := needs.foldl (fun d n => Dev.evictUntil n.1 n.2.1 n.2.2 (d.seqs.length + 1) d) d
      match (d1.poolNeeds (d1.kvNeeds x ap gs)).find? (fun n => d1.freeFrames n.1 n.2.1 < n.2.2) with
      | some n => (.frames (poolKey n.1 n.2.1), d1)
      | none =>
        let ev := d1.evictedNeeds ap gs
        if ev.isEmpty then (.ok, d1) else (.fetch ev, d1)

/-- Frames reserved for a list of needs, one each; which free frame is the device's choice (log entry 4). -/
def Dev.pickFrames (d : Dev) : List (Nat × Nat) → List (Nat × Nat × Nat × Nat) → Dev × List (Nat × Nat × Nat × Nat)
  | [], got => (d, got)
  | n :: r, got =>
    let hp := d.seqPool n.1
    let key := poolKey hp.1 hp.2
    let l := (d.freeFrameList hp.1 hp.2).filter (fun f => !got.any (fun q => q.1 = key && q.2.1 = f))
    Dev.pickFrames d.drawn r (if l.isEmpty then got else got ++ [(key, at' l (d.pick l.length) 0, n)])

/-- The records that a task appends to or walks, in increasing DPA. -/
def kvRecords (ap : List (Nat × Nat)) (gs : List GatherBind) : List Nat :=
  ((ap.map (·.1)) ++ (gs.map (·.seqRec))).foldl insertNat []

/-- A reservation that ends, or that has taken what it reserved, clears the LOCKs it holds. -/
def Dev.kvUnlock (d : Dev) (x : Inst) : Dev := x.kvLocks.foldl (fun d a => d.setLock a false) d

/-- The take of reserve_kv: frames installed in place, lengths raised, snapshots taken (R209, R213). -/
def Dev.kvTake (d : Dev) (x : Inst) (ap : List (Nat × Nat)) (gs : List GatherBind) : Dev × List KvSnap :=
  let r0 := d.pickFrames (d.kvNeeds x ap gs) []
  let d1 := (x.kvFrames ++ r0.2).foldl (fun (d : Dev) q =>
    let r := d.seqRec q.2.2.1
    let hp := d.seqPool q.2.2.1
    d.changeEntry hp.1 hp.2 r.ptPtr r.ptEntries q.2.2.2 (entryFrame q.2.1)) (r0.1.kvUnlock x)
  let recs := kvRecords ap gs
  let snaps := recs.map (fun a =>
    let r := d1.seqRec a
    { seqRec := a, table := r.ptPtr, entries := r.ptEntries, gen := r.gen, l := r.provLen,
      rows := match ap.find? (fun x => x.1 = a) with | some x => x.2 | none => 0 : KvSnap })
  let d2 := ap.foldl (fun d x => let r := d.seqRec x.1; d.putSeq x.1 { r with provLen := r.provLen + x.2 }) d1
  let d3 := recs.foldl (fun d a =>
    let r := d.seqRec a
    d.putSeq a { r with walks := r.walks + 1, lastBell := d.bell }) d2
  (d3, snaps)

/-- A fetched page returns to the frame reserved for it (R216): the entry is rewritten in place, gen rises, the deep index is
free again. What arrives for an admission that is no more is discarded. -/
def Dev.fetchPage (d : Dev) (q : DeepReq) (data : List Byte) (poison : Bool) : Dev :=
  let a := q.target / 2 ^ 20
  let p := q.target % 2 ^ 20
  let r := d.seqRec a
  let hp := d.seqPool a
  let e := d.ptEntry r.ptPtr p
  match (d.inst? q.ctx q.newer q.task q.mb).bind (fun x => (x.kvFrames.find? (fun z => z.2.2 = (a, p))).map (fun z => (x, z.2.1))) with
  | none => d
  | some (x, f) =>
    if !d.seqs.contains a || !(ptValid e && ptEvicted e) then d
    else
      let at0 := d.frameAddr hp.1 hp.2 f
      let d0 := d.updInst x (fun y => { y with kvFrames := y.kvFrames.filter (fun z => z.2.2 ≠ (a, p)) })
      let d1 := (((d0.writeMem at0 data).deepGive hp.1 hp.2 (ptFrame e)).changeEntry hp.1 hp.2 r.ptPtr r.ptEntries p (entryFrame f))
      let d2 := if poison then upto (ceilDiv (d.frameBytes hp.1 hp.2) 64) (fun i d => d.poisonLine (lineOf at0 + i)) d1 else d1
      (d2.putSeq a { r with gen := (r.gen + 1) % 2 ^ 32 }).fixDeepAny a

/-- A sequence's provisional length falls back to its committed length (R211). -/
def Dev.seqFallBack (d : Dev) (a : Nat) : Dev :=
  let r := d.seqRec a
  if d.seqs.contains a then d.putSeq a { r with provLen := r.committedLen } else d

/-! ## Guards (R219) -/

/-- The byte ranges that the KV guard covers: open records and current and retired tables, as (first byte, bytes). -/
def Dev.kvGuards (d : Dev) : List (Nat × Nat) :=
  d.seqs.flatMap (fun a => [(a, 64), ((d.seqRec a).ptPtr, 4 * (d.seqRec a).ptEntries)])
  ++ d.retired.map (fun r => (r.table, 4 * r.entries))

/-- A byte range meets one of a list. -/
def meets (l : List (Nat × Nat)) (a n : Nat) : Bool := l.any (fun r => decide (a < r.1 + r.2) && decide (r.1 < a + n))

end Sys2Proof.Machine
end

