-- ==== Sys2Proof/Machine/Memory.lean ====
section
/-! DEFINITION. Allocations, quotas and the page mover (chapter 09, R237 to R241). -/

namespace Sys2Proof.Machine

/-- HBM extents of one half that can be allocated: 4 stacks of 64 GiB in extents of 2 MiB (R234), less the two of
the park area (R372). -/
abbrev hbmExtents : Nat := 131070
/-- The deep tier's extents that are used: the attached device's, at most 8 TiB (R234). -/
def deepCapacity : Nat := min Config.deepExtents 4194304

/-- The extent keys (DPA / 2 MiB) of an allocation. -/
def Alloc.exts (a : Alloc) : List Nat := (List.range a.extents).map (a.base / 2 ^ 21 + ·)

/-- The HBM allocations of a half. -/
def Dev.hbmAllocs (d : Dev) (half : Nat) : List Alloc :=
  d.allocs.filter (fun a => tierOf a.base = 0 && halfOf a.base = half)

/-- An extent takes an HBM extent: its data lie there, or are on their way back to it. -/
def Extent.inHbm (x : Extent) : Bool := !x.evicted || x.moving = 2
/-- An extent takes a deep extent: its data lie there, or are on their way to it. -/
def Extent.inDeep (x : Extent) : Bool := x.evicted || x.moving = 1

/-- Free HBM extents of a half: those that no extent of an allocation and no retired extent takes. -/
def Dev.freeHbm (d : Dev) (half : Nat) : Nat :=
  hbmExtents - ((d.hbmAllocs half).map (fun a => (a.exts.filter (fun e => (d.extent e).inHbm)).length)).sum
    - (d.health.hbmRetired.filter (fun e => halfOf (e * 2 ^ 21) = half)).length

/-- The deep extents in use: deep allocations and evicted extents. -/
def Dev.deepTaken (d : Dev) : List Nat :=
  (d.allocs.filter (fun a => tierOf a.base = 8)).flatMap (fun a => a.exts.map (· % 2 ^ 22))
  ++ (d.extents.filter (fun p => p.2.inDeep)).map (fun p => p.2.deepExt)

/-- Free deep extents. -/
def Dev.deepFree (d : Dev) : List Nat := (List.range deepCapacity).filter (fun e => !d.deepTaken.contains e)

/-- An extent is held: an admitted task names it (R239). -/
def Dev.heldExt (d : Dev) (e : Nat) : Bool := d.insts.any (fun i => i.exts.contains e)

/-- The extent lies in a sump or a KV pool, which never move (R239). -/
def Dev.fixedExt (d : Dev) (e : Nat) : Bool :=
  let lo := e * 2 ^ 21
  let hi := lo + 2 ^ 21
  d.pools.any (fun p =>
    let half := p.1 / 256
    let pl := p.1 % 256
    let b := d.poolReg half pl 0x10 + d.poolReg half pl 0x14 * 2 ^ 32
    let n := d.poolFrames half pl * d.frameBytes half pl + ceilDiv (d.poolFrames half pl) 64 * 64
    p.2.owner.isSome && decide (b < hi) && decide (lo < b + n))
  || (List.range 16).any (fun k =>
    let die := hubDie (k / 8)
    let b := d.com64 die (0x07000004 + k % 8 * 64)
    let n := d.committed die (0x0700000C + k % 8 * 64) * 2 ^ 21
    decide (b < hi) && decide (lo < b + n))

/-- The deep quota a context has left (R238). -/
def Dev.deepLeft (d : Dev) (c : Nat) : Nat := (d.ctx c).deepQuota - d.deepUsed c

/-- The resident evictable extents of a half that rest and may move: (last access, extent, context). -/
def Dev.evictCands (d : Dev) (half : Nat) (only : Option Nat) : List (Nat × Nat × Nat) :=
  ((d.hbmAllocs half).filter (fun a => a.hint ≠ 2 && (match only with | some c => a.ctx = c | none => true))).flatMap (fun a =>
    (a.exts.filter (fun e => !(d.extent e).evicted && decide ((d.extent e).moving = 0) && !d.heldExt e && !d.fixedExt e)).map
      (fun e => ((d.extent e).last, e, a.ctx)))

/-- The victim: lowest last-access bell, then lowest DPA, among contexts with deep quota left (R239). -/
def Dev.extVictim (d : Dev) (half : Nat) (only : Option Nat) : Option (Nat × Nat) :=
  let l := (d.evictCands half only).filter (fun x => 0 < d.deepLeft x.2.2)
  (l.foldl (fun (b : Option (Nat × Nat × Nat)) x =>
    match b with
    | none => some x
    | some y => if x.1 < y.1 ∨ (x.1 = y.1 ∧ x.2.1 < y.2.1) then some x else some y) none).map (·.2)

/-- For whom the page mover works: an admission, a mailbox command by the id of its entry in the in-flight table, or the device
itself. -/
inductive Mover where
  | inst (x : Inst)
  | cmd (ctx id : Nat)
  | device
deriving DecidableEq, Repr

/-- A request of the page mover that bears its owner. -/
def Mover.req (m : Mover) (half kind e : Nat) : DeepReq :=
  match m with
  | .inst x => { id := 0, half := half, kind := kind, ctx := x.ctx, newer := x.newer, task := x.task, mb := x.mb, target := e }
  | .cmd c i => { id := 0, half := half, kind := kind, ctx := c, newer := false, task := 0, mb := 0, target := e, cmd := some i }
  | .device => { id := 0, half := half, kind := kind, ctx := 8, newer := false, task := 0, mb := 0, target := e }

/-- One extent begins to move to a deep extent of its context (R237, R239): the copy goes out with its poison, and the extent
stays where it is until the deep tier has answered. -/
def Dev.evictExt (d : Dev) (m : Mover) (e : Nat) : Dev × Bool :=
  match d.deepFree with
  | [] => (d, false)
  | l =>
    let x := at' l (d.pick l.length) 0
    ((d.drawn.setExtent e { d.extent e with moving := 1, deepExt := x }).deepAsk
      { m.req (halfOf (e * 2 ^ 21)) 3 e with poison := (d.poisoned? (e * 2 ^ 21) (2 ^ 21)).isSome }
      (8 * 2 ^ 48 + x * 2 ^ 21) true [], true)

/-- An eviction's copy has been answered: the translation is retargeted and the HBM extent is free, or nothing has changed
(R239, R244). The extent's DPA and its bytes stay. -/
def Dev.evictExtEnd (d : Dev) (e : Nat) (ok : Bool) : Dev :=
  if (d.extent e).moving ≠ 1 then d
  else if ok then d.setExtent e { d.extent e with evicted := true, moving := 0 }
  else d.setExtent e { d.extent e with moving := 0, deepExt := 0 }

/-- The HBM extents of a half that evictions under way will free. -/
def Dev.leavingHbm (d : Dev) (half : Nat) : Nat :=
  ((d.hbmAllocs half).map (fun a => (a.exts.filter (fun e => (d.extent e).moving = 1)).length)).sum

/-- How far evict_for has come: the extents are free, on their way to be free, or cannot be had. -/
inductive EvictRes where
  | ok
  | busy
  | fail
deriving DecidableEq, Repr

/-- evict_for of R239, with at most `fuel` moves begun. -/
def Dev.evictFor (m : Mover) (half n : Nat) : Nat → Dev → Dev × EvictRes
  | 0, d => (d, if n ≤ d.freeHbm half then .ok else .fail)
  | k + 1, d =>
    if n ≤ d.freeHbm half then (d, .ok)
    else if n ≤ d.freeHbm half + d.leavingHbm half then (d, .busy)
    else match d.extVictim half none with
      | none => (d, .fail)
      | some v =>
        let r := d.evictExt m v.1
        if r.2 then Dev.evictFor m half n k r.1 else (d, .fail)

/-- evict_for in the halves of a list, with the extents needed in each. -/
def Dev.evictHalves (m : Mover) (ns : List (Nat × Nat)) (d : Dev) : Dev × EvictRes :=
  (ns.filter (fun n => n.2 ≠ 0)).foldl (fun r n =>
    match r.2 with
    | .fail => r
    | s =>
      let q := Dev.evictFor m n.1 n.2 (hbmExtents + 1) r.1
      (q.1, if q.2 = .ok then s else q.2)) (d, .ok)

/-- Evicted extents that have an HBM extent each are fetched into it (R240). -/
def Dev.fetchExts (d : Dev) (m : Mover) (kind : Nat) (exts : List Nat) : Dev :=
  exts.foldl (fun d e =>
    (d.setExtent e { d.extent e with moving := 2 }).deepAsk (m.req (halfOf (e * 2 ^ 21)) kind e)
      (8 * 2 ^ 48 + (d.extent e).deepExt * 2 ^ 21) false []) d

/-- The page mover brings evicted extents back (R240): HBM extents are found for those not on their way yet, evicting where
needed, and then taken. -/
def Dev.fetchFor (d : Dev) (m : Mover) (kind : Nat) (exts : List Nat) : Dev × EvictRes :=
  let rest := exts.filter (fun e => (d.extent e).evicted && decide ((d.extent e).moving = 0))
  let need (h : Nat) : Nat := (rest.filter (fun e => halfOf (e * 2 ^ 21) = h)).length
  let r := Dev.evictHalves m [(0, need 0), (1, need 1)] d
  if r.2 = .ok then (r.1.fetchExts m kind rest, .ok) else r

/-- A fetch brings an extent back (R240): its data, and their poison, replace what the extent held. Data that the response does
not spell out are those the extent had when it left. -/
def Dev.fetchExt (d : Dev) (e : Nat) (data : List Byte) (poison : Bool) : Dev :=
  let d1 := d.setExtent e { d.extent e with evicted := false, moving := 0, deepExt := 0 }
  let d2 := if data.isEmpty then d1 else d1.writeMem (e * 2 ^ 21) (data.take (2 ^ 21))
  let n := if data.isEmpty then 2 ^ 21 else min data.length (2 ^ 21)
  if poison then upto (ceilDiv n 64) (fun i d => d.poisonLine (e * 2 ^ 15 + i)) d2 else d2

/-- A fetch has failed: the HBM extent taken for it is free again. -/
def Dev.fetchExtFail (d : Dev) (e : Nat) : Dev :=
  if (d.extent e).moving = 2 then d.setExtent e { d.extent e with moving := 0 } else d

/-- The first DPAs at which n extents are free in each of the given halves (or in the deep tier). -/
def Dev.freeBases (d : Dev) (deep : Bool) (halves : List Nat) (n : Nat) : List Nat :=
  let cap := if deep then deepCapacity else hbmExtents
  let base (h : Nat) : Nat := if deep then 8 * 2 ^ 48 else h * 2 ^ 47
  let clash (h i : Nat) : Bool :=
    let lo := base h + i * 2 ^ 21
    d.allocs.any (fun a => decide (a.base < lo + n * 2 ^ 21) && decide (lo < a.base + a.extents * 2 ^ 21))
    || (deep && (List.range n).any (fun j => d.deepTaken.contains (i + j)))
  (List.range (cap + 1 - n)).filter (fun i => !(halves.any (fun h => clash h i)))

/-- Extents a context has allocated in a half, evicted ones included (R238). -/
def Dev.hbmUsed (d : Dev) (c half : Nat) : Nat := (d.ctxExtents c false half).length

/-- What a command of the memory service has come to: its status and device, or a wait for the page mover. -/
inductive MemRes where
  | ends (st : Status) (v : Nat) (d : Dev)
  | waits (d : Dev)
deriving DecidableEq, Repr

/-- mem.alloc (R237, R238, R241): the status and the DPA. `half` 2 is both. It waits for the evictions it needs and for
nothing else. -/
def Dev.memAlloc (d : Dev) (m : Mover) (c bytes half hint : Nat) (parity : Bool) : MemRes :=
  let n := ceilDiv bytes (2 ^ 21)
  let halves := if half = 2 then [0, 1] else [half]
  if 2 < half then .ends St.reservedNonzero 0 d
  else if hint ≠ 2 ∧ hint ≠ 3 ∧ hint ≠ 4 then .ends St.hintMismatch 0 d
  else if bytes = 0 then .ends St.allocInvalid 0 d
  else if halves.any (fun h => !d.halfOn h) then .ends St.dpaInvalid 0 d
  else if hint = 4 then
    if (d.ctx c).deepQuota < d.deepUsed c + n then .ends St.quotaExceeded 0 d
    else match d.freeBases true [0] n with
      | [] => .ends St.hbmExhausted 0 d
      | l =>
        let i := at' l (d.pick l.length) 0
        let a : Alloc := { ctx := c, base := 8 * 2 ^ 48 + i * 2 ^ 21, extents := n, hint := 4, parity := parity, both := false }
        .ends St.ok a.base { d.drawn with allocs := d.allocs ++ [a] }
  else if halves.any (fun h => at' (d.ctx c).hbmQuota h 0 < d.hbmUsed c h + n) then .ends St.quotaExceeded 0 d
  else
    let r := Dev.evictHalves m (halves.map (fun h => (h, n))) d
    match r.2, r.1.freeBases false halves n with
    | .fail, _ | .ok, [] | .busy, [] => .ends St.hbmExhausted 0 r.1
    | .busy, _ => .waits r.1
    | .ok, l =>
      let i := at' l (d.pick l.length) 0
      let new := halves.map (fun h =>
        { ctx := c, base := h * 2 ^ 47 + i * 2 ^ 21, extents := n, hint := hint, parity := parity, both := half = 2 : Alloc })
      let d1 := { r.1.drawn with allocs := r.1.allocs ++ new }
      let d2 := new.foldl (fun d a => a.exts.foldl (fun d e => d.setExtent e { last := d.bell }) d) d1
      .ends St.ok (if half = 2 then i * 2 ^ 21 else half * 2 ^ 47 + i * 2 ^ 21) d2

/-- The allocations that a command naming a DPA acts on: the one that starts there, or both of its pair (R237). -/
def Dev.allocsAt (d : Dev) (c dpa : Nat) : List Alloc :=
  match d.allocs.find? (fun a => a.ctx = c && a.base = dpa && !a.freeing) with
  | none => []
  | some a =>
    if a.both then d.allocs.filter (fun b => b.ctx = c && b.both && b.base % 2 ^ 47 = a.base % 2 ^ 47) else [a]

/-- Give an allocation's extents back; a copy or fetch of one that is under way ends with it. -/
def Dev.dropAlloc (d : Dev) (a : Alloc) : Dev :=
  a.exts.foldl (fun d e => d.setExtent e {}) { d with
    allocs := d.allocs.filter (· ≠ a)
    deep := d.deep.filter (fun q => !((q.kind = 1 || q.kind = 3 || q.kind = 6) && a.exts.contains q.target)) }

/-- Free an allocation, at once or when its last holder completes (R241). -/
def Dev.memFree (d : Dev) (a : Alloc) : Dev :=
  if a.exts.any d.heldExt then
    { d with allocs := d.allocs.map (fun b => if b = a then { b with freeing := true } else b) }
  else d.dropAlloc a

/-- Free the allocations that were held when mem.free named them and no longer are. -/
def Dev.reapFreeing (d : Dev) : Dev :=
  (d.allocs.filter (fun a => a.freeing && !a.exts.any d.heldExt)).foldl (fun d a => d.dropAlloc a) d

/-- Extents of a context in a half that an allocation pins (R238, R259). -/
def Dev.pinnedExts (d : Dev) (c half : Nat) : Nat :=
  ((d.ctxExtents c false half).filter (fun e => e.1.hint = 2)).length
/-- Extents of a context that take HBM extents of a half. -/
def Dev.residentExts (d : Dev) (c half : Nat) : Nat :=
  ((d.ctxExtents c false half).filter (fun e => (d.extent e.2).inHbm)).length
/-- Extents of a context in a half on their way to the deep tier. -/
def Dev.leavingExts (d : Dev) (c half : Nat) : Nat :=
  ((d.ctxExtents c false half).filter (fun e => (d.extent e.2).moving = 1)).length

/-- Move a context's oldest evictable extents away until its use meets a quota, its deep use within a deep quota (R238). -/
def Dev.shrinkTo (m : Mover) (c half quota deep : Nat) : Nat → Dev → Dev × EvictRes
  | 0, d => (d, if d.residentExts c half ≤ quota then .ok else .fail)
  | k + 1, d =>
    if d.residentExts c half ≤ quota then (d, .ok)
    else if d.residentExts c half ≤ quota + d.leavingExts c half then (d, .busy)
    else if deep ≤ d.deepUsed c then (d, .fail)
    else match d.extVictim half (some c) with
      | none => (d, .fail)
      | some v =>
        let r := d.evictExt m v.1
        if r.2 then Dev.shrinkTo m c half quota deep k r.1 else (d, .fail)

/-- mem.quota of R238 on the given halves, the deep quota with it: the quotas take effect once the context's use meets them. -/
def Dev.memQuota (d : Dev) (m : Mover) (c : Nat) (halves : List Nat) (hbm deep : Nat) : MemRes :=
  if halves.any (fun h => hbm < d.pinnedExts c h) || deep < d.deepUsed c then .ends St.quotaExceeded 0 d
  else
    let r := halves.foldl (fun (a : Dev × EvictRes) h =>
      match a.2 with
      | .fail => a
      | s =>
        let q := Dev.shrinkTo m c h hbm deep (d.residentExts c h + 1) a.1
        (q.1, if q.2 = .ok then s else q.2)) (d, .ok)
    match r.2 with
    | .fail => .ends St.quotaExceeded 0 d
    | .busy => .waits r.1
    | .ok => .ends St.ok 0 (r.1.updCtx c (fun x => { x with hbmQuota := halves.foldl (fun q h => setAt q h hbm) x.hbmQuota, deepQuota := deep }))

/-! ## Tracker slots and KV pools (R493) -/

/-- A pool of the range holds an OPEN sequence or a current or retired table (R493). -/
def Dev.poolBusy (d : Dev) (half p : Nat) : Bool :=
  d.seqs.any (fun a => d.seqPool a = (half, p)) || d.retired.any (fun r => r.half = half && r.pool = p)

/-- Every bank of the given staged registers back at its reset value, and their group disarmed. -/
def Dev.resetRegs (d : Dev) (die : Nat) (offs : List Nat) : Dev :=
  let drop (m : SMap Word) : SMap Word := offs.foldl (fun m o => m.erase (regKey die o)) m
  { d with bank := { d.bank with staged := drop d.bank.staged, armed := drop d.bank.armed, committed := drop d.bank.committed } }

/-- Assign one slot (kind 0) or pool (kind 1); a newly assigned one starts with the reset values of all its
registers in all three banks (R493). -/
def Dev.assignOne (d : Dev) (c kind half n : Nat) : Dev :=
  let gid := groupId (1 + kind) n
  let fresh := { (d.resetRegs (hubDie half) (groupOffsets gid)) with
    bank := { (d.resetRegs (hubDie half) (groupOffsets gid)).bank with
      armedGroups := d.bank.armedGroups.filter (fun g => !(g.1 = gid && g.2.1 = half)) } }
  if kind = 0 then
    if (d.slot (slotKey half n)).owner = some c then d else fresh.setSlot (slotKey half n) { owner := some c }
  else
    if (d.pool (poolKey half n)).owner = some c then d else fresh.setPool (poolKey half n) { owner := some c }

/-- Release one slot or pool of a context (R493). -/
def Dev.releaseOne (d : Dev) (c kind half n : Nat) : Dev :=
  if kind = 0 then
    if (d.slot (slotKey half n)).owner = some c then d.setSlot (slotKey half n) {} else d
  else
    if (d.pool (poolKey half n)).owner = some c then d.setPool (poolKey half n) {} else d

/-- The owner of a slot or pool. -/
def Dev.ownerOf (d : Dev) (kind half n : Nat) : Option Nat :=
  if kind = 0 then (d.slot (slotKey half n)).owner else (d.pool (poolKey half n)).owner

/-- mem.assign of R493. -/
def Dev.memAssign (d : Dev) (c kind op half first count : Nat) : Status × Dev :=
  let halves := if half = 2 then [0, 1] else [half]
  let top := if kind = 0 then 4096 else 256
  if 1 < kind ∨ 1 < op ∨ 2 < half then (St.reservedNonzero, d)
  else
    let range := (List.range count).map (first + ·)
    if count = 0 || top < first + count || halves.any (fun h => !d.halfOn h)
      || halves.any (fun h => range.any (fun n => match d.ownerOf kind h n with | some o => o ≠ c | none => false))
    then (St.allocInvalid, d)
    else if op = 0 then
      (St.ok, halves.foldl (fun d h => range.foldl (fun d n => d.assignOne c kind h n) d) d)
    else if (d.ctx c).older.isSome || (kind = 1 && halves.any (fun h => range.any (fun n => d.poolBusy h n)))
    then (St.ctxBusy, d)
    else (St.ok, halves.foldl (fun d h => range.foldl (fun d n => d.releaseOne c kind h n) d) d)

end Sys2Proof.Machine
end

