-- ==== Sys2Proof/Machine/Stash.lean ====
section
/-! DEFINITION. The stash and its sumps (chapter 09, R245 to R252): stage reservations, items, placement and the
stash policy. -/

namespace Sys2Proof.Machine

/-- SHARE in force of a context in a half (R260). -/
def Dev.stashShare (d : Dev) (half c : Nat) : Nat := d.committed (hubDie half) (0x07000000 + c * 64)
/-- The blocks of a context's sump in force (R247, R260). -/
def Dev.sumpBlocks (d : Dev) (half c : Nat) : Nat := 32 * d.committed (hubDie half) (0x0700000C + c * 64)
/-- cap of R247. -/
def Dev.stashCap (d : Dev) (half c : Nat) : Nat := d.stashShare half c + d.sumpBlocks half c
/-- The blocks a context has reserved in a half (R247). -/
def Dev.stashReserved (d : Dev) (half c : Nat) : Nat :=
  ((d.resvs.filter (fun r => r.ctx = c && r.half = half)).map (·.blocks)).sum

/-- The blocks a context has placed in a half's sump, excess included. -/
def Dev.sumpUsed (d : Dev) (half c : Nat) : Nat :=
  ((d.items.filter (fun i => i.ctx = c && i.half = half)).map (fun i => i.blocks - i.inStash)).sum

/-- The stage reservation of a micro-batch: the declarations of the stage's forward tasks (R246). -/
def Dev.stageDecl (d : Dev) (g : GraphHdr) (stage : Nat) : Nat :=
  (((List.range g.taskCount).map (d.graphTask g)).filter (fun t => t.stage = stage && t.forward)).map (·.stashDecl) |>.sum

/-- Extents for n blocks beyond the cap, taken at once from the context's quota as one evictable allocation
(R251): none where the quota or the free list cannot give them. -/
def Dev.spillExtents (d : Dev) (c : Nat) (newer : Bool) (half blocks : Nat) : Option Dev :=
  let n := ceilDiv blocks 32
  if n = 0 then some d
  else if at' (d.ctx c).hbmQuota half 0 < d.hbmUsed c half + n ∨ d.freeHbm half < n then none
  else match d.freeBases false [half] n with
    | [] => none
    | l =>
      let b := half * 2 ^ 47 + at' l (d.pick l.length) 0 * 2 ^ 21
      let a : Alloc := { ctx := c, base := b, extents := n, hint := 3, parity := false, both := false }
      let d1 := { d.drawn with allocs := d.allocs ++ [a] }
      some ((a.exts.foldl (fun d e => d.setExtent e { last := d.bell }) d1).updStep c newer
        (fun r => { r with spill := b :: r.spill }))

/-- How a stash request ends: taken, a wait, or the graph's policy acts (R247, R250, R251). -/
inductive StashRes where
  | ok (d : Dev)
  | wait
  | recompute
  | exhausted
deriving DecidableEq, Repr

/-- reserve_stash of R247 for a micro-batch's stage; a reservation waits behind those that began to wait before
it (`ahead`). One that the cap can never hold goes by the policy; SPILL never waits, so that what the cap does not hold at that
moment goes to spill extents (R251; log entry 62). -/
def Dev.reserveStash (d : Dev) (c : Nat) (newer : Bool) (half mb stage policy need : Nat) (ahead : Bool) : StashRes :=
  let cap := d.stashCap half c
  let left := cap - d.stashReserved half c
  let put (d : Dev) (n : Nat) : Dev :=
    { d with resvs := d.resvs ++ [{ ctx := c, newer := newer, half := half, mb := mb, stage := stage, blocks := n }] }
  if cap < need then
    if policy = 0 then
      match d.spillExtents c newer half (need - left) with
      | some d1 => .ok (put d1 left)
      | none => .exhausted
    else if policy = 1 then .recompute else .exhausted
  else if ahead ∨ left < need then .wait
  else .ok (put d need)

/-- Bytes of a descriptor's storage, row strides included. -/
def TD.span (t : TD) : Nat :=
  let last : Pos := ⟨0, t.dim1 - 1, t.dim2 - 1, t.dim3 - 1⟩
  t.rowAddr last + t.rowBytes - t.base

/-- The 64 KiB blocks of a stash item (R246). -/
def TD.stashBlocks (t : TD) : Nat := ceilDiv (t.span + t.base % 65536) 65536

/-- The items and the reservation of a micro-batch's stage are released (R249). -/
def Dev.releaseStage (d : Dev) (c : Nat) (newer : Bool) (mb stage : Nat) : Dev :=
  { d with
    items := d.items.filter (fun i => !(i.ctx = c && i.newer = newer && i.mb = mb && i.stage = stage))
    resvs := d.resvs.filter (fun r => !(r.ctx = c && r.newer = newer && r.mb = mb && r.stage = stage)) }

/-- Every item and reservation of a step is released (R249, R252). -/
def Dev.releaseStash (d : Dev) (c : Nat) (newer : Bool) : Dev :=
  { d with
    items := d.items.filter (fun i => !(i.ctx = c && i.newer = newer))
    resvs := d.resvs.filter (fun r => !(r.ctx = c && r.newer = newer)) }

end Sys2Proof.Machine
end

