-- ==== Sys2Proof/Machine/Cfg.lean ====
section
/-! DEFINITION. Agreement groups (chapter 17): the checks of a commit, arming, and the boundaries at which an
armed bank becomes the committed one. -/

namespace Sys2Proof.Machine

/-! ## The checks that the chapters give -/

/-- The stride of a pool row in bytes (R203). -/
def poolStride (fmt w : Nat) : Nat :=
  let nb := w / 32
  let row := if isMx fmt then ceilDiv nb 64 * 64 + nb * blockBytes fmt else 2 * w
  ceilDiv row 64 * 64

/-- R203's formats of a pool. -/
def poolFmt (fmt : Nat) : Bool := (1 ≤ fmt && fmt ≤ 6) || fmt = 8 || fmt = 9

/-- A tracker-slot field names no slot or one that a context holds in a half (R232). -/
def Dev.slotFieldOk (d : Dev) (half s : Nat) (owner : Option Nat) : Bool :=
  s = 0xFFFFFFFF || (decide (s < 4096) && (d.slot (slotKey half s)).owner.isSome && (d.slot (slotKey half s)).owner = owner)

/-- ATN_POOL's conditions on the candidate (R232). -/
def Dev.poolCheck (d : Dev) (half p : Nat) (v : Nat → Nat) : Bool :=
  let b := 0x05000000 + p * 64
  let fmt := v b % 256
  let w := v (b + 4)
  let base := v (b + 0x10) + v (b + 0x14) * 2 ^ 32
  let frames := v (b + 0x18)
  let size := frames * (v (b + 8) * 64) + ceilDiv frames 64 * 64
  poolFmt fmt && 32 ≤ w && w ≤ 4096 && w % 32 = 0 && v (b + 8) * 64 = 32 * poolStride fmt w
  && tierOf base = 0 && halfOf base = half && decide (base % 2 ^ 47 + size ≤ 2 ^ 38)
  && fp32Positive (v (b + 0x0C)) && d.slotFieldOk half (v (b + 0x1C)) (d.pool (poolKey half p)).owner
  && 1 ≤ v (b + 0x2C) && v (b + 0x2C) ≤ 1000

/-- A field of a pool other than EVICT_EN and DEADLINE differs from its committed value (R205, R232). -/
def Dev.poolMoves (d : Dev) (half p : Nat) (v : Nat → Nat) : Bool :=
  let b := 0x05000000 + p * 64
  (groupOffsets (groupId 2 p)).any (fun o =>
    let old := d.committed (hubDie half) o
    if o = b then v o % 256 ≠ old % 256 else o ≠ b + 0x2C && v o ≠ old)

/-- The states in which an attempt or its exchange is under way: RUNNING, SEALING, ABANDONED, REPLAYING. -/
def StepRun.live (r : StepRun) : Bool := r.state = 2 || r.state = 3 || r.state = 5 || r.state = 6
/-- RUNNING or SEALING. -/
def StepRun.runs (r : StepRun) : Bool := r.state = 2 || r.state = 3

/-- A context's steps that satisfy a condition exist. -/
def Ctx.anyStep (x : Ctx) (p : StepRun → Bool) : Bool :=
  (match x.older with | some r => p r | none => false) || (match x.newer with | some r => p r | none => false)

/-- The graphs that the attempts of a step may run: its graph, the wide form and the recompute forms (R142, R251). -/
def Dev.stepForms (d : Dev) (c gid : Nat) : List GraphHdr :=
  match d.stepGraph c gid with
  | none => []
  | some g =>
    let ws := (d.stepGraph c g.wide).toList
    [g] ++ ws ++ (g :: ws).filterMap (fun x => d.stepGraph c x.recompute)

/-- A step of the half, in a state that satisfies a condition, names update program ix (R168). -/
def Dev.progUsed (d : Dev) (half ix : Nat) (p : StepRun → Bool) : Bool :=
  (List.range 8).any (fun c => (d.ctx c).anyStep (fun r =>
    p r && (d.stepForms c r.p.graph).any (fun g => (List.range g.taskCount).any (fun i =>
      let t := d.graphTask g i
      t.op = opUpdate && t.half = half && (d.updRec c t.aux).prog = 0x80 + ix))))

/-- The operations of an update program word that use RA, RB, RC, RD and the bound of IMM (R166): none for a
reserved code. -/
def updOpUse (op : Nat) : Option (Bool × Bool × Bool × Bool × Nat) :=
  match op with
  | 0x00 => some (false, false, false, false, 0)
  | 0x01 => some (true, false, false, false, 8)
  | 0x02 => some (true, false, false, false, 20)
  | 0x03 => some (false, true, false, false, 4)
  | 0x04 => some (false, true, false, false, 0)
  | 0x05 => some (false, true, false, false, 12)
  | 0x06 => some (false, true, false, false, 4)
  | 0x07 => some (false, false, false, false, 0)
  | 0x08 | 0x09 | 0x0A | 0x0B | 0x0F | 0x10 => some (true, true, true, false, 0)
  | 0x0C | 0x13 => some (true, true, true, true, 0)
  | 0x0D | 0x0E | 0x11 | 0x12 => some (true, true, false, false, 0)
  | _ => none

/-- A program word is well formed: no reserved operation, no unused field set, IMM in range (R166, R168). -/
def updWordOk (w : Nat) : Bool :=
  let op := bits w 31 26
  let imm := bits w 5 0
  match updOpUse op with
  | none => false
  | some (rd, ra, rb, rc, n) =>
    (rd || bits w 25 21 = 0) && (ra || bits w 20 16 = 0) && (rb || bits w 15 11 = 0) && (rc || bits w 10 6 = 0)
    && (if n = 0 then imm = 0 else decide (imm < n))
    && (op ≠ 0x02 || !(13 ≤ imm && imm ≤ 15)) && (op ≠ 0x05 || 10 ≤ imm)

/-- The words of a program up to END, none where no END stands within 256 words. -/
def progWords (l : List Nat) : Option (List Nat) :=
  let body := l.takeWhile (fun w => bits w 31 26 ≠ 0)
  if body.length < l.length then some body else none

/-- UPD_PROG's conditions on the candidate (R168). -/
def progCheck (l : List Nat) : Bool :=
  match progWords l with
  | none => false
  | some body => body.all updWordOk && l[body.length]? = some 0 && decide ((body.filter (fun w => bits w 31 26 = 7)).length ≤ 1)

/-- The class of the device as a number, L before the class is fixed. -/
def Dev.classNo (d : Dev) : Nat := d.pwr.cls.getD 0

/-- PWR's conditions: no value below the range of R419 (R489). -/
def Dev.pwrCheck (d : Dev) (v : Nat → Nat) : Bool :=
  decide (classPower d.classNo ≤ 10 * v 0x00020008) && 400 ≤ v 0x0002000C && v 0x0002000C % 25 = 0 && 70 ≤ v 0x00020010
  && (List.range 30).all (fun n => 25 ≤ v (0x00020040 + n * 4))

/-- The hardware value of a limit register (R419). -/
def Dev.hwLimit (d : Dev) (off : Nat) : Nat :=
  if off = 0x00020008 then classPower d.classNo else if off = 0x0002000C then classClock d.classNo
  else if off = 0x00020010 then 95 else 100

/-- The conditions of a group's check on the candidate alone. -/
def Dev.groupCheck (d : Dev) (gid half : Nat) (v : Nat → Nat) : Bool :=
  let ix := gid % 4096
  match gid / 4096 with
  | 1 =>
    let b := 0x02000000 + ix * 256
    let j := fp32Val (word (v (b + 8)))
    v b % 4 ≠ 3 && 1 ≤ bits (v b) 19 12 && bits (v b) 19 12 ≤ 0x0B && j.isFin && decide (1 < j.toRat)
  | 2 => d.poolCheck half ix v
  | 3 => progCheck ((List.range 256).map (fun i => v (0x03002000 + ix * 1024 + i * 4)))
  | 4 => 1 ≤ bits (v (0x02100000 + ix * 32)) 12 8
  | 5 => fp32Positive (v (0x03000004 + ix * 64)) && decide (v (0x0300002C + ix * 64) ≤ 65536)
  | 6 =>
    let w := v (0x06000018 + ix * 64)
    1 ≤ w % 65536 && w % 65536 ≤ 10000 && 1 ≤ bits w 25 16 && bits w 25 16 ≤ 1000
  | 7 =>
    let b := 0x07000000 + ix * 64
    let die := hubDie half
    let others := ((List.range 8).filter (· ≠ ix)).map (fun c => d.committed die (0x07000000 + c * 64))
    let base := v (b + 4) + v (b + 8) * 2 ^ 32
    let n := v (b + 0xC)
    decide (others.sum + v b ≤ 16384)
    && (n = 0 || d.allocs.any (fun a => a.ctx = ix && a.hint = 2 && tierOf a.base = 0 && halfOf a.base = half
        && decide (a.base ≤ base) && decide (base + n * 2 ^ 21 ≤ a.base + a.extents * 2 ^ 21)))
  | 10 => 1 ≤ v (0x09030000 + ix * 32) % 256
  | 11 =>
    let w := v (0x09040018 + ix * 32)
    8 ≤ w % 65536 && w % 65536 ≤ 1000 && 5 ≤ bits w 23 16 && bits w 23 16 ≤ 50
  | 12 =>
    match ix with
    | 0 =>
      let w := v 0x0B000008
      60 ≤ bits w 10 0 && bits w 10 0 ≤ 1440 && 5 ≤ bits w 17 11 && bits w 17 11 ≤ 120
    | 5 => d.pwrCheck v
    | _ => true
  | _ => true

/-- The conditions of a group's check that depend on the device's state, tested again at the boundary (R455). -/
def Dev.stateCheck (d : Dev) (gid half : Nat) (v : Nat → Nat) : Bool :=
  let ix := gid % 4096
  match gid / 4096 with
  | 2 => !(d.poolBusy half ix && d.poolMoves half ix v)
  | 3 => !d.progUsed half ix StepRun.runs
  | 7 =>
    !((d.ctx ix).anyStep StepRun.runs && (groupOffsets gid).any (fun o => v o ≠ d.committed (hubDie half) o))
  | 12 =>
    if ix = 3 then
      (List.range 48).all (fun c =>
        let o := 0x0F000040 + c / 8 * 4
        let new := bits (v o) (c % 8 * 4 + 3) (c % 8 * 4)
        new = d.hubNibble half c ||
          ((d.hub (hubKey half c)).stack.isEmpty &&
            match d.hubCtx half c with
            | some x => !(d.ctx x).anyStep StepRun.runs
            | none => true))
    else true
  | _ => true

/-! ## Arming (R454) -/

/-- The staged value of a group's register as the candidate. -/
def Dev.candidate (d : Dev) (half : Nat) (off : Nat) : Nat := d.staged (hubDie half) off

/-- The armed value of a register, its committed value where none is armed. -/
def Dev.armedVal (d : Dev) (half off : Nat) : Nat :=
  match d.armed? (hubDie half) off with | some w => w.toNat | none => d.committed (hubDie half) off

/-- The key of a group's instance in `Banks.done`. -/
def doneKey (gid half : Nat) : Nat := gid * 2 + half

/-- Record how a group's last commit ended (R454, R469). -/
def Dev.setDone (d : Dev) (gid half : Nat) (st : Status) (bell : Nat) : Dev :=
  { d with bank := { d.bank with done := d.bank.done.insert (doneKey gid half) (st, bell) } }

/-- A group's last commit was refused; the bell of its last effect stays. -/
def Dev.setFail (d : Dev) (gid half : Nat) (st : Status) : Dev :=
  d.setDone gid half st (match d.bank.done.find? (doneKey gid half) with | some p => p.2 | none => 0)

/-- A refused commit or switch: counted in CFG_REFUSED of the half and recorded (R471). -/
def Dev.cfgRefused (d : Dev) (half gid : Nat) (st : Status) : Dev :=
  let n := d.rwGet (hubDie half) 0x10000014 0
  (d.rwPut (hubDie half) 0x10000014 0 (sat32 (n + 1))).record
    { type := Rt.config, status := st, opcode := gid, addr := d.bell }

/-- Both parts of a group's check pass on the staged bank. -/
def Dev.mayArm (d : Dev) (gid half : Nat) : Bool :=
  d.groupCheck gid half (d.candidate half) && d.stateCheck gid half (d.candidate half)

/-- Arm a group of a half: the candidate replaces the armed bank; PWR limits are clamped to the hardware's
(R419, R454). `hub` names the hub core that waits for it. -/
def Dev.arm (d : Dev) (gid half : Nat) (hub : Option Nat) : Dev :=
  let die := hubDie half
  let cap (o v : Nat) : Nat := if gid = 0xC005 then min v (d.hwLimit o) else v
  let offs := groupOffsets gid
  let clamped := gid = 0xC005 && offs.any (fun o => d.hwLimit o < d.candidate half o)
  let arm1 (b : SMap Word) : SMap Word := offs.foldl (fun m o => m.insert (regKey die o) (word (cap o (d.candidate half o)))) b
  let d1 := { d with bank := { d.bank with
    armed := arm1 d.bank.armed, armedGroups := d.bank.armedGroups ++ [(gid, half, hub)] } }
  if clamped then (d1.stick Sticky.limitClamped).record { type := Rt.power, status := St.limitClamped, opcode := gid } else d1

/-! ## Taking effect (R454 to R456) -/

/-- What a hub core's CFG_COMMIT_STATUS shows of a commit it wrote. -/
def Dev.tellHub (d : Dev) (hub : Option Nat) (code : Nat) (st : Status) : Dev :=
  match hub with
  | some k => if k < 4096 then d.setHub k { d.hub k with commitStatus := code, commitCode := st } else d
  | none => d

/-- The mark of a group armed by a commit that another record covers. -/
def markSilent : Nat := 4096
/-- The mark of the East instance that a commit armed together with the West one (R458). -/
def markJoint : Nat := 4097

/-- The limit registers at the class's hardware values, staged and committed (R419, R489). -/
def Dev.hwLimits (d : Dev) : Dev :=
  match d.pwr.cls with
  | none => d
  | some k =>
    let put (m : SMap Word) : SMap Word :=
      (m.insert (regKey 16 0x00020008) (word (classPower k))).insert (regKey 16 0x0002000C) (word (classClock k))
    { d with bank := { d.bank with staged := put d.bank.staged, committed := put d.bank.committed } }

/-- The armed bank of a group becomes its committed bank; where the state no longer allows it the armed bank is
discarded (R454, R455). -/
def Dev.takeEffect (d : Dev) (g : Nat × Nat × Option Nat) : Dev :=
  let gid := g.1
  let half := g.2.1
  let die := hubDie half
  let offs := groupOffsets gid
  let d0 := { d with bank := { d.bank with armedGroups := d.bank.armedGroups.erase g } }
  let drop (m : SMap Word) : SMap Word := offs.foldl (fun m o => m.erase (regKey die o)) m
  if !(d.stateCheck gid half (d.armedVal half) && d.groupCheck gid half (d.armedVal half)) then
    ((({ d0 with bank := { d0.bank with armed := drop d0.bank.armed } }).setFail gid half St.stageConflict).cfgRefused
      half gid St.stageConflict).tellHub g.2.2 3 St.stageConflict
  else
    let moved := gid / 4096 = 2 && d.poolMoves half (gid % 4096) (d.armedVal half)
    let com := offs.foldl (fun m o => m.put (word (rwsReset die o)) (regKey die o) (word (d.armedVal half o))) d0.bank.committed
    let progs := if gid / 4096 = 3 then insertNat d0.bank.progs (half * 16 + gid % 4096) else d0.bank.progs
    let d1 := ({ d0 with bank := { d0.bank with armed := drop d0.bank.armed, committed := com, progs := progs } }).setDone gid half St.ok d.bell
    let d2 := (d1.rwPut die 0x10000018 0 (d.bell % 2 ^ 32)).rwPut die 0x1000001C 0 (d.bell / 2 ^ 32 % 65536)
    let d3 := if moved then upto (d2.poolFrames half (gid % 4096)) (fun f d => d.putShare half (gid % 4096) f 0) d2 else d2
    let d4 := d3.tellHub g.2.2 2 St.ok
    match g.2.2 with
    | some k => if k < 4096 then d4.record { type := Rt.config, opcode := gid, addr := d.bell } else d4
    | none => d4.record { type := Rt.config, opcode := gid, addr := d.bell }

/-- An admitted task names a pool. -/
def Dev.poolNamed (d : Dev) (half p : Nat) : Bool :=
  d.insts.any (fun i => i.state = 1 && i.kv.any (fun s => d.seqPool s.seqRec = (half, p)))

/-- A group may take effect at a bell boundary (R456). -/
def Dev.bellScope (d : Dev) (gid half : Nat) : Bool :=
  let ix := gid % 4096
  match gid / 4096 with
  | 1 => match (d.slot (slotKey half ix)).owner with | some c => !(d.ctx c).anyStep StepRun.live | none => true
  | 2 => !d.poolNamed half ix
  | 3 => !d.progUsed half ix StepRun.live
  | 12 => true
  | _ => !(d.ctx ix).anyStep StepRun.live

/-- A group's instances were armed by one commit, and act at the same boundary (R458). -/
def Dev.joint (d : Dev) (gid : Nat) : Bool :=
  d.bank.armedGroups.any (fun g => g.1 = gid && g.2.1 = 1 && g.2.2 = some markJoint)

/-- The armed groups whose boundary this is take effect, in arming order (R466): `p` says so of a group of a half; of two
instances that a commit armed together, one waits for the other. -/
def Dev.takeAll (d : Dev) (p : Nat → Nat → Bool) : Dev :=
  let now (gid half : Nat) : Bool := p gid half || d.bellScope gid half
  (d.bank.armedGroups.filter (fun g =>
    if d.joint g.1 then (p g.1 0 || p g.1 1) && now g.1 0 && now g.1 1 else p g.1 g.2.1)).foldl Dev.takeEffect d

/-- Configuration at a bell boundary: the job-mode switch, then the commits in arming order (R465, R466). -/
def Dev.cfgBell (d : Dev) : Dev :=
  let d1 := match d.fw.switchTo with
    | some (code, _) =>
      ({ d with fw := { d.fw with mode := code, switchTo := none, measured := d.fw.measured ++ [code] } }).record
        { type := Rt.config, status := St.cfgSwitched, opcode := code, addr := d.bell }
    | none => d
  d1.takeAll (fun gid half => d1.bellScope gid half)

/-- The Attempt scope: the slots of a context at the start of an attempt (R456). -/
def Dev.cfgAttempt (d : Dev) (c : Nat) : Dev :=
  d.takeAll (fun gid half => gid / 4096 = 1 && (d.slot (slotKey half (gid % 4096))).owner = some c)

/-- The Step scope: a context's groups at the start of its next step (R456). -/
def Dev.cfgStep (d : Dev) (c : Nat) : Dev :=
  d.takeAll (fun gid _ => 4 ≤ gid / 4096 && gid / 4096 ≤ 10 && gid % 4096 = c)

/-- The Commit scope (R456). -/
def Dev.cfgAtCommit (d : Dev) (c : Nat) : Dev := d.takeAll (fun gid _ => gid = groupId 11 c)

/-- The Task scope: a pool at an admission that names it, or at a task boundary (R456). -/
def Dev.cfgPool (d : Dev) (half p : Nat) : Dev := d.takeAll (fun gid h => gid = groupId 2 p && h = half)

/-! ## Who may commit and stage (R404, R459) -/

/-- The context that a group's instance belongs to in a half, none for device groups and programs. -/
def Dev.groupCtx (d : Dev) (gid half : Nat) : Option Nat :=
  let ix := gid % 4096
  match gid / 4096 with
  | 1 => (d.slot (slotKey half ix)).owner
  | 2 => (d.pool (poolKey half ix)).owner
  | 4 | 5 | 6 | 7 | 8 | 9 | 10 | 11 => some ix
  | _ => none

/-- A hub core of a context may stage and commit a group (R459). -/
def Dev.hubMayCfg (d : Dev) (half core gid : Nat) : Bool :=
  match d.hubCtx half core with
  | some c => d.groupCtx gid half = some c
  | none => false

/-- A write of CFG_COMMIT (R458, R471). -/
def cfgCommitWriteEff (w : Writer) (half : Nat) (value : Word) (d : Dev) : Dev :=
  let gid := value.toNat
  let hub := match w with | .hub h c => if h = half then some (hubKey h c) else none | _ => none
  let may : Bool := match w with
    | .hub h c => h = half && d.hubMayCfg half c gid
    | .headframe _ => true
    | _ => false
  let reach : Bool := match w with | .hub h _ => decide (h = half) | .headframe _ => true | _ => false
  if 65536 ≤ gid || !d.halfOn half || !reach then d
  else if !(d.groupIn gid half && may) then
    (d.cfgRefused half gid St.cfgGroup).tellHub hub 3 St.cfgGroup
  else if d.mayArm gid half then (d.arm gid half hub).tellHub hub 1 St.ok
  else ((d.setFail gid half St.stageConflict).cfgRefused half gid St.stageConflict).tellHub hub 3 St.stageConflict

end Sys2Proof.Machine
end

