-- ==== Sys2Proof/Machine/Tally.lean ====
section
/-! DEFINITION. Tally random bits (chapter 07) and the hub cores' draw port. -/

namespace Sys2Proof.Machine

/-- rotl32 of R186. -/
def rotl32 (v n : Nat) : Nat := (v * 2 ^ n + v / 2 ^ (32 - n)) % 2 ^ 32

/-- The words of a draw in progress (R186): the four key words and the four counter words. -/
structure TallyState where
  k0 : Nat
  k1 : Nat
  k2 : Nat
  k3 : Nat
  x0 : Nat
  x1 : Nat
  x2 : Nat
  x3 : Nat
deriving DecidableEq, Repr

/-- One round of tally_draw (R186). -/
def tallyRound (r : Nat) (s : TallyState) : TallyState :=
  let a := if r % 2 = 0 then s.k0 else s.k2
  let b := if r % 2 = 0 then s.k1 else s.k3
  let p0 := 0x8F3AC5D1 * (s.x1.xor a)
  let p1 := 0xB72E4A9B * (s.x3.xor b)
  let lo0 := p0 % 2 ^ 32
  let lo1 := p1 % 2 ^ 32
  { k0 := (s.k0 + 0x5C4E3B27) % 2 ^ 32, k1 := (s.k1 + 0x1D8FA6C3) % 2 ^ 32,
    k2 := (s.k2 + 0x5C4E3B27) % 2 ^ 32, k3 := (s.k3 + 0x1D8FA6C3) % 2 ^ 32,
    x0 := (s.x2.xor (p1 / 2 ^ 32)).xor (rotl32 lo0 13), x1 := lo1,
    x2 := (s.x0.xor (p0 / 2 ^ 32)).xor (rotl32 lo1 9), x3 := lo0 }

/-- tally_draw of R186: the four output words. -/
def tallyDraw (seed stream x0 x1 x2 x3 : Nat) : List Nat :=
  let s := upto 8 tallyRound
    { k0 := seed % 2 ^ 32, k1 := seed / 2 ^ 32 % 2 ^ 32, k2 := stream % 2 ^ 32, k3 := stream / 2 ^ 32 % 2 ^ 32,
      x0 := x0 % 2 ^ 32, x1 := x1 % 2 ^ 32, x2 := x2 % 2 ^ 32, x3 := x3 % 2 ^ 32 }
  [(s.x0 + s.k0) % 2 ^ 32, s.x1.xor s.k1, (s.x2 + s.k2) % 2 ^ 32, s.x3.xor s.k3]

/-- The 128 output bits of the draw of an element group as one number (R185). -/
def tallyBits (seed stream group tensor step : Nat) : Nat :=
  match tallyDraw seed stream (group % 2 ^ 32) (group / 2 ^ 32) tensor step with
  | [a, b, c, e] => a + b * 2 ^ 32 + c * 2 ^ 64 + e * 2 ^ 96
  | _ => 0

/-- The lane of width w bits of element index e (R187). -/
def tallyLane (seed stream e tensor step w : Nat) : Nat :=
  let per := 128 / w
  bits (tallyBits seed stream (e / per) tensor step) (w * (e % per) + w - 1) (w * (e % per))

/-- The byte of element e in a stream with 8-bit lanes (R160, R178, R187). -/
def tallyByte (seed stream e tensor step : Nat) : Nat := tallyLane seed stream e tensor step 8

/-- Stream ids (R184). -/
abbrev streamSr : Nat := 2
/-- DIGEST -/
abbrev streamDigest : Nat := 5
/-- RANGEFINDER -/
abbrev streamRange : Nat := 6
/-- A stream id that is 0 or reserved (R184). -/
def streamBad (s : Nat) : Bool := s = 0 || (7 ≤ s && s ≤ 0xFFFF)

/-- The element index of a position under a binding (R192). -/
def TallyBind.index (b : TallyBind) (p : Pos) : Nat :=
  (b.indexBase + p.d0 + p.d1 * b.pitch1 + p.d2 * b.pitch2 + p.d3 * b.pitch3) % 2 ^ 64

/-- The lane value of a position under a binding (R187, R192). -/
def TallyBind.lane (b : TallyBind) (seed step : Nat) (p : Pos) : Nat :=
  tallyLane seed b.stream (b.index p) b.tensorId (if bit b.flags 0 then b.stepFixed else step) (8 * 2 ^ b.width)

/-- The mask of an element: its lane is below pcode (R188). -/
def TallyBind.mask (b : TallyBind) (seed step : Nat) (p : Pos) : Bool := b.lane seed step p < b.pcode

/-- The uniform value of a position (R190). -/
def TallyBind.uniform (b : TallyBind) (seed step : Nat) (p : Pos) : Num :=
  .fin false ((b.lane seed step p / 256 : Nat) * pow2 (-24))

/-- Check 10 of a binding (R193): none where it passes. -/
def TallyBind.check (b : TallyBind) : Status :=
  let w := 8 * 2 ^ b.width
  if b.rsvd || 2 < b.kind || 3 < b.width || 1 < b.flags then St.reservedNonzero
  else if streamBad b.stream || (b.kind = 1 && 1 < b.width) || (b.kind = 2 && b.width ≠ 0)
    || 2 ^ w < b.pcode || (b.kind ≠ 1 && b.pcode ≠ 0) then St.tallyBinding
  else St.ok

/-! ## Digests (R329) -/

/-- The digest modulus 2^61 − 1. -/
def digestP : Nat := 2 ^ 61 - 1

/-- The digest of one block whose number is b: weights r, r², … (R329). -/
def blockDigest (seed cseq step b : Nat) (m : List Int) : Nat :=
  let r0 := tallyLane seed streamDigest b cseq step 64 % digestP
  let r := if r0 = 0 then 1 else r0
  (m.foldl (fun (a : Nat × Nat) x =>
    ((a.1 + a.2 * (x % (digestP : Int)).toNat) % digestP, a.2 * r % digestP)) (0, r)).1

/-- digest() of R329 over elements whose first block has number `first`. -/
def digest (seed cseq step first : Nat) (els : List Int) : Nat :=
  ((chunksOf 32 els).zipIdx.map (fun (q : List Int × Nat) => blockDigest seed cseq step (first + q.2) q.1)).foldl
    (fun a x => (a + x) % digestP) 0

/-! ## The draw port (R201) -/

/-- The committed job seed of a context (R200). -/
def Dev.seedOf (d : Dev) (c : Nat) : Nat := d.com64 16 (0x04000000 + c * 32)

/-- The offset of a hub core's draw port. -/
def tlyPortOff (core : Nat) : Nat := 0x04010000 + core * 64

/-- A write of TLY_PORT_GO: writing 1 while the port is idle starts a draw with the port's present words; a core
without a context draws nothing (R201). -/
def tlyPortGoEff (half core : Nat) (value : Word) (d : Dev) : Dev :=
  let k := hubKey half core
  let x := d.hub k
  if !d.halfOn half || 48 ≤ core || value ≠ 1 || x.tlyBusy then d
  else match d.hubCtx half core with
    | none => d.setHub k { x with tlyValid := true, tlyNoCtx := true, tlyBad := false, tlyOut := [0, 0, 0, 0] }
    | some c =>
      let w (i : Nat) : Nat := d.rwGet (hubDie half) (tlyPortOff core + 4 * i) 0
      d.setHub k { x with
        tlyBusy := true, tlyValid := false, tlyNoCtx := false
        tlyKey := [word (d.seedOf c), word (d.seedOf c / 2 ^ 32), word (w 0), word (w 1), word (w 2), word (w 3),
          word (w 4), word (w 5)] }

/-- The words of a draw started with the saved key and counter words. -/
def portDraw (key : List Word) : List Nat :=
  let w (i : Nat) : Nat := (at' key i 0).toNat
  tallyDraw (w 0 + w 1 * 2 ^ 32) (w 2 + w 3 * 2 ^ 32) (w 4) (w 5) (w 6) (w 7)

/-- The port's draw ends: OUT0–3 hold it and VALID is set; stream 0 or a reserved stream gives zero and
BAD_STREAM (R201). Where the two pipelines differ, the hub core's unit is named in a CHECK record and the draw
is made again (R195). -/
def tallyDrawDoneEff (half core : Nat) (mismatch : Bool) (d : Dev) : Dev :=
  let k := hubKey half core
  let x := d.hub k
  if !x.tlyBusy then d
  else if mismatch then d.checkRecord (hubUnitIx half 0 core) (d.hubCtx half core) 0
  else
    let w (i : Nat) : Nat := (at' x.tlyKey i 0).toNat
    let bad := streamBad (w 2 + w 3 * 2 ^ 32)
    d.setHub k { x with
      tlyBusy := false, tlyValid := true, tlyBad := bad
      tlyOut := if bad then [0, 0, 0, 0] else (portDraw x.tlyKey).map word }

/-- TLY_PORT_GO -/
def execTlyPortGo (half core : Nat) (value : Word) (s : State) : Host.Outcome State Fault Refusal :=
  onDev (tlyPortGoEff half core value) s

/-- TALLY_DRAW_DONE -/
def execTallyDrawDone (half core : Nat) (mismatch : Bool) (s : State) : Host.Outcome State Fault Refusal :=
  onDev (tallyDrawDoneEff half core mismatch) s

end Sys2Proof.Machine
end

