-- ==== Sys2Proof/Machine/Snapshot.lean ====
section
/-! DEFINITION. The canonical snapshot of a context (R354): its bytes, and what a restore reads back from them (R355). The
header and directory are the manual's; the layout inside a section is the model's (log entry 15). -/

namespace Sys2Proof.Machine

/-! ## Sections -/

/-- The committed words of a context's group in a half. -/
def Dev.groupWords (d : Dev) (gid half : Nat) : List Nat :=
  (groupOffsets gid).map (fun o => d.committed (hubDie half) o)

/-- The context groups that a snapshot holds, in its order (R354). -/
def snapGroups (c half : Nat) : List Nat :=
  ([9, 4, 5, 6, 7, 10, 8, 11].map (fun k => groupId k c)).filter (fun g => half = 0 || groupPerHalf g)

/-- Words as bytes. -/
def wordBytes (l : List Nat) : List Byte := l.flatMap (leBytes 4)

/-- Kind 1: committed agreement groups. -/
def Dev.secGroups (d : Dev) (c half : Nat) : List Byte := wordBytes ((snapGroups c half).flatMap (fun g => d.groupWords g half))

/-- Kind 2: quotas of both halves and the deep tier, then the allocations. -/
def Dev.secAllocs (d : Dev) (c : Nat) : List Byte :=
  let l := d.allocs.filter (fun a => a.ctx = c && !a.freeing)
  wordBytes [at' (d.ctx c).hbmQuota 0 0, at' (d.ctx c).hbmQuota 1 0, (d.ctx c).deepQuota, l.length]
  ++ l.flatMap (fun a => leBytes 8 a.base ++ leBytes 4 a.extents ++ leBytes 2 a.hint ++ leBytes 2 (flag a.parity 0 + flag a.both 1))

/-- Kind 3: resident graphs. -/
def Dev.secGraphs (d : Dev) (c : Nat) : List Byte :=
  ((d.ctx c).graphs).flatMap (fun g => leBytes 8 g.gid ++ leBytes 8 g.image)

/-- The slots of a context in a half. -/
def Dev.ctxSlots (d : Dev) (c half : Nat) : List (Nat × Slot) :=
  (d.slots.filter (fun p => p.1 / 4096 = half && p.2.owner = some c)).map (fun p => (p.1 % 4096, p.2))

/-- Kind 4: PERSIST and the wide-step count, then the half's slots, 25 words each. -/
def Dev.secSlots (d : Dev) (c half : Nat) : List Byte :=
  let l := d.ctxSlots c half
  wordBytes ([flag (d.ctx c).persist 0, (d.ctx c).wideCount, l.length]
    ++ l.flatMap (fun p => [p.1] ++ d.groupWords (groupId 1 p.1) half ++ [p.2.scale.toNat, p.2.normEma.toNat]
      ++ (List.range 16).map (fun i => (at' p.2.hist i 0).toNat)))

/-- Kind 5: record table DPA and count, current-slot bit, version numbers, STATE_SEL. -/
def Dev.secUpdate (d : Dev) (c : Nat) : List Byte :=
  let x := d.ctx c
  let o := 0x03000000 + 64 * c
  wordBytes [d.committed 16 (o + 0x24), d.committed 16 (o + 0x28), d.committed 16 (o + 0x2C), x.curSlot, at' x.vernum 0 0,
    at' x.vernum 1 0, x.stateSel]

/-- The pools of a context in a half. -/
def Dev.ctxPools (d : Dev) (c half : Nat) : List Nat :=
  (d.pools.filter (fun p => p.1 / 256 = half && p.2.owner = some c)).map (fun p => p.1 % 256)

/-- The open sequences of a context in a half. -/
def Dev.ctxSeqs (d : Dev) (c half : Nat) : List Nat :=
  d.seqs.filter (fun a => halfOf a = half && (d.seqRec a).ctx % 8 = c)

/-- Kind 6: pool configurations, 13 words each; then record DPA, table DPA and the 64 bytes of each record. -/
def Dev.secKv (d : Dev) (c half : Nat) : List Byte :=
  let ps := d.ctxPools c half
  let ss := d.ctxSeqs c half
  wordBytes ([ps.length, ss.length] ++ ps.flatMap (fun p => [p] ++ d.groupWords (groupId 2 p) half))
  ++ ss.flatMap (fun a => leBytes 8 a ++ leBytes 8 (d.seqRec a).ptPtr ++ (d.seqRec a).bytes)

/-- Kind 7: job, logical id, BOUND, ring position and length, spare count, group count; ring, spares; then each group's
number, count and members. -/
def Dev.secFabric (d : Dev) (c : Nat) : List Byte :=
  let x := d.ctx c
  wordBytes ([x.job, x.logical + flag x.bound 16, x.relief.position, x.relief.ring.length, x.relief.spares.length, x.groups.length]
    ++ x.relief.ring ++ x.relief.spares ++ x.groups.flatMap (fun g => [g.1, g.2.length] ++ g.2))

/-- Kind 8: the protected epoch, then the two snapshot areas in units of 2 MiB. -/
def Dev.secRelief (d : Dev) (c : Nat) : List Byte :=
  let r := (d.ctx c).relief
  wordBytes [r.epoch, at' r.snap 0 0 / 2 ^ 21, at' r.snap 1 0 / 2 ^ 21]

/-- The sections of a context's snapshot as (kind, half, bytes); the East sections only where the East half is powered. -/
def Dev.sections (d : Dev) (c : Nat) : List (Nat × Nat × List Byte) :=
  let halves := (List.range 2).filter (fun h => d.halfOn h)
  halves.map (fun h => (1, h, d.secGroups c h)) ++ [(2, 0, d.secAllocs c), (3, 0, d.secGraphs c)]
  ++ halves.map (fun h => (4, h, d.secSlots c h)) ++ [(5, 0, d.secUpdate c)] ++ halves.map (fun h => (6, h, d.secKv c h))
  ++ [(7, 0, d.secFabric c), (8, 0, d.secRelief c)]

/-! ## The snapshot (R354) -/

/-- The words of bytes, as the digest takes them. -/
def byteWords (l : List Byte) : List Int := (chunksOf 4 l).map (fun x => (leValue x : Int))

/-- The snapshot of a context at its last commit. -/
def Dev.snapshot (d : Dev) (c : Nat) : List Byte :=
  let x := d.ctx c
  let secs := d.sections c
  let body := secs.flatMap (fun s => s.2.2)
  let seed := d.com64 16 (0x04000000 + c * 32)
  let dir := (secs.foldl (fun (a : List Byte × Nat) s =>
    (a.1 ++ leBytes 2 s.1 ++ leBytes 2 s.2.1 ++ leBytes 4 s.2.2.length ++ leBytes 8 a.2, a.2 + s.2.2.length))
    ([], 64 + 16 * secs.length)).1
  let dig := digest seed (0xFFFFFD * 256 + 255) x.stepCnt 0 (byteWords body)
  leBytes 2 1 ++ leBytes 2 secs.length ++ leBytes 4 x.stepCnt ++ leBytes 8 x.commitBell ++ leBytes 8 seed
  ++ leBytes 4 x.job ++ leBytes 2 x.logical ++ leBytes 1 (d.pwr.cls.getD 0) ++ leBytes 1 0 ++ leBytes 8 dig
  ++ List.replicate 24 0#8 ++ dir ++ body

/-- A commit writes the snapshot of an armed context into the snapshot area of the copy that it made current (R354); one
that does not fit its area is not written. -/
def Dev.writeSnapshot (d : Dev) (c : Nat) : Dev :=
  let x := d.ctx c
  if x.relief.state = 0 ∨ x.relief.snap.isEmpty then d
  else
    let b := d.snapshot c
    let base := at' x.relief.snap (x.curSlot % 2) 0
    let room := ((d.allocs.filter (fun a => a.base = base)).map (fun a => a.extents * 2 ^ 21)).sum
    if b.length ≤ room then d.writeMem base b else d

/-! ## Reading a snapshot -/

/-- A reader of little-endian fields: byte offset and length to value. -/
abbrev Reader := Nat → Nat → Nat

/-- The offset and length of a section, where the directory holds it. -/
def findSec (rd : Reader) (kind half : Nat) : Option (Nat × Nat) :=
  ((List.range (rd 2 2)).find? (fun i => rd (64 + 16 * i) 2 = kind && rd (66 + 16 * i) 2 = half)).map
    (fun i => (rd (72 + 16 * i) 8, rd (68 + 16 * i) 4))

/-- The allocations a snapshot lists. -/
def snapAllocs (rd : Reader) (c : Nat) : List Alloc :=
  match findSec rd 2 0 with
  | none => []
  | some (o, _) => (List.range (rd (o + 12) 4)).map (fun i =>
      let e := o + 16 + 16 * i
      { ctx := c, base := rd e 8, extents := rd (e + 8) 4, hint := rd (e + 12) 2, parity := bit (rd (e + 14) 2) 0,
        both := bit (rd (e + 14) 2) 1 })

/-- A group's committed and staged words written from a list; none is armed any more. -/
def Dev.putGroup (d : Dev) (gid half : Nat) (vs : List Nat) : Dev :=
  let die := hubDie half
  let set (m : SMap Word) : SMap Word :=
    ((groupOffsets gid).zip vs).foldl (fun m (p : Nat × Nat) => m.put (word (rwsReset die p.1)) (regKey die p.1) (word p.2)) m
  let drop (m : SMap Word) : SMap Word := (groupOffsets gid).foldl (fun m o => m.erase (regKey die o)) m
  { d with bank := { d.bank with
    committed := set d.bank.committed, staged := set d.bank.staged, armed := drop d.bank.armed
    armedGroups := d.bank.armedGroups.filter (fun g => !(g.1 = gid && g.2.1 = half)) } }

/-- Section 1 of a half is taken over, group by group; `c0` is the context the words are written for. -/
def Dev.takeGroups (d : Dev) (rd : Reader) (c half : Nat) : Dev :=
  match findSec rd 1 half with
  | none => d
  | some (o, _) =>
    ((snapGroups c half).foldl (fun (a : Dev × Nat) g =>
      let n := (groupOffsets g).length
      (a.1.putGroup g half ((List.range n).map (fun i => rd (a.2 + 4 * i) 4)), a.2 + 4 * n)) (d, o)).1

/-- Section 4 of a half: the slots become the context's, with configuration, SCALE, NORM_EMA and history. -/
def Dev.takeSlots (d : Dev) (rd : Reader) (c half : Nat) : Dev :=
  match findSec rd 4 half with
  | none => d
  | some (o, _) =>
    let d1 := if half = 0 then d.updCtx c (fun x => { x with persist := bit (rd o 4) 0, wideCount := rd (o + 4) 4 }) else d
    upto (rd (o + 8) 4) (fun i d =>
      let e := o + 12 + 96 * i
      let n := rd e 4 % 4096
      let d2 := d.putGroup (groupId 1 n) half ((List.range 5).map (fun k => rd (e + 4 + 4 * k) 4))
      let scale := word (rd (e + 24) 4)
      d2.setSlot (slotKey half n) { owner := some c, scale := scale, attemptScale := scale, normEma := word (rd (e + 28) 4)
                                    hist := (List.range 16).map (fun k => word (rd (e + 32 + 4 * k) 4)) }) d1

/-- Section 5. -/
def Dev.takeUpdate (d : Dev) (rd : Reader) (c : Nat) : Dev :=
  match findSec rd 5 0 with
  | none => d
  | some (o, _) => d.updCtx c (fun x => { x with
      curSlot := rd (o + 12) 4 % 2, vernum := [rd (o + 16) 4, rd (o + 20) 4], stateSel := rd (o + 24) 4 % 2 })

/-- A record that a snapshot's KV section would write lies in guarded bytes (R219). -/
def Dev.kvSecGuarded (d : Dev) (rd : Reader) (half : Nat) : Bool :=
  match findSec rd 6 half with
  | none => false
  | some (o, _) =>
    (List.range (rd (o + 4) 4)).any (fun i => meets d.kvGuards (rd (o + 8 + 52 * rd o 4 + 80 * i) 8) 64)

/-- Section 6 of a half: pools, then the open records, whose deep frames are in use again. -/
def Dev.takeKv (d : Dev) (rd : Reader) (c half : Nat) : Dev :=
  match findSec rd 6 half with
  | none => d
  | some (o, _) =>
    let np := rd o 4
    let d1 := upto np (fun i d =>
      let e := o + 8 + 52 * i
      let p := rd e 4 % 256
      (d.putGroup (groupId 2 p) half ((List.range 12).map (fun k => rd (e + 4 + 4 * k) 4))).setPool (poolKey half p) { owner := some c }) d
    upto (rd (o + 4) 4) (fun i d =>
      let e := o + 8 + 52 * np + 80 * i
      let a := rd e 8
      let d2 : Dev := { (d.store a ((List.range 64).map (fun k => BitVec.ofNat 8 (rd (e + 16 + k) 1)))) with seqs := insertNat d.seqs a }
      let r := d2.seqRec a
      let d3 := d2.putSeq a { r with walks := 0, provLen := r.committedLen, ctx := c, flags := r.flags % 4 + r.flags / 8 * 8 }
      upto r.ptEntries (fun k d =>
        let en := d.ptEntry r.ptPtr k
        if ptValid en && ptEvicted en then d.deepTake half (r.pool % 256) (ptFrame en) else d) d3) d1

/-- Section 7: job, logical id, ring, spares and groups. -/
def Dev.takeFabric (d : Dev) (rd : Reader) (c : Nat) : Dev :=
  match findSec rd 7 0 with
  | none => d
  | some (o, _) =>
    let nr := rd (o + 12) 4
    let ns := rd (o + 16) 4
    let g0 := o + 24 + 4 * nr + 4 * ns
    let gs := ((List.range (rd (o + 20) 4)).foldl (fun (a : SMap (List Nat) × Nat) _ =>
      let n := rd (a.2 + 4) 4
      (a.1.insert (rd a.2 4) ((List.range n).map (fun i => rd (a.2 + 8 + 4 * i) 4)), a.2 + 8 + 4 * n)) ([], g0)).1
    d.updCtx c (fun x => { x with
      job := rd o 4, logical := rd (o + 4) 4 % 16384, bound := bit (rd (o + 4) 4) 16, groups := gs
      relief := { x.relief with
        position := rd (o + 8) 4, n := nr, ring := (List.range nr).map (fun i => rd (o + 24 + 4 * i) 4)
        spares := (List.range ns).map (fun i => rd (o + 24 + 4 * nr + 4 * i) 4) } })

/-- Section 3: the graphs' ids and images. -/
def snapGraphs (rd : Reader) : List ResGraph :=
  match findSec rd 3 0 with
  | none => []
  | some (o, n) => (List.range (n / 16)).map (fun i => { gid := rd (o + 16 * i) 8, image := rd (o + 16 * i + 8) 8 })

/-- Section 8: the protected epoch. -/
def snapEpoch (rd : Reader) : Nat := match findSec rd 8 0 with | none => 0 | some (o, _) => rd o 4

/-- Section 8: the snapshot areas, none where the context was not armed. -/
def snapAreas (rd : Reader) : List Nat :=
  match findSec rd 8 0 with
  | none => []
  | some (o, _) => if rd (o + 4) 4 = rd (o + 8) 4 then [] else [rd (o + 4) 4 * 2 ^ 21, rd (o + 8) 4 * 2 ^ 21]

/-- The bytes of a snapshot, from its header and directory. -/
def snapBytes (rd : Reader) : Nat :=
  (List.range (rd 2 2)).foldl (fun m i => max m (rd (72 + 16 * i) 8 + rd (68 + 16 * i) 4)) (64 + 16 * rd 2 2)

end Sys2Proof.Machine
end

