-- ==== Sys2Proof/Machine/Attempt.lean ====
section
/-! DEFINITION. Step attempts (chapter 10, R289 to R298): starts, causes and abandons, the exchanges of a job,
sealing, commits and the ends of steps. -/

namespace Sys2Proof.Machine

/-! ## Cause classes (R291, R302) -/

/-- SCREEN. -/
abbrev clsScreen : Nat := 0
/-- NONFINITE. -/
abbrev clsNonfinite : Nat := 1
/-- TASK. -/
abbrev clsTask : Nat := 2
/-- STASH. -/
abbrev clsStash : Nat := 3
/-- FIXED. -/
abbrev clsFixed : Nat := 4
/-- ABORT. -/
abbrev clsAbort : Nat := 5
/-- TIMEOUT. -/
abbrev clsTimeout : Nat := 6
/-- PEER. -/
abbrev clsPeer : Nat := 7

/-- The classes of a list of causes as bits. -/
def classBits (l : List (Status × Nat)) : Nat := l.foldl (fun m c => Nat.lor m (2 ^ c.2)) 0

/-- The record type of a cause's status (R375, log entry 10). -/
def causeType (st : Status) : Nat :=
  if st = St.scaleMiss ∨ st = St.fallbackBudget ∨ st = St.nonfinite ∨ st = St.updLockstep then Rt.numeric
  else if st = St.stashExhausted then Rt.step
  else if 0x0101 ≤ st.toNat ∧ st.toNat ≤ 0x0109 then Rt.memory
  else if 0x0301 ≤ st.toNat ∧ st.toNat ≤ 0x0307 then Rt.kv
  else if 0x0501 ≤ st.toNat ∧ st.toNat ≤ 0x050A then Rt.fabric
  else Rt.step

/-! ## The job (R292, R297, R323) -/

/-- The logical ids of a bound context's job, in rank order of group 0. -/
def Dev.jobOf (d : Dev) (c : Nat) : List Nat :=
  if (d.ctx c).bound then (((d.ctx c).groups.get [] 0).map (· % 16384)) else [(d.ctx c).logical]

/-- The devices of the job that take part in its exchanges: all but the subjects of a relief (R347). -/
def Dev.jobLive (d : Dev) (c : Nat) : List Nat :=
  let r := (d.ctx c).relief
  if r.state = 3 then (d.jobOf c).filter (fun l => r.subject ≠ some l && !r.others.contains l) else d.jobOf c

/-- The root of the job's exchanges is the device of rank 0 in group 0, the next live one while that is being relieved (log
entry 11). -/
def Dev.isRoot (d : Dev) (c : Nat) : Bool := (d.jobLive c).head? = some (d.ctx c).logical

/-- Tell every other device of the job. -/
def Dev.tellJob (d : Dev) (kind c : Nat) (data : List Nat) : Dev :=
  ((d.jobOf c).filter (· ≠ (d.ctx c).logical)).foldl (fun d l => d.emit (.notice kind c l data)) d

/-- Every live device of the job has voted. -/
def Dev.allVoted (d : Dev) (c : Nat) (r : StepRun) : Bool :=
  (d.jobLive c).all (fun l => r.votes.any (fun v => v.1 = l))

/-- The greater maximum for each slot. -/
def mergeMaxima (a b : List (Nat × Word)) : List (Nat × Word) :=
  b.foldl (fun l p =>
    match l.find? (fun q => q.1 = p.1) with
    | some q => l.map (fun x => if x.1 = p.1 then (p.1, maxWord q.2 p.2) else x)
    | none => l ++ [p]) a

/-- The COLLECTIVE slots of a context with the amax each would carry in a vote (R292, R297, R325). -/
def Dev.collMaxima (d : Dev) (c : Nat) (adopt : Bool) : List (Nat × Word) :=
  ((d.slotsOf c).filter d.jobSlot).map (fun k =>
    let x := d.slot k
    (k, if adopt then maxWord x.adoptAmax x.provAmax else x.provAmax))

/-! ## Releasing what an attempt holds (R141, R173, R211, R249, R290) -/

/-- A slice is one of a step's. -/
def Slice.ofStep (s : Slice) (c : Nat) (newer : Bool) : Bool := s.ctx = c && s.newer = newer

/-- A core without a step's slices and foreign tiles. -/
def Core.dropStep (x : Core) (c : Nat) (newer : Bool) : Core :=
  let mine (o : Option Slice) : Bool := match o with | some s => s.ofStep c newer | none => false
  let gone (e : Nat) : Bool := mine (at' x.act e none)
  { x with
    arr := x.arr.map (fun q => q.filter (fun t => !gone (t.requester - 1)))
    fq := x.fq.map (fun q => q.filter (fun t => !gone (t.requester - 1)))
    act := x.act.map (fun o => if mine o then none else o)
    nxt := x.nxt.map (fun o => if mine o then none else o) }

/-- Everything an attempt holds is released: instances, slices, snapshots, windows, requests, stash, pins and
collectives. -/
def Dev.dropWork (d : Dev) (c : Nat) (newer : Bool) : Dev :=
  let mine := d.insts.filter (fun i => i.ctx = c && i.newer = newer)
  let d1 := mine.foldl Dev.dropSnaps d
  let d2 := mine.foldl Dev.kvUnlock d1
  let pins := match (d.ctx c).step? newer with | some r => r.pins | none => []
  let d3 := { d2 with
    insts := d2.insts.filter (fun i => !(i.ctx = c && i.newer = newer))
    cores := d2.cores.map (fun (p : Nat × Core) => (p.1, p.2.dropStep c newer))
    deep := d2.deep.filter (fun q => !((q.kind = 0 || q.kind = 2) && q.ctx = c && q.newer = newer))
    xc := { d2.xc with windows := d2.xc.windows.filter (fun w => !(w.ctx = c && w.newer = newer)) }
    fab := { d2.fab with colls := d2.fab.colls.filter (fun q => !(q.ctx = c && q.newer = newer)) } }
  let d4 := (d3.releaseStash c newer).updCtx c (fun x =>
    { x with pins := pins.foldl (fun l (p : Nat × Nat) => setAt l p.2 (at' l p.2 0 - 1)) x.pins, waitPin := false })
  let d5 := d4.updStep c newer (fun r => { r with pins := [], rungBufs := [] })
  let d6 := ((mine.filter (fun i => i.op = opHub)).map (fun i => (i.half, i.src))).foldl (fun d k => d.refreshHubSource k.1 k.2) d5
  d6.reapFreeing

/-- Every sequence a step appended to falls back to its committed length (R211). -/
def Dev.kvAbandon (d : Dev) (c : Nat) (newer : Bool) : Dev :=
  match (d.ctx c).step? newer with
  | some r => r.appended.foldl (fun d a => d.seqFallBack a) (d.updStep c newer (fun r => { r with appended := [] }))
  | none => d

/-- A step goes back to LOADED with everything it admitted released (R288). -/
def Dev.unstart (d : Dev) (c : Nat) (newer : Bool) : Dev :=
  match (d.ctx c).step? newer with
  | some r =>
    if r.live then
      ((d.kvAbandon c newer).dropWork c newer).updStep c newer (fun r =>
        { r with state := 1, attempts := 0, form := 0, done := [], ready := [], onceDone := [], rungs := [], votes := [], voted := false, causes := [], draining := false,
                 drained := false, peer := false, decision := none, sealLens := [], updRun := 0, events := [] })
    else d
  | none => d

/-! ## Ends of steps -/

/-- The spill extents of a step go back (R251). -/
def Dev.dropSpill (d : Dev) (r : StepRun) : Dev :=
  (d.allocs.filter (fun a => r.spill.contains a.base)).foldl (fun d a => d.dropAlloc a) d

/-- What belonged to the newer step belongs to the older one once it is alone (R289). -/
def Dev.promote (d : Dev) (c : Nat) : Dev :=
  let f (b : Bool) (x : Nat) : Bool := if x = c then false else b
  { d.updCtx c (fun x => { x with older := x.newer, newer := none }) with
    insts := d.insts.map (fun i => { i with newer := f i.newer i.ctx })
    items := d.items.map (fun i => { i with newer := f i.newer i.ctx })
    resvs := d.resvs.map (fun i => { i with newer := f i.newer i.ctx })
    deep := d.deep.map (fun i => { i with newer := f i.newer i.ctx })
    xc := { d.xc with windows := d.xc.windows.map (fun i => { i with newer := f i.newer i.ctx }) }
    retired := d.retired.map (fun r => { r with holders := r.holders.map (fun h => (h.1, f h.2.1 h.1, h.2.2)) })
    fab := { d.fab with colls := d.fab.colls.map (fun i => { i with newer := f i.newer i.ctx }) }
    cores := d.cores.map (fun (p : Nat × Core) =>
      let g (o : Option Slice) : Option Slice := o.map (fun s => { s with newer := f s.newer s.ctx })
      (p.1, { p.2 with act := p.2.act.map g, nxt := p.2.nxt.map g })) }

/-- A step leaves the device with a status: ONS_CTX_LAST_STATUS and its STEP record. A submit is remembered while its step is loaded,
running or committed (R300). -/
def Dev.leaveStep (d : Dev) (c : Nat) (r : StepRun) (st : Status) : Dev :=
  (d.updCtx c (fun x => { x with
    lastStatus := st, lastEnded := (r.p.step, st) :: x.lastEnded.take 3
    submits := if st = St.stepCommitted ∨ st = St.stepSkipped then x.submits else x.submits.filter (fun p => p.step ≠ r.p.step) })).record
    { type := Rt.step, status := st, opcode := r.p.step, ctx := some c }

/-- The newer step is discarded with STEP_ABORTED because the one ahead ended without commit (R290). -/
def Dev.dropNewer (d : Dev) (c : Nat) : Dev :=
  match (d.ctx c).newer with
  | some r => ((((d.kvAbandon c true).dropWork c true).dropSpill r).leaveStep c r St.stepAborted).updCtx c (fun x => { x with newer := none })
  | none => d

/-- A step boundary of a context: the protected lines that a scrub poisoned go to repair (R257). -/
def Dev.scrubBoundary (d : Dev) (c : Nat) : Dev :=
  d.updCtx c (fun x => { x with repairs := x.scrubbed.foldl insertNat x.repairs, scrubbed := [] })

/-- A step ends without commit (R290, R151, R179, R211, R252). -/
def Dev.endStep (d : Dev) (c : Nat) (newer : Bool) (st : Status) : Dev :=
  if newer then
    match (d.ctx c).newer with
    | some r => ((((d.kvAbandon c true).dropWork c true).dropSpill r).leaveStep c r st).updCtx c (fun x => { x with newer := none })
    | none => d
  else
    match (d.ctx c).older with
    | some r =>
      let d1 := ((((d.dropNewer c).kvAbandon c false).dropWork c false).dropSpill r).screenDrop c
      let d2 := d1.updCtx c (fun x => { x with
        exhausted := st = St.stashExhausted, recompute := false,
        clipKnown := false, clipFactor := 0x3F800000 })
      ((d2.leaveStep c r st).updCtx c (fun x => { x with older := none })).scrubBoundary c
    | none => d

/-! ## The start of an attempt (R290, R199) -/

/-- The LADDER consumers of an attempt: the graph's FMUL tasks with LADDER, for each micro-batch (R149). -/
def Dev.ladderConsumers (d : Dev) (g : GraphHdr) (mbs : Nat) : Nat :=
  (((List.range g.taskCount).map (d.graphTask g)).filter (fun t => t.op = opFmul && t.ladder)).length * mbs

/-- A context's Screen state at the start of an attempt. -/
def Ctx.freshScreen (x : Ctx) (total : Nat) : Ctx :=
  { x with miss := false, fbOver := false, nf := false, fbCount := 0, ladderTotal := total, nfPos := 0, nfTask := 0,
           missWord := 0 }

/-- An attempt of a step starts RUNNING at the present bell with a new generation (R290). -/
def Dev.startAttempt (d : Dev) (c : Nat) (newer : Bool) : Dev :=
  match (d.ctx c).step? newer with
  | none => d
  | some r0 =>
    let first := r0.attempts = 0
    let d0 := if first then (d.cfgStep c).cfgAttempt c else d.cfgAttempt c
    let form := if bit (d0.committed 16 0x1000000C) c || (first && d0.startsWide c) then 2 else r0.form
    let r := { r0 with form := form }
    let gen := ((d0.ctx c).gen + 1) % 256
    match d0.attemptGid c r with
    | none => d0.endStep c newer (if (d0.attemptGid c { r with recompute := false }).isNone then St.wideFormAbsent else St.stashExhausted)
    | some gid =>
      let total := match d0.stepGraph c gid with | some g => d0.ladderConsumers g r.p.mbCount | none => 0
      let run : StepRun := { r with
        state := 2, gen := gen, attempts := r.attempts + 1, startBell := d0.bell,
        firstBell := (if first then d0.bell else r.firstBell),
        seed := (if first then BitVec.ofNat 64 (d0.seedOf c) else r.seed),
        probe := (if first then (d0.ctx c).persist && form = 0 else r.probe), sealTested := false,
        voted := false, draining := false, drained := false, causes := [], peer := false, votes := [], decision := none
        done := r.onceDone, ready := [], rungs := [], rungBufs := [], pins := [], sealLens := [], appended := [], updRun := 0, events := [] }
      let d1 := d0.updCtx c (fun x =>
        let x := (x.setStep newer (some run)).freshScreen total
        let x := { x with gen := gen, startBell := d0.bell, recompute := r.recompute, clipKnown := false,
                          rlo := false, rhi := false, uovf := false, lockstep := false, refresh := false,
                          clipSum := some 0, clipNorm := 0, clipFactor := 0x3F800000 }
        if first then { x with late := 0, collLate := 0, digestFails := 0, xcCopyBytes := 0, spillBytes := [0, 0], exhausted := false } else x)
      if first then (d1.slotsOf c).foldl (fun d k => d.setSlot k { d.slot k with attemptScale := (d.slot k).scale }) d1 else d1

/-! ## Causes (R140, R144, R290, R291, R298) -/

/-- A cause is declared against a step: it is recorded, and it abandons a RUNNING attempt, joins an abandon
whose vote is not posted, or ends a wait for a replay. After the vote no cause is taken, but for the timeout
and step.abort during an exchange. -/
def Dev.declare (d : Dev) (c : Nat) (newer : Bool) (st : Status) (cls : Nat) (ev : Option Ev) : Dev :=
  let d := match ev with | some e => d.record e | none => d
  match (d.ctx c).step? newer with
  | none => d
  | some r =>
    let join (d : Dev) : Dev :=
      (d.updStep c newer (fun r => { r with causes := r.causes ++ [(st, cls)], peer := r.peer || cls = clsPeer })).updCtx c
        (fun x => { x with cause := Nat.lor x.cause (2 ^ cls) })
    let tell (d : Dev) : Dev := if cls = clsPeer then d else d.tellJob 0 c [2 ^ cls]
    if r.state = 2 then
      let d1 := tell (join (d.updCtx c (fun x => { x with cause := 0 })))
      let d2 := d1.updStep c newer (fun r => { r with state := 5, draining := true, drained := false, voted := false, votes := [] })
      if newer then d2 else d2.unstart c true
    else if r.state = 5 ∧ (¬ r.voted ∨ cls = clsTimeout ∨ cls = clsAbort) then join d
    else if r.state = 6 then
      (tell (join d)).updStep c newer (fun r => { r with state := 5, draining := true, voted := false, votes := [], decision := none })
    else if r.state = 3 ∧ (¬ r.voted ∨ cls = clsTimeout) then join d
    else d

/-- A cause with the record its status takes. -/
def Dev.cause (d : Dev) (c : Nat) (newer : Bool) (st : Status) (cls : Nat) (unit opcode addr : Nat) : Dev :=
  d.declare c newer st cls (some { type := causeType st, unit := unit, status := st, opcode := opcode, addr := addr, ctx := some c })

/-! ## Commit (R296) -/

/-- Job-wide maxima become PROV_AMAX of the COLLECTIVE slots (R325). -/
def Dev.takeMaxima (d : Dev) (m : List (Nat × Word)) : Dev :=
  m.foldl (fun d p => d.setSlot p.1 { d.slot p.1 with provAmax := p.2 }) d

/-- The UPDATE tasks of an attempt's graph. -/
def Dev.hasUpdates (d : Dev) (c : Nat) (newer : Bool) : Bool :=
  match d.attemptGraph c newer with
  | some g => (List.range g.taskCount).any (fun i => (d.graphTask g i).op = opUpdate)
  | none => false

/-- The Update Engine's commit (R172, R179): the current slot and the state roles flip, the written slot takes
the step's number, and the ratio events of the committing attempt are posted. -/
def Dev.updCommit (d : Dev) (c : Nat) (skip : Bool) (r : StepRun) : Dev :=
  let d1 := d.updCtx c (fun x => { x with clipKnown := false })
  if skip || !d.hasUpdates c false then d1
  else
    let d2 := d1.updCtx c (fun x =>
      let w := 1 - x.curSlot % 2
      { x with curSlot := w, stateSel := 1 - x.stateSel % 2, vernum := setAt x.vernum w r.p.step })
    r.events.foldl (fun d e =>
      (d.updCtx c (fun x => { x with rlo := x.rlo || e.1 = St.updRatioLow, rhi := x.rhi || e.1 = St.updRatioHigh })).record
        { type := Rt.numeric, status := e.1, opcode := e.2.1, ctx := some c, fixed := [e.2.2] }) d2

/-- The KV lengths at a commit (R211). -/
def Dev.kvCommit (d : Dev) (c : Nat) (skip : Bool) (r : StepRun) : Dev :=
  if skip then d.kvAbandon c false
  else r.sealLens.foldl (fun d p =>
    let s := d.seqRec p.1
    if d.seqs.contains p.1 then d.putSeq p.1 { s with committedLen := p.2 } else d) d

/-- A commit other than SKIP starts the upkeep of a parity ring the context is in (R343). -/
def Dev.upkeepStart (d : Dev) (c : Nat) : Dev :=
  if (d.ctx c).relief.inRing then d.updCtx c (fun x => { x with relief := { x.relief with upkeep := true } }) else d

/-- The older step of a context commits, under SKIP or not, in the order of R296. -/
def Dev.commitStep (d : Dev) (c : Nat) (skip : Bool) (maxima : List (Nat × Word)) : Dev :=
  match (d.ctx c).older with
  | none => d
  | some r =>
    let overlap := match (d.ctx c).newer with
      | some n => n.appended.any (fun a => r.appended.contains a)
      | none => false
    let d0 := if skip && overlap then d.unstart c true else d
    let d1 := (d0.takeMaxima maxima).screenCommit c r.form skip r.probe
    let d2 := (d1.updCommit c skip r).kvCommit c skip r
    let d3 := (d2.dropWork c false).dropSpill r
    let st := if skip then St.stepSkipped else St.stepCommitted
    let d4 := d3.updCtx c (fun x => { x with stepCnt := r.p.step, commitBell := d.bell, recompute := false, lastSubmit := some r.p })
    let d5 := ((d4.cfgAtCommit c).leaveStep c r st).writeSnapshot c
    ((if skip then d5 else d5.upkeepStart c).promote c).scrubBoundary c

/-! ## Deciding and applying (R142, R291, R292, R295) -/

/-- The form of the next attempt, none where a Screen cause arose in a wide attempt (R142, R144). `want` says
that a vote calls for the wide form at once. -/
def nextForm (form classes : Nat) (want : Bool) : Option Nat :=
  if bit classes clsScreen then
    if form = 2 then none else if form = 1 || want then some 2 else some 1
  else if bit classes clsNonfinite ∧ classes % 128 = 2 then some 1
  else some 0

/-- The decision of an abandon exchange from every vote (R291, R292). -/
def Dev.abandonDecision (d : Dev) (r : StepRun) : Decision :=
  let classes := (r.votes.map (fun v => v.2.classes)).foldl Nat.lor 0
  let want := r.votes.any (fun v => 4 ≤ v.2.form)
  let maxima := (r.votes.map (fun v => v.2.maxima)).foldl mergeMaxima []
  let go := d.bell + 1 + d.pick 2
  let dec : Decision := { kind := 2, bell := go, classes := classes, form := 0, recompute := bit classes clsStash, maxima := maxima }
  if bit classes clsAbort || bit classes clsTimeout || bit classes clsFixed then { dec with kind := 3 }
  else if r.relieving ∧ classes % 128 = 0 then { dec with form := r.form }
  else if classes % 128 = 2 ∧ r.p.nanPolicy = 2 then { dec with kind := 1 }
  else if classes % 128 = 2 ∧ r.p.nanPolicy = 0 then { dec with kind := 3 }
  else match nextForm r.form classes want with
    | none => { dec with kind := 3 }
    | some f => { dec with form := f }

/-- The status with which a step ends on a decision (R291, R293): its first declared cause; where only a peer
declared one and its class does not name the status, a value the spec leaves open. -/
def Dev.endStatus (d : Dev) (r : StepRun) (classes : Nat) : Status :=
  if bit classes clsAbort then St.stepAborted
  else if bit classes clsTimeout || r.causes.any (fun x => x.2 = clsTimeout) then St.stepTimeout
  else match r.causes.find? (fun x => x.2 ≠ clsPeer) with
    | some x => x.1
    | none => if classes % 128 = 2 then St.nonfinite else BitVec.ofNat 16 (Config.value d.free).toNat

/-- STEP_REPLAY_MAX of a step (R289). -/
def Dev.replayMax (d : Dev) (c : Nat) (r : StepRun) : Nat :=
  if r.p.replayMax = 0xFF then d.committed 16 (0x08000000 + c * 64) % 8 else r.p.replayMax

/-- The job-wide maxima adopted by the COLLECTIVE slots (R141). -/
def Dev.adoptMaxima (d : Dev) (c : Nat) (m : List (Nat × Word)) : Dev :=
  (m.filter (fun p => (d.slotsOf c).contains p.1 && d.jobSlot p.1)).foldl (fun d p =>
    let x := { d.slot p.1 with adoptAmax := p.2, adopted := true }
    d.setSlot p.1 { x with attemptScale := d.selectScale p.1 x }) d

/-- This device's abandon vote (R292): what the exchange carries from it. -/
def abandonVoteOf (r : StepRun) (want : Bool) (maxima : List (Nat × Word)) : Vote :=
  { commit := false, classes := classBits r.causes % 128, form := r.form + (if want then 4 else 0), maxima := maxima }

/-- A step timeout that this device observed after its vote: the exchange of the rest of the job runs again with that cause and this
device's vote (R293). -/
def Dev.tellLate (d : Dev) (c : Nat) (newer : Bool) (r : StepRun) : Dev :=
  let d1 := d.tellJob 0 c [2 ^ clsTimeout]
  if (d.ctx c).bound && !d.isRoot c then d1.emit (.vote 0 c (abandonVoteOf r false (d.collMaxima c newer))) else d1

/-- The decision of an abandon exchange is applied (R290 to R292). A step.abort taken after the vote makes the
exchange run again in place of a replay (R293, R298). A replay after a relief uses up none of its count (R348). -/
def Dev.applyAbandon (d : Dev) (c : Nat) (newer : Bool) (dec : Decision) : Dev :=
  match (d.ctx c).step? newer with
  | none => d
  | some r =>
    if r.state ≠ 5 ∨ ¬ r.voted ∨ r.decision.isSome then d
    else
      let own := classBits r.causes
      let peer := if Nat.land own dec.classes = dec.classes then 0 else 2 ^ clsPeer
      let d1 := (d.adoptMaxima c dec.maxima).updCtx c (fun x => { x with cause := Nat.lor (Nat.lor x.cause dec.classes) peer })
      let late := r.causes.any (fun x => x.2 = clsTimeout)
      let free : Bool := r.relieving && decide (dec.classes % 128 = 0)
      let told := if late ∧ ¬ bit dec.classes clsTimeout then d1.tellLate c newer r else d1
      if dec.kind = 3 ∨ late then told.drawn.endStep c newer (d1.endStatus r dec.classes)
      else if dec.kind = 1 then
        if dec.bell ≤ d1.bell then d1.commitStep c true dec.maxima
        else d1.updStep c newer (fun r => { r with decision := some dec })
      else if ¬ free ∧ d1.replayMax c r ≤ r.replays then d1.drawn.endStep c newer (d1.endStatus r dec.classes)
      else if r.causes.any (fun x => x.2 = clsAbort) ∧ ¬ bit dec.classes clsAbort then
        (d1.tellJob 0 c [2 ^ clsAbort]).updStep c newer (fun r => { r with draining := true, voted := false, votes := [] })
      else
        let d2 := d1.updStep c newer (fun r => { r with
          state := 6, form := dec.form, recompute := r.recompute || dec.recompute, replays := if free then r.replays else r.replays + 1,
          decision := some dec, voted := false, votes := [], causes := [], peer := false, draining := false })
        if dec.bell ≤ d2.bell ∧ ¬ r.relieving ∧ (d2.ctx c).repairs.isEmpty then d2.startAttempt c newer else d2

/-- Where every vote is in, the root decides, broadcasts and applies the abandon (R292). -/
def Dev.reduceAbandon (d : Dev) (c : Nat) (newer : Bool) : Dev :=
  match (d.ctx c).step? newer with
  | none => d
  | some r =>
    if r.state = 5 && r.voted && d.isRoot c && d.allVoted c r then
      let dec := d.abandonDecision r
      let d1 := if (d.ctx c).bound then d.drawn.emit (.decision 0 c dec) else d.drawn
      d1.applyAbandon c newer dec
    else d

/-- The drain-time miss test of every slot: it declares nothing, and fixes the reason recorded (R135). The answer
says whether some slot needs the wide form. -/
def Dev.drainTest (d : Dev) (c : Nat) : Dev × Bool :=
  (d.slotsOf c).foldl (fun (a : Dev × Bool) k =>
    let m := a.1.missTest k true
    if m = 0 then a
    else
      let d1 := a.1.setSlot k ((a.1.slot k).flagMiss m)
      let d2 := d1.updCtx c (fun x =>
        if x.miss && x.missWord.toNat % 8192 = (missWordOf k 0).toNat then { x with missWord := missWordOf k m } else x)
      let x := a.1.slot k
      (d2, a.2 || (m = 3 && (x.missOvf || x.missUnf || x.missBfx)))) (d, false)

/-- An abandoned attempt has drained (R140 event 5, R141, R292 event 4): the slots adopt, everything the attempt
held is released, and the vote is posted. -/
def Dev.drained (d : Dev) (c : Nat) (newer : Bool) : Dev :=
  match (d.ctx c).step? newer with
  | none => d
  | some r =>
    if r.state ≠ 5 ∨ ¬ r.draining ∨ r.voted then d
    else
      let t := if r.sealTested then (d, false) else d.drainTest c
      let probe := r.probe && r.form = 0
      let maxima := t.1.collMaxima c true
      let d1 := ((t.1.adopt c []).kvAbandon c newer).dropWork c newer
      let v := abandonVoteOf r (t.2 || (probe && r.causes.any (fun x => x.2 = clsScreen))) maxima
      let d2 := d1.updStep c newer (fun r =>
        { r with draining := false, drained := true, voted := true, votes := ((d.ctx c).logical, v) :: r.votes, updRun := 0, events := [] })
      (if (d2.ctx c).bound && !d2.isRoot c then d2.emit (.vote 0 c v) else d2).reduceAbandon c newer

/-! ## Sealing (R295, R297) -/

/-- The decision of a seal from every vote (R295). -/
def sealKind (r : StepRun) : Nat :=
  let classes := (r.votes.map (fun v => v.2.classes)).foldl Nat.lor 0
  if r.votes.all (fun v => v.2.commit) then 0
  else if classes % 128 = 2 ∧ r.p.nanPolicy = 2 then 1 else 2

/-- The commit bell the root names (R297): the next one where at least 40 µs remain before it. -/
def Dev.commitBell (d : Dev) (since : Nat) : Nat :=
  if since + 40000 ≤ d.fab.period * 10000 then d.bell + 1 else d.bell + 2

/-- The decision of a seal takes effect: the step commits, or the attempt is abandoned (R290, R295, R297). -/
def Dev.sealNow (d : Dev) (c : Nat) (r : StepRun) (dec : Decision) : Dev :=
  if dec.kind = 2 then
    let own := classBits r.causes
    let peer := if Nat.land own dec.classes = dec.classes then 0 else 2 ^ clsPeer
    let d1 := d.updCtx c (fun x => { x with cause := Nat.lor dec.classes peer })
    (d1.updStep c false (fun r => { r with state := 5, draining := true, voted := false, votes := [], decision := none })).unstart c true
  else d.commitStep c (dec.kind = 1) dec.maxima

/-- The decision of a seal arrives: it is applied at the bell it names, on receipt where that has passed (R297). -/
def Dev.applySeal (d : Dev) (c : Nat) (dec : Decision) : Dev :=
  match (d.ctx c).older with
  | none => d
  | some r =>
    if r.state ≠ 3 ∨ ¬ r.voted ∨ r.decision.isSome then d
    else if dec.bell ≤ d.bell then d.sealNow c r dec
    else d.updStep c false (fun r => { r with decision := some dec })

/-- Where every vote is in, the root decides and broadcasts (R297). -/
def Dev.reduceSeal (d : Dev) (c since : Nat) : Dev :=
  match (d.ctx c).older with
  | none => d
  | some r =>
    if r.state = 3 && r.voted && d.isRoot c && d.allVoted c r then
      let dec : Decision := {
        kind := sealKind r, bell := d.commitBell since,
        classes := (r.votes.map (fun v => v.2.classes)).foldl Nat.lor 0, form := r.form, recompute := false,
        maxima := (r.votes.map (fun v => v.2.maxima)).foldl mergeMaxima [] }
      (if (d.ctx c).bound then d.emit (.decision 1 c dec) else d).applySeal c dec
    else d

/-- The seal-time test of every slot (R135): the device, and the first slot that missed with its reason. -/
def Dev.sealTest (d : Dev) (c : Nat) : Dev × Option (Nat × Nat) :=
  (d.slotsOf c).foldl (fun (a : Dev × Option (Nat × Nat)) k =>
    let m := a.1.missTest k true
    if m = 0 then a
    else (a.1.setSlot k ((a.1.slot k).flagMiss m), match a.2 with | some x => some x | none => some (k, m))) (d, none)

/-- Every instance of an attempt's graph has completed. -/
def Dev.allDone (d : Dev) (c : Nat) (newer : Bool) : Bool :=
  match (d.ctx c).step? newer, d.attemptGraph c newer with
  | some r, some g => (List.range g.taskCount).all (fun k =>
      if (d.graphTask g k).scope = 1 then r.done.contains (k, 0)
      else (List.range r.p.mbCount).all (fun m => r.done.contains (k, m)))
  | _, _ => false

/-- A loaded step of schedule ALT_STALE starts when the step ahead enters SEALING (R288). -/
def Dev.startStale (d : Dev) (c : Nat) : Dev :=
  match (d.ctx c).newer with
  | some n => if n.state = 1 ∧ ¬ (d.ctx c).orphaned ∧ (d.ctx c).relief.state ≠ 3 ∧ n.p.schedule = 3 ∧ n.startBell ≤ d.bell then d.startAttempt c true else d
  | none => d

/-- The older step of a context enters SEALING once every instance has completed: the seal-time tests run, and
the vote is posted (R135, R145, R295, R297). -/
def Dev.sealStep (d : Dev) (c since : Nat) : Dev :=
  match (d.ctx c).older with
  | none => d
  | some r =>
    if r.state ≠ 2 || !d.allDone c false then d
    else
      let t := d.sealTest c
      let d1 := t.1.updStep c false (fun r => { r with state := 3, sealTested := true })
      let d2 := match t.2 with
        | some (k, m) =>
          (d1.updCtx c (fun x => { x with miss := true, missWord := missWordOf k m, cause := 0 })).declare c false St.scaleMiss clsScreen
            (some { type := Rt.numeric, unit := hubUnit (slotHalf k) 0xC, status := St.scaleMiss, opcode := (missWordOf k m).toNat, ctx := some c })
        | none => d1
      let d3 := if (d2.ctx c).nf then
          d2.declare c false St.nonfinite clsNonfinite
            (some { type := Rt.numeric, status := St.nonfinite, opcode := (d2.ctx c).nfTask.toNat, addr := (d2.ctx c).nfPos.toNat, ctx := some c })
        else d2
      let r1 := ((d3.ctx c).older).getD r
      let v : Vote := { commit := r1.causes.isEmpty, classes := classBits r1.causes % 128, form := r1.form, maxima := d3.collMaxima c false }
      let lens := r1.appended.map (fun a => (a, (d3.seqRec a).provLen))
      let d4 := d3.updStep c false (fun r => { r with voted := true, sealLens := lens, votes := ((d.ctx c).logical, v) :: r.votes })
      let d5 := if (d4.ctx c).bound && !d4.isRoot c then d4.emit (.vote 1 c v) else d4
      (d5.startStale c).reduceSeal c since

/-! ## The bell (R318 items 3 and 4) -/

/-- The decision of a context's step acts at this bell: a commit. -/
def Dev.commitDue (d : Dev) (c : Nat) : Dev :=
  match (d.ctx c).older with
  | some r => match r.decision with
    | some dec =>
      if d.bell < dec.bell then d
      else if r.state = 3 then d.sealNow c r dec
      else if r.state = 5 ∧ dec.kind = 1 then d.commitStep c true dec.maxima
      else d
    | none => d
  | none => d

/-- A step of a context starts or replays at this bell; a loaded step does not start while its
context is orphaned or its job is being relieved (R347, R407). -/
def Dev.startDue (d : Dev) (c : Nat) : Dev :=
  let d1 := match (d.ctx c).older with
    | some r =>
      if r.state = 1 ∧ ¬ (d.ctx c).orphaned ∧ (d.ctx c).relief.state ≠ 3 ∧ r.startBell ≤ d.bell then d.startAttempt c false
      else if r.state = 6 ∧ ¬ r.relieving ∧ (d.ctx c).repairs.isEmpty then
        match r.decision with
        | some dec => if dec.bell ≤ d.bell then d.startAttempt c false else d
        | none => d
      else d
    | none => d
  match (d1.ctx c).older, (d1.ctx c).newer with
  | some r, some n =>
    if r.state = 3 ∧ n.state = 1 then d1.startStale c
    else if r.state = 3 ∧ n.state = 6 then
      match n.decision with
      | some dec => if dec.bell ≤ d1.bell ∧ (d1.ctx c).repairs.isEmpty then d1.startAttempt c true else d1
      | none => d1
    else d1
  | _, _ => d1

end Sys2Proof.Machine
end

