-- ==== Sys2Proof/Machine/Write.lean ====
section
/-! DEFINITION. Writing values into tensors: conversion of a run of one row, its bytes in memory, poison, and
the report to the target's tracker slot with the miss test that follows it. -/

namespace Sys2Proof.Machine

/-- Elements packed from bit 0 up (R56). -/
def packElems (w : Nat) : List Nat → Nat
  | [] => 0
  | x :: r => x % 2 ^ w + 2 ^ w * packElems w r

/-- What a converter makes of part of a row: the bytes with their addresses, the report, and the index of the
first non-finite element (R95). -/
structure RunOut where
  puts : List (Nat × List Byte) := []
  rep : Report := {}
  nf : Option Nat := none
deriving DecidableEq, Repr

/-- Two parts of a row; the second starts at element n. -/
def RunOut.append (a : RunOut) (n : Nat) (b : RunOut) : RunOut :=
  { puts := a.puts ++ b.puts, rep := a.rep.add b.rep,
    nf := match a.nf, b.nf with | some x, _ => some x | none, some y => some (n + y) | none, none => none }

/-- The index of the first element that satisfies a condition. -/
def firstIx {α : Type} (p : α → Bool) (l : List α) : Option Nat :=
  let n := (l.takeWhile (fun x => !p x)).length
  if n < l.length then some n else none

/-- Conversion of up to 32 elements that lie in one block (R71, R77); `zp` gives the zero point of each. -/
def convertRun (t : TD) (zp : Nat → Int) (xs : List Num) : Nat × List COut :=
  let ts := fp32Val t.tscale
  if isMx t.fmt then convertMx t.fmt xs ts
  else if t.fmt = 0x0B then convertBfx xs ts (bfxExp xs ts)
  else if t.fmt = 7 then (0, xs.zipIdx.map (fun (p : Num × Nat) => convertInt8z p.1 ts (zp p.2)))
  else (0, xs.map (fun x => convertPlain t.fmt x ts t.infOk))

/-- One block's part of a row, from position p on; an element that is none is not written, and a quiet element (a
masked score, R225) reports no event. A short group's scale line is completed with zeros (R57). -/
def blockOut (t : TD) (zp : Pos → Int) (quiet : Nat → Bool) (p : Pos) (xs : List (Option Num)) : RunOut :=
  let w := fmtBits t.fmt
  let vs := xs.map (·.getD .zero)
  let r := convertRun t (fun i => zp { p with d0 := p.d0 + i }) vs
  let b := p.d0 / 32
  let a := t.blockAddr p b + p.d0 % 32 * w / 8
  let data : List (Nat × List Byte) :=
    if isBlocked t.fmt || xs.all (·.isSome) then
      [(a, leBytes (ceilDiv (w * xs.length) 8) (packElems w (r.2.map (·.bits))))]
    else
      (xs.zip r.2).zipIdx.filterMap (fun (q : (Option Num × COut) × Nat) =>
        if q.1.1.isSome then some (a + q.2 * (w / 8), leBytes (w / 8) q.1.2.bits) else none)
  let pad := if t.interleaved && decide (b + 1 = t.rowBlocks) then 63 - b % 64 else 0
  let scale : List (Nat × List Byte) :=
    if isBlocked t.fmt then [(t.scaleAddr p b, leBytes (1 + pad) (r.1 % 256))] else []
  let out := ((xs.zip vs).zip r.2).zipIdx.map (fun (q : ((Option Num × Num) × COut) × Nat) =>
    if quiet (p.d0 + q.2) then (q.1.1, { q.1.2 with ev := .none }) else q.1)
  let flagged (q : ((Option Num × Num) × COut) × Nat) : Bool :=
    !quiet (p.d0 + q.2) && q.1.1.1.isSome && (q.1.1.2.nonfinite || (q.1.2.ev = .overflow && t.infOk))
  { puts := data ++ scale
    rep := Report.sum (out.filterMap (fun (q : (Option Num × Num) × COut) =>
      if q.1.1.isSome then some (elemReport t.fmt r.1 q.1.2 q.2) else none))
    nf := firstIx flagged out.zipIdx }

/-- A run of one row from position p on, whose start is a block's start. -/
def rowOut (t : TD) (zp : Pos → Int) (quiet : Nat → Bool) (p : Pos) (xs : List (Option Num)) : RunOut :=
  (chunksOf 32 xs).zipIdx.foldl (fun (a : RunOut) (c : List (Option Num) × Nat) =>
    a.append (32 * c.2) (blockOut t zp quiet { p with d0 := p.d0 + 32 * c.2 } c.1)) {}

/-- Adjacent pieces written as one. -/
def mergePuts : List (Nat × List Byte) → List (Nat × List Byte)
  | [] => []
  | (a, x) :: r => match mergePuts r with
    | (b, y) :: q => if a + x.length = b then (a, x ++ y) :: q else (a, x) :: (b, y) :: q
    | [] => [(a, x)]

/-- The writes of an output in the order in which they go out: data before scales. -/
def putOrder (puts : List (Nat × List Byte)) : List (Nat × List Byte) :=
  mergePuts (puts.filter (fun q => 1 < q.2.length)) ++ mergePuts (puts.filter (fun q => q.2.length ≤ 1))

/-- The bytes of an output go to memory. -/
def Dev.putRun (d : Dev) (ctx mb : Nat) (puts : List (Nat × List Byte)) : Dev :=
  (putOrder puts).foldl (fun d (q : Nat × List Byte) => d.writeMem (xlate ctx mb q.1) q.2) d

/-- An output written poisoned: every line it meets becomes poisoned and nothing is converted (R76, R91, R253). -/
def Dev.poisonRun (d : Dev) (ctx mb : Nat) (puts : List (Nat × List Byte)) : Dev :=
  puts.foldl (fun d (q : Nat × List Byte) =>
    let a := xlate ctx mb q.1
    (List.range (lineOf (a + q.2.length - 1) - lineOf a + 1)).foldl (fun d i => d.poisonLine (lineOf a + i)) d) d

/-- A slot's test after a report (R135): a miss is declared once an attempt. -/
def Dev.missNow (d : Dev) (c : Nat) (newer : Bool) (k : Nat) : Dev :=
  let m := d.missTest k false
  if m = 0 then d
  else
    let d1 := d.setSlot k ((d.slot k).flagMiss m)
    if (d1.ctx c).miss then d1
    else
      let w := missWordOf k m
      (d1.updCtx c (fun x => { x with miss := true, missWord := w })).declare c newer St.scaleMiss clsScreen
        (some { type := Rt.numeric, unit := hubUnit (slotHalf k) 0xC, status := St.scaleMiss, opcode := w.toNat, ctx := some c })

/-- A report reaches the slot that a target names, in the half of its task; a non-finite event gives the context
its verdict (R130, R135, R145). -/
def Dev.reportTo (d : Dev) (c : Nat) (newer : Bool) (half : Nat) (t : TD) (r : Report) : Dev :=
  match t.slot? half with
  | none => d
  | some k =>
    let d1 := d.setSlot k ((d.slot k).take (bit (d.slotCtl k) 22) r)
    let d2 := if r.nf = 0 then d1 else d1.updCtx c (fun x => { x with nf := true })
    d2.missNow c newer k

/-- The position word of R97. -/
def posWord (tile row col : Nat) : Nat := col % 32 + row % 32 * 32 + tile % 2 ^ 32 * 1024 + 2 ^ 63

/-- The lower of two position words, where zero is none (R96). -/
def minPos (a b : DWord) : DWord := if a = 0 then b else if b = 0 then a else if a.toNat ≤ b.toNat then a else b

/-- A position enters the lowest one held for each slot. -/
def keepPos (l : List (Nat × DWord)) (k : Nat) (p : DWord) : List (Nat × DWord) :=
  if l.any (fun q => q.1 = k) then l.map (fun q => if q.1 = k then (k, minPos q.2 p) else q) else l ++ [(k, p)]

end Sys2Proof.Machine
end

