-- ==== Sys2Proof/Machine/Fab.lean ====
section
/-! DEFINITION. The Ulusil fabric below the commands (R304 to R313): ids and coordinates, the remap table,
routing, and the replay buffers that crosscut and Ulusil links share (R30, R306). -/

namespace Sys2Proof.Machine

/-! ## Replay buffers (R30, R306) -/

/-- Flits of a message appended to a replay buffer. -/
def addFlits (l : List Flit) (seq msg n : Nat) : List Flit :=
  l ++ (List.range n).map (fun i => { seq := (seq + i) % 4096, msg := msg, sends := 1, ix := i })

/-- A cumulative acknowledgement by SEQ frees every flit up to that one; one that names no held flit frees none. -/
def ackFlits (l : List Flit) (seq : Nat) : List Flit :=
  match l.dropWhile (fun f => f.seq ≠ seq) with
  | [] => l
  | _ :: r => r

/-- A replay request makes the sender resend from the named flit, which failed, on: the buffer after it, and how many flits
were resent. -/
def resendFlits (l : List Flit) (seq : Nat) : List Flit × Nat :=
  (l.map (fun f => if f.seq = seq then { f with sends := f.sends + 1 } else f), (l.dropWhile (fun f => f.seq ≠ seq)).length)

/-- The flit that a replay request names has now failed on 8 consecutive sends (R31, R306). -/
def flitDead (l : List Flit) (seq : Nat) : Bool := l.any (fun f => f.seq = seq && decide (8 ≤ f.sends))

/-! ## Ids (R308, R309) -/

/-- Coordinate k of a physical id. -/
def coordOf (phys k : Nat) : Nat :=
  if k = 0 then bits phys 3 0 else if k = 1 then bits phys 7 4 else if k = 2 then bits phys 10 8 else bits phys 13 11

/-- A physical id names a device of a fabric. -/
def physValid (dims : List Nat) (phys : Nat) : Bool :=
  decide (phys < 16384) && (List.range 4).all (fun k => coordOf phys k < at' dims k 1)

/-- Hops of a ring of n between two coordinates. -/
def ringDist (n a b : Nat) : Nat := min ((b + n - a) % n) ((a + n - b) % n)

/-- Torus hops between two devices. -/
def torusHops (dims : List Nat) (a b : Nat) : Nat :=
  ((List.range 4).map (fun k => ringDist (at' dims k 1) (coordOf a k) (coordOf b k))).sum

/-- The physical id a logical id resolves to in the live table (R309). -/
def Dev.physOf (d : Dev) (logical : Nat) : Option Nat :=
  let e := d.fab.remap.get 0 logical
  if bit e 14 then some (e % 16384) else none

/-- The bound context of a logical id. -/
def Dev.ctxOfLogical (d : Dev) (logical : Nat) : Option Nat :=
  (List.range 8).find? (fun c => (d.ctx c).isOpen && (d.ctx c).bound && (d.ctx c).logical = logical)

/-- A port that has not retired is down. -/
def Port.down (x : Port) : Port := if x.state = 3 then x else { lambdas := x.lambdas }

/-- The device is DETACHED: its links are down, it counts no beats of a fabric, and nothing waits to be switched (R331). -/
def Dev.detach (d : Dev) : Dev :=
  { d with fab := { d.fab with
      state := 0, ports := d.fab.ports.map (fun (p : Nat × Port) => (p.1, p.2.down)), locked := false, holdover := false
      timekeeper := false, secondary := false, hops := 0, missing := 0, beat := false, switchPending := false, claim := none
      silent := [], leaveJobs := 0, hbState := if d.fab.hbState = 2 then 0 else d.fab.hbState } }

/-! ## Routing (R304, R311, R312) -/

/-- A port is up. -/
def Dev.portUp (d : Dev) (p : Nat) : Bool := (d.port p).state = 2
/-- The two torus ports of a half's direction: dimension k, plus or minus. -/
def torusPorts (half k : Nat) (plus : Bool) : List Nat :=
  let b := half * 24 + 4 * k + (if plus then 0 else 2)
  [b, b + 1]
/-- The express ports of a half. -/
def expressPorts (half : Nat) : List Nat := if half = 0 then [16, 17, 18, 19, 20] else [40, 41, 42, 43, 44, 45]
/-- A port carries Ulusil. -/
def isUlusil (p : Nat) : Bool := p < 21 || (24 ≤ p && p < 46)
/-- A port is a torus port. -/
def isTorus (p : Nat) : Bool := p < 16 || (24 ≤ p && p < 40)
/-- The dimension of a torus port. -/
def portDim (p : Nat) : Option Nat := if isTorus p then some (p % 24 / 4) else none
/-- The other torus port of the same direction and plane. -/
def siblingPort (p : Nat) : Nat := if p % 2 = 0 then p + 1 else p - 1

/-- The dimension and direction in which a packet leaves a device next. -/
def nextTurn (dims : List Nat) (a b : Nat) : Option (Nat × Bool) :=
  ((List.range 4).find? (fun k => coordOf a k ≠ coordOf b k)).map (fun k =>
    let n := at' dims k 1
    (k, decide ((coordOf b k + n - coordOf a k) % n ≤ (coordOf a k + n - coordOf b k) % n)))

/-- The express port a packet takes at its first hop, where one saves hops. -/
def Dev.expressFor (d : Dev) (half dst : Nat) : Option Nat :=
  let f := d.fab
  let ok := (expressPorts half).filter (fun p =>
    d.portUp p && torusHops f.dims (d.port p).peer dst + 1 < torusHops f.dims f.phys dst)
  ok.foldl (fun (b : Option Nat) p => match b with
    | some q => if torusHops f.dims (d.port p).peer dst < torusHops f.dims (d.port q).peer dst then some p else some q
    | none => some p) none

/-- The torus port of a direction that takes the next packet: the two alternate, and one that is not up is passed
over. -/
def Dev.torusPort (d : Dev) (half k : Nat) (plus : Bool) : Option Nat × Dev :=
  let key := half * 8 + 2 * k + (if plus then 0 else 1)
  let n := d.fab.alternate.get 0 key
  let ps := torusPorts half k plus
  let a := at' ps (n % 2) 0
  let d1 := { d with fab := { d.fab with alternate := d.fab.alternate.put 0 key ((n + 1) % 2) } }
  if d.portUp a then (some a, d1) else if d.portUp (siblingPort a) then (some (siblingPort a), d1) else (none, d)

/-- The buffer of a channel's dateline lane: channel × 2 + lane (R311). -/
def laneIx (k : Packet) : Nat := k.vc % 4 * 2 + k.lane % 2

/-- The flits that a channel's dateline lane takes at the far end of a link; no rule gives the number (log entry 63). -/
abbrev laneFlits : Nat := 256

/-- The packet that a port sends next: the oldest that has credits in its channel and lane, in the order of that lane, where the
replay buffer of 2,048 flits has room for it (R306, R311). -/
def Port.next (x : Port) : Option (Nat × Packet × List Byte) :=
  if x.state ≠ 2 then none
  else
    let left := x.queued.filter (fun q => !x.replay.any (fun f => f.msg = q.1))
    let heads := (List.range 8).filterMap (fun i => (left.filter (fun q => laneIx q.2.1 = i)).head?)
    let free (q : Nat × Packet × List Byte) : Bool :=
      let n := max q.2.1.len 1
      let i := laneIx q.2.1
      decide ((at' x.flitsOut i 0 + 4096 - at' x.creditsIn i 0) % 4096 + n ≤ laneFlits) && decide (x.replay.length + n ≤ 2048)
    let can := heads.filter free
    ((can.map (·.1)).min?).bind (fun id => (can.filter (fun q => q.1 = id)).head?)

/-- A port sends up to n packets, while it has one to send. -/
def Dev.sendPackets (d : Dev) (p : Nat) : Nat → Dev
  | 0 => d
  | n + 1 =>
    let x := d.port p
    match x.next with
    | none => d
    | some q =>
      let k := max q.2.1.len 1
      let i := laneIx q.2.1
      Dev.sendPackets ((d.setPort p { x with
        replay := addFlits x.replay x.txSeq q.1 k, txSeq := (x.txSeq + k) % 4096
        flitsOut := setAt x.flitsOut i ((at' x.flitsOut i 0 + k) % 4096) }).emit (.packet p q.2.1 q.2.2)) p n

/-- A port sends what its credits and its replay buffer let it send. -/
def Dev.pumpPort (d : Dev) (p : Nat) : Dev := d.sendPackets p 2048

/-- A packet enters a port's queue. -/
def Dev.queuePacket (d : Dev) (p : Nat) (k : Packet) (data : List Byte) : Dev :=
  let id := d.fab.nextMsg
  let x := d.port p
  ({ d with fab := { d.fab with nextMsg := id + 1 } }.setPort p { x with queued := x.queued.insert id (k, data) }).pumpPort p

/-- A packet is sent on its way from this device: `from?` is the dimension it arrived in, none where it starts
here; a packet with no port up stays unsent. -/
def Dev.sendPacket (d : Dev) (half : Nat) (from? : Option (Option Nat)) (k : Packet) (data : List Byte) : Dev :=
  let f := d.fab
  let ex := match from? with | none => d.expressFor half k.dst | some _ => none
  match ex with
  | some p => d.queuePacket p { k with express := true, lane := 0 } data
  | none =>
    match nextTurn f.dims f.phys k.dst with
    | none => d
    | some (dim, plus) =>
      match d.torusPort half dim plus with
      | (none, _) => d
      | (some p, d1) =>
        let n := at' f.dims dim 1
        let here := coordOf f.phys dim
        let cross : Bool := if plus then here + 1 = n else here = 0
        let lane := if from? = some (some dim) then k.lane else 0
        d1.queuePacket p { k with lane := if cross then 1 else lane } data

/-- A cumulative acknowledgement at a port: flits are freed, whole messages leave, and waiting ones follow. -/
def Dev.ackPort (d : Dev) (p seq : Nat) : Dev :=
  let x := d.port p
  let left := ackFlits x.replay seq
  let gone := ((x.replay.map (·.msg)).filter (fun m => !left.any (fun f => f.msg = m)))
  (d.setPort p { x with replay := left, queued := x.queued.filter (fun q => !gone.contains q.1) }).pumpPort p

/-- A replay request at a port: the packets with flits from the named one on are sent again, in order (R306). -/
def Dev.nakPort (d : Dev) (p seq : Nat) : Dev :=
  let x := d.port p
  let r := resendFlits x.replay seq
  let again := ((r.1.drop (r.1.length - r.2)).map (·.msg)).dedup
  (x.queued.filter (fun q => again.contains q.1)).foldl (fun d q => d.emit (.packet p q.2.1 q.2.2))
    ((d.setPort p { x with replay := r.1 }).rcAdd (hubDie (portHalf p)) (0x09001000 + p % 24 * 32 + 8) r.2)

/-- A packet dropped under R309 or R310. -/
def Dev.misroute (d : Dev) (half : Nat) : Dev := d.rcAdd (hubDie half) 0x09000010 1

/-- A packet from a context of this device to a logical destination, resolved at sending (R309); a destination
that the live table does not map takes none. -/
def Dev.sendLogical (d : Dev) (c half logical dstHalf vc type tag : Nat) (gen : Nat) (data : List Byte) : Dev :=
  match d.physOf logical with
  | none => d
  | some phys =>
    let k : Packet := {
      dst := phys, dstHalf := dstHalf, src := d.fab.phys, srcHalf := half, ldst := logical, vc := vc,
      type := type, gen := gen, tag := tag, len := min 64 (max 1 (ceilDiv data.length 64)), poison := false,
      express := false, lane := 0, ctx := c, rsv := false }
    d.sendPacket half none k data

/-- A packet is well-formed and for this device: dropped and counted where a reserved value is set or the live
table does not map its logical destination here; passed on where another device is its destination; the device
and whether it is delivered (R309, R310). -/
def Dev.receivePacket (d : Dev) (port : Nat) (k : Packet) (data : List Byte) : Dev × Bool :=
  let half := portHalf port
  if k.rsv || 5 < k.type || 64 < k.len || k.len = 0 then (d.misroute half, false)
  else if k.dst ≠ d.fab.phys then (d.sendPacket half (some (portDim port)) k data, false)
  else if d.physOf k.ldst ≠ some d.fab.phys then (d.misroute half, false)
  else (d, true)

end Sys2Proof.Machine
end

