-- ==== Sys2Proof/Machine/Health.lean ====
section
/-! DEFINITION. What a fault does above the engine that found it: the unit history, classification and its
actions, slots, die isolation, the failed device and contexts that leave their jobs or die (R26, R34, R36 to R38,
R42, R255, R333, R364 to R369). -/

namespace Sys2Proof.Machine

/-! ## Leaving jobs (R26, R331, R333) -/

/-- A context leaves its job in order: the job's relief agents are told; it serves on until the job has remapped. -/
def Dev.leaveJob (d : Dev) (c : Nat) : Dev :=
  let x := d.ctx c
  if x.bound && !x.leaving then
    { (d.updCtx c (fun x => { x with leaving := true })).tellJob 2 c [x.logical] with
      fab := { d.fab with leaveJobs := d.fab.leaveJobs + 1 } }
  else d

/-- Once every bound context leaves, the device is LEAVING and its heartbeats say so. -/
def Dev.settleLeaving (d : Dev) : Dev :=
  let cs := (List.range 8).filter (fun c => (d.ctx c).bound)
  if d.fab.state = 5 && !cs.isEmpty && cs.all (fun c => (d.ctx c).leaving) then
    { d with fab := { d.fab with state := 6, hbState := max d.fab.hbState 2 } }
  else d

/-- The device leaves every job (R26, R333). -/
def Dev.leaveAll (d : Dev) : Dev :=
  ((List.range 8).foldl (fun d c => d.leaveJob c) d).settleLeaving

/-! ## Failure (R26, R369) -/

/-- The device is marked failed: its heartbeats say so and it leaves its jobs. -/
def Dev.failDevice (d : Dev) (unit : Nat) : Dev :=
  if d.health.failed then d
  else
    let d1 := { d with health := { d.health with failed := true }, fab := { d.fab with hbState := 3 } }
    ((d1.stick Sticky.failed).record { type := Rt.health, unit := unit, status := St.deviceFailed }).leaveAll

/-- Both ingresses are fenced: flits awaiting replay are discarded, and the tasks whose messages they were end with
HALF_FENCED (R34). -/
def Dev.fence (d : Dev) : Dev :=
  if d.isClassA || d.xc.fenced then d
  else
    let lost := d.xc.windows.filter (fun w => !w.got && d.xc.links.any (fun p =>
      p.2.msgs.any (fun m => m.2.cls ≠ 2 && m.2.window = w.num && m.2.gen = w.gen)))
    let d1 := { d with xc := { d.xc with
      fenced := true
      links := d.xc.links.map (fun (p : Nat × XLink) => (p.1, { p.2 with replay := [], msgs := [], sent := [], rx := [] })) } }
    lost.foldl (fun d w => d.cause w.ctx w.newer St.halfFenced clsTask (63 * 1024) w.task 0) d1

/-! ## Die isolation (R37, R38) -/

/-- The unit id of a whole die (R39, R364). -/
def dieUnit (die : Nat) : Nat := die * 1024 + 0xFF

/-- The domains that power a die alone (R38). -/
def soleDomains (die : Nat) : List Nat :=
  if die < 16 then [die] else if die = 16 then [16, 18] else if die = 17 then [17, 19]
  else if die = 18 then [20] else if die = 19 then [21] else []

/-- A die is isolated: the fence, the record of the fault, then its power; the device is failed. `isolated` stands for the fence of
the die's mesh and die-to-die links: no address of the die is valid, no core of it issues, no port of it is up. Without optical
engine die 25 the host link is down. A hub die whose complex is active is a failure of the whole package (R38). -/
def Dev.isolateDie (d : Dev) (die : Nat) : Dev :=
  if d.health.isolated.contains die then d
  else if die = hubDie d.fwHalf then d.failDevice (dieUnit die)
  else
    let d1 := ((d.fence.stick Sticky.dieIsolated).stick (32 + die)).record
      { type := Rt.health, unit := dieUnit die, status := St.dieIsolated }
    let onDie (u : Nat) : Bool := unitDie u = die
    let d2 := { d1 with
      health := { d1.health with
        isolated := insertNat d1.health.isolated die
        canaries := d1.health.canaries.filter (fun c => !onDie c.unit)
        pendRetire := d1.health.pendRetire.filter (fun p =>
          !(if p.1 = 0 then die = 18 + halfOf p.2 else die = hbmDie p.2)) }
      pwr := { d1.pwr with
        isolatedAny := true
        domains := d1.pwr.domains.filter (fun n => !(soleDomains die).contains n) } }
    let d3 := if 20 ≤ die ∧ die < 32 then
        upto 4 (fun i d => let p := 4 * (die - 20) + i; d.setPort p { d.port p with state := 0, hbOk := false }) d2
      else d2
    (if die = 25 then d3.linkLost else d3).failDevice (dieUnit die)

/-- A half's collectives are paused while a deferred canary runs there (R370). -/
def Dev.collsPaused (d : Dev) (half : Nat) : Bool :=
  d.health.canaries.any (fun q => q.deferred && decide (q.state = 3) && decide (dieHalf (unitDie q.unit) = half))

/-- A half's admission and issue are paused while a deferred canary, or the Onsetter's, runs there (R370). -/
def Dev.pausedHalf (d : Dev) (half : Nat) : Bool :=
  d.collsPaused half || d.health.canaries.any (fun q => q.unit = hubUnit half 1 && decide (q.state = 3))

/-! ## Cores and slots (R37, R42) -/

/-- A physical core is out of service: mapped out, or held after a failed canary. -/
def Dev.coreOut (d : Dev) (die cluster core : Nat) : Bool :=
  d.health.mapped.contains (coreKey die cluster core) || (d.hist (coreUnit die cluster core 0)).held

/-- The cluster's spare: a core in service that serves no slot and runs no canary. -/
def Dev.spareOf (d : Dev) (die cluster : Nat) : Option Nat :=
  let x := d.cluster (die * 4 + cluster)
  (List.range 9).find? (fun n =>
    !x.slots.contains (some n) && !d.coreOut die cluster n && !(d.core (coreKey die cluster n)).canary)

/-- Some sub-unit of a core is SUSPECT. -/
def Dev.coreSuspect (d : Dev) (die cluster core : Nat) : Bool :=
  (List.range 7).any (fun s => d.isSuspect (coreUnit die cluster core s))

/-- A slice is on a core. -/
def Core.busy (x : Core) : Bool := x.act.any (·.isSome) || x.nxt.any (·.isSome)

/-- The DPA of a slot's core SRAM (R41). -/
def slotSram (die cluster slot : Nat) : Nat :=
  3 * 2 ^ 48 + dieHalf die * 2 ^ 47 + die % 8 * 2 ^ 28 + cluster * 2 ^ 26 + slot * 2 ^ 22

/-- A cluster's core SRAM holds nothing. -/
def Dev.dropSram (d : Dev) (die cluster : Nat) : Dev :=
  let lo := slotSram die cluster 0
  { d with mem := d.mem.filter (fun c => !(decide (lo ≤ c.1) && decide (c.1 < lo + 8 * 2 ^ 22))) }

/-- A graph names core SRAM of a cluster (R42). -/
def Dev.graphSram (d : Dev) (g : GraphHdr) (mbs die cluster : Nat) : Bool :=
  let lo := slotSram die cluster 0
  let hit (a : Nat) : Bool := decide (lo ≤ a) && decide (a < lo + 8 * 2 ^ 22)
  (List.range (g.sharedTds + mbs * g.mbTds)).any (fun i =>
    let t := d.readTd (g.tdBase + 64 * i)
    hit t.base || hit t.scaleBase)

/-- A slot is lost with no spare to take it: attempts that name the cluster's core SRAM are abandoned, and the
remaining cores take slots 0 upward (R42); fewer than six isolate the die (R37). -/
def Dev.retile (d : Dev) (die cluster : Nat) : Dev :=
  let cores := (List.range 9).filter (fun n => !d.coreOut die cluster n)
  let d1 := (List.range 8).foldl (fun d c => [false, true].foldl (fun d newer =>
    match (d.ctx c).step? newer, d.attemptGraph c newer with
    | some r, some g =>
      if r.state = 2 && d.graphSram g r.p.mbCount die cluster then
        d.cause c newer St.checkMismatch clsTask (coreUnit die cluster 15 8) 0 0
      else d
    | _, _ => d) d) d
  let x := d1.cluster (die * 4 + cluster)
  let d2 := (d1.dropSram die cluster).setCluster (die * 4 + cluster)
    { x with slots := (List.range 8).map (fun i => cores[i]?), parked := none }
  if cores.length < 6 then d2.isolateDie die else d2.refreshHealth

/-- A slot of a cluster moves to another core; the DPA of its core SRAM stays (R42). -/
def Dev.moveSlot (d : Dev) (die cluster slot core : Nat) : Dev :=
  let x := d.cluster (die * 4 + cluster)
  d.setCluster (die * 4 + cluster) { x with slots := setAt x.slots slot (some core) }

/-- The slot a core serves. -/
def Dev.slotOf (d : Dev) (die cluster core : Nat) : Option Nat :=
  (List.range 8).find? (fun s => at' (d.cluster (die * 4 + cluster)).slots s none = some core)

/-- A core leaves its slot for good: to the spare, or the slot is lost (R37, R42, R368). -/
def Dev.vacate (d : Dev) (die cluster core : Nat) : Dev :=
  match d.slotOf die cluster core with
  | none => d.refreshHealth
  | some s =>
    match d.spareOf die cluster with
    | some n => (d.moveSlot die cluster s n).refreshHealth
    | none => d.retile die cluster

/-- A held core that runs no slice leaves the slot it still serves (R42, R372). -/
def Dev.leaveHeld (d : Dev) (die cluster core : Nat) : Dev :=
  if (d.hist (coreUnit die cluster core 0)).held && !(d.core (coreKey die cluster core)).busy && (d.slotOf die cluster core).isSome then
    d.vacate die cluster core
  else d

/-- A permanent core is mapped out; the record names its permanent sub-unit, the lowest where there are several (R368). -/
def Dev.mapOut (d : Dev) (die cluster core : Nat) : Dev :=
  let k := coreKey die cluster core
  if d.health.mapped.contains k then d
  else
    let d1 := upto 7 (fun s d =>
      let u := coreUnit die cluster core s
      let h := d.hist u
      if h.state = 2 then d.setHist u { h with state := 3 } else d) d
    let d2 := ({ d1 with health := { d1.health with mapped := insertNat d1.health.mapped k } }.stick Sticky.mapout).record
      { type := Rt.health, unit := coreUnit die cluster core (((List.range 7).find? (fun s => decide ((d.hist (coreUnit die cluster core s)).state = 2))).getD 0),
        status := St.unitMappedOut }
    d2.vacate die cluster core

/-! ## Classification (R366, R368) -/

/-- A unit whose faults are judged by location. -/
def isMemUnit (u : Nat) : Bool :=
  ((unitDie u = 18 || unitDie u = 19) && unitSub u = 0) || (32 ≤ unitDie u && unitDie u < 40 && unitSub u = 0)

/-- A DPA lies in the core SRAM or the cluster store that a unit id names: a stored word there that fails its parity poisons its
line (R39, R41, R236). Its history's location key is the unit id (R365). -/
def holdsWord (u a : Nat) : Bool :=
  decide (unitDie u < 16) && decide (dieHalf (unitDie u) = halfOf a) && decide (a < 2 ^ 52) &&
  ((unitSub u = 5 && tierOf a = 3 && decide (8 * halfOf a + bits a 30 28 = unitDie u) && decide (bits a 27 26 = unitCluster u))
    || (unitSub u = 8 && tierOf a = 2 && decide (8 * halfOf a + bits a 29 27 = unitDie u) && decide (bits a 26 25 = unitCluster u)))

/-- A hub core is withdrawn; the fifth of one hub isolates its die (R368, R447). -/
def Dev.withdrawHub (d : Dev) (half core : Nat) : Dev :=
  let k := hubKey half core
  if d.health.withdrawn.contains k then d
  else
    let u := hubUnitIx half 0 core
    let d0 := match (d.hub k).holds.bind (fun t => d.insts.find? (fun i => i.token = t && i.started && i.op = 9)) with
      | some i => d.cause i.ctx i.newer St.hubTaskFailed clsTask u 0 0
      | none => d
    let d1 := ((d0.withdrawTarget half core).setHist u { d0.hist u with state := 3 }).stick Sticky.mapout
    let d2 := (d1.record { type := Rt.health, unit := u, status := St.unitMappedOut }).refreshHealth
    if 5 ≤ (d2.health.withdrawn.filter (fun x => x / 64 = half)).length then d2.isolateDie (hubDie half) else d2

/-- The standby complex leaves service (R416). -/
def Dev.dropStandby (d : Dev) (half : Nat) : Dev :=
  let x := at' d.fw.complexes half {}
  if x.active then d
  else
    { d with fw := { d.fw with complexes := setAt d.fw.complexes half { x with standby := false, out := true } } }.refreshHealth

/-- The record of a link that retires (R375, R376); no rule gives its status, which is a free value. -/
def Dev.linkRecord (d : Dev) (unit link : Nat) : Dev :=
  (d.record { type := Rt.fabric, unit := unit, status := BitVec.ofNat 16 (Config.value d.free).toNat, opcode := link }).drawn

/-- A port retires: its packets are resent whole, in order, on the other port of its direction, those of an express port by
the torus. A plane that loses both ports of a direction marks the device failed (R306). -/
def Dev.retirePort (d : Dev) (p : Nat) : Dev :=
  let x := d.port p
  if x.state = 3 || !isUlusil p || !d.halfOn (portHalf p) then d
  else
    let q := siblingPort p
    let d1 := d.setPort p { state := 3, lambdas := x.lambdas, peer := x.peer, peerHalf := x.peerHalf }
    let d2 := (d1.stick Sticky.portRetired).linkRecord (portUnit p) p
    let d3 :=
      if isTorus p then
        let y := d2.port q
        if y.state = 3 then d2
        else (d2.setPort q { y with queued := x.queued.foldl (fun m e => m.insert e.1 e.2) y.queued }).pumpPort q
      else x.queued.foldl (fun d e => d.sendPacket (portHalf p) (some none) { e.2.1 with express := false } e.2.2) d2
    let d4 := if isTorus p ∧ (d3.port q).state = 3 then d3.failDevice (portUnit p) else d3
    d4.refreshHealth

/-- A port goes on without a wavelength; with fewer than four left it retires (R305, R306). -/
def Dev.loseWavelength (d : Dev) (port lam : Nat) : Dev :=
  if !isUlusil port || !d.halfOn (portHalf port) then d
  else
    let x := d.port port
    let l := x.lambdas.filter (· ≠ lam)
    let d1 := d.setPort port { x with lambdas := l }
    if l.length < 4 then d1.retirePort port else d1

/-- The action of R368 on a permanent unit; a core is mapped out at its next slice boundary and a location is
retired at the next step boundary, each by a command of its own. -/
def Dev.actPermanent (d : Dev) (u key : Nat) : Dev :=
  let die := unitDie u
  let sub := unitSub u
  if die < 16 then if unitCore u < 9 ∧ sub ≤ 6 then d else d.isolateDie die
  else if die = 16 ∨ die = 17 then
    if sub = 0 then d.withdrawHub (die - 16) (unitCluster u * 16 + unitCore u)
    else if sub = 0xA ∨ sub = 0xB then d.dropStandby (die - 16)
    else d.isolateDie die
  else if isMemUnit u then
    let p : Nat × Nat := (if die < 20 then 0 else 1, key)
    { d with health := { d.health with pendRetire := d.health.pendRetire ++ [p] } }
  else if 20 ≤ die ∧ die < 32 ∧ sub = 0 then d.retirePort (4 * (die - 20) + unitCore u)
  else if 20 ≤ die ∧ die < 32 ∧ sub = 1 then d.loseWavelength (4 * (die - 20) + unitCluster u) (unitCore u)
  else if die = 63 then if sub = 0 then d else d.failDevice u
  else d.isolateDie die

/-- The key that retirement acts on: a stash block or an HBM extent. -/
def retireKey (u key : Nat) : Nat := if unitDie u < 20 then key / 65536 else key / 2 ^ 21

/-- A location has been retired or awaits it. -/
def Dev.retiredLoc (d : Dev) (u key : Nat) : Bool :=
  let k := retireKey u key
  let h := d.health
  (if unitDie u < 20 then h.stashRetired else h.hbmRetired).contains k
  || h.pendRetire.any (fun p => p.1 = (if unitDie u < 20 then 0 else 1) && retireKey u p.2 = k)

/-- classify(u, permanent): a unit that is PERMANENT or MAPPED_OUT, or a location retired already, takes no
further action (R366, R381). A memory unit's classification is that of the location. -/
def Dev.permanent (d : Dev) (u key : Nat) : Dev :=
  if isMemUnit u then
    if d.retiredLoc u key then d
    else (d.record { type := Rt.health, unit := u, status := St.unitPermanent, addr := key }).actPermanent u key
  else if 2 ≤ (d.hist u).state then d
  else
    ((d.setHist u { d.hist u with state := 2 }).record
      { type := Rt.health, unit := u, status := St.unitPermanent, addr := key }).actPermanent u key

/-- The location entry of enter_event. -/
def Hist.loc (h : Hist) (key : Nat) : Loc × Nat :=
  match firstIx (fun (e : Loc) => e.key = key) h.locs with
  | some i => (at' h.locs i { key := key }, i)
  | none =>
    if h.locs.length < 4 then ({ key := key }, h.locs.length)
    else
      let age (i : Nat) : Nat := match (at' h.locs i { key := 0 }).tB with | some t => t + 1 | none => 0
      ({ key := key }, (List.range 4).foldl (fun b i => if age i < age b then i else b) 0)

/-- enter_event of R366: `kind` 0 corrected, 1 uncorrectable, 2 check failure, 3 lockstep mismatch. A corrected
error writes its record when it is the first at its key within 72 h or changes the classification (R376). -/
def Dev.enterEvent (d : Dev) (u key kind : Nat) : Dev :=
  let t := d.opTime
  let h := d.hist u
  let l := h.loc key
  let perm : Bool := match l.1.tA with | some a => decide (t - a ≤ 259200) | none => false
  let fresh : Bool := match l.1.tB with | some b => decide (259200 < t - b) | none => true
  let taken := if isMemUnit u then d.retiredLoc u key else decide (2 ≤ h.state)
  let e : Loc := { key := key, tA := l.1.tB, tB := some t }
  let h1 := { h with
    corrected := h.corrected + (if kind = 0 then 1 else 0), uncorrected := h.uncorrected + (if kind = 1 then 1 else 0),
    checks := h.checks + (if 2 ≤ kind then 1 else 0), firstOp := some (h.firstOp.getD t), lastOp := t,
    watchOp := (if h.state = 1 then t else h.watchOp),
    locs := (if l.2 < h.locs.length then setAt h.locs l.2 e else h.locs ++ [e]) }
  let d1 := d.setHist u h1
  let d2 := if kind = 0 ∧ (fresh ∨ (perm ∧ ¬ taken)) then
      d1.record { type := Rt.memory, unit := u, status := St.memCorrected, addr := key }
    else d1
  if perm then d2.permanent u key else d2

/-! ## Poison (R253 to R256) -/

/-- A context dies: CONTEXT_LOST, its steps end and it leaves its job (R255). -/
def Dev.loseContext (d : Dev) (c addr : Nat) : Dev :=
  let d1 := (d.stick Sticky.contextLost).record { type := Rt.memory, status := St.contextLost, addr := addr, ctx := some c }
  let d2 := (d1.endStep c true St.poisonConsumed).endStep c false St.poisonConsumed
  (d2.leaveJob c).settleLeaving

/-- The descriptors that a task writes. -/
def Dev.taskOuts (d : Dev) (g : GraphHdr) (t : Task) (mb : Nat) : List TD :=
  let td (k : Nat) : List TD := match d.taskTd g t mb k with | some x => [x] | none => []
  if t.op = opFmul ∨ t.op = opBmul then td 2
  else if t.op = opConvert ∨ t.op = opCombine ∨ t.op = opCollective ∨ t.op = opCopy then td 1
  else if t.op = opVu ∨ t.op = opHub then (List.range 6).flatMap td
  else []

/-- An address lies in a context's sump, or in an extent to which a step of its spilt (R247, R251). -/
def Dev.inSump (d : Dev) (c a : Nat) : Bool :=
  let die := hubDie (halfOf a)
  let b := d.com64 die (0x07000004 + c * 64)
  (decide (b ≤ a) && decide (a < b + d.committed die (0x0700000C + c * 64) * 2 ^ 21))
  || d.allocs.any (fun x => x.ctx = c && decide (x.base ≤ a) && decide (a < x.base + x.extents * 2 ^ 21)
      && ((d.ctx c).older.toList ++ (d.ctx c).newer.toList).any (fun r => r.spill.contains x.base))

/-- A line of an attempt is re-derivable: it lies in the stash, a sump or a spill extent, or in a tensor that a task of the
attempt's graph writes (R255). -/
def Dev.rederivable (d : Dev) (c : Nat) (newer : Bool) (a : Nat) : Bool :=
  if tierOf a = 1 || d.inSump c a then true
  else match (d.ctx c).step? newer, d.attemptGraph c newer with
    | some r, some g => (List.range g.taskCount).any (fun i =>
        let t := d.graphTask g i
        (List.range (if t.scope = 1 then 1 else r.p.mbCount)).any (fun m =>
          (d.taskOuts g t m).any (fun x => x.view = 0 && decide (x.base ≤ a) && decide (a < x.base + x.span))))
    | _, _ => false

/-- A KV row that the current step wrote: a page of a sequence at or above its committed length (R255). -/
def Dev.stepRow (d : Dev) (c : Nat) (a : Nat) : Bool :=
  d.seqs.any (fun s =>
    let r := d.seqRec s
    let half := halfOf s
    r.ctx = c && (List.range r.ptEntries).any (fun p =>
      let e := d.ptEntry r.ptPtr p
      let f := d.frameAddr half r.pool (ptFrame e)
      let n := d.frameBytes half r.pool
      ptValid e && !ptEvicted e && decide (f ≤ a) && decide (a < f + n)
        && decide (r.committedLen ≤ 16 * p + (a - f) / (n / 32) % 16)))

/-- An address of a context's PARITY allocation (R255). -/
def Dev.isParity (d : Dev) (c a : Nat) : Bool :=
  d.allocs.any (fun x => x.ctx = c && x.parity && decide (x.base ≤ a) && decide (a < x.base + x.extents * 2 ^ 21))

/-- A task consumed poison: the record names the consumer and the first poisoned line; re-derivable data is
computed again, protected data is repaired first, and any other data kills the context (R254, R255). -/
def Dev.consumePoison (d : Dev) (c : Nat) (newer : Bool) (unit task line : Nat) : Dev :=
  let a := 64 * line % 2 ^ 52
  let d1 := (d.stick Sticky.poison).updCtx c (fun x => { x with poisonCount := x.poisonCount + 1 })
  if d1.rederivable c newer a || d1.stepRow c a then d1.cause c newer St.poisonConsumed clsTask unit task a
  else if d1.isParity c a then
    (d1.updCtx c (fun x => { x with repairs := insertNat x.repairs line })).cause c newer St.poisonConsumed clsTask unit task a
  else
    (d1.record { type := Rt.memory, unit := unit, status := St.poisonConsumed, opcode := task, addr := a, ctx := some c }).loseContext c a

/-- The spare that a slot may move to: the cluster's, unless it is suspect (R372, R381). -/
def Dev.goodSpare (d : Dev) (die cluster : Nat) : Option Nat :=
  match d.spareOf die cluster with
  | some n => if d.coreSuspect die cluster n then none else some n
  | none => none

/-- The failed retry of a slice that no spare takes: the attempt is abandoned (R36, R291). -/
def Dev.escalate (d : Dev) (c : Nat) (newer : Bool) (die cluster core task : Nat) : Dev :=
  d.cause c newer St.checkMismatch clsTask (coreUnit die cluster core 0) task 0

end Sys2Proof.Machine
end

