-- ==== Sys2Proof/Machine/Xc.lean ====
section
/-! DEFINITION. The crosscut (R22 to R34, R44): flits and their parity, links, receive windows, what an instance reads and
writes through them, and the Headframe's accesses to the other half. -/

namespace Sys2Proof.Machine

/-! ## Flits (R29) -/

/-- The low n bits of a number hold an odd count of ones. -/
def oddOnes (n v : Nat) : Bool := (List.range n).foldl (fun b i => b ^^ bit v i) false

/-- The header of a flit. -/
def flitHeader (seq cls : Nat) (first last poison : Bool) (src dst window gen words : Nat) : BitVec 64 :=
  let lo := seq % 4096 + cls % 4 * 2 ^ 12 + flag first 14 + flag last 15 + flag poison 16 + src % 64 * 2 ^ 17 + dst % 64 * 2 ^ 23
  let hi := window % 65536 + gen % 256 * 2 ^ 16 + words % 128 * 2 ^ 24
  BitVec.ofNat 64 (lo + flag (oddOnes 31 lo) 31 + (hi + flag (oddOnes 31 hi) 31) * 2 ^ 32)

/-- The payload-parity field over 16 words. -/
def payloadParity (l : List Word) : BitVec 16 := BitVec.ofNat 16 ((List.range 16).map (fun i => flag (oddOnes 32 (at' l i 0).toNat) i)).sum

/-- SEQ. -/
def flitSeq (f : XFlit) : Nat := bits f.header.toNat 11 0
/-- CLASS. -/
def flitClass (f : XFlit) : Nat := bits f.header.toNat 13 12
/-- FIRST. -/
def flitFirst (f : XFlit) : Bool := bit f.header.toNat 14
/-- LAST. -/
def flitLast (f : XFlit) : Bool := bit f.header.toNat 15
/-- WORDS. -/
def flitCount (f : XFlit) : Nat := bits f.header.toNat 62 56
/-- The header and the payload pass parity. -/
def flitOk (f : XFlit) : Bool :=
  !oddOnes 32 (bits f.header.toNat 31 0) && !oddOnes 32 (bits f.header.toNat 63 32) && f.words.length = 16 && f.parity = payloadParity f.words
/-- A flit without a reserved value: class, bits [30:29], the dies and WORDS (R8, R29). -/
def flitLegal (f : XFlit) : Bool :=
  decide ((flitClass f) < 3) && bits f.header.toNat 30 29 = 0 && decide (bits f.header.toNat 22 17 < 40) && decide (bits f.header.toNat 28 23 < 40)
  && decide (1 ≤ flitCount f) && decide (flitCount f ≤ 16)

/-- The flits of a message. -/
def msgFlits (m : XMsg) : Nat := max 1 (ceilDiv m.words.length 16)

/-- Flit i of a message under a sequence number. -/
def xFlit (m : XMsg) (seq i : Nat) : XFlit :=
  let part := (m.words.drop (16 * i)).take 16
  let body := part ++ List.replicate (16 - part.length) 0
  { header := flitHeader seq m.cls (i = 0) (i + 1 = msgFlits m) m.poison m.src m.dst m.window m.gen (max 1 part.length)
    words := body, parity := payloadParity body }

/-- What a receiver holds of a message after one more flit: the first flit gives the header's fields. A message with a flit that
holds a reserved value, or without its first flit, has no class (log entry 63). -/
def joinFlit (f : XFlit) (m? : Option XMsg) : XMsg :=
  let h := f.header.toNat
  let body := f.words.take (flitCount f)
  let start : XMsg := {
    cls := if flitLegal f && flitFirst f then (flitClass f) else 3, src := bits h 22 17, dst := bits h 28 23, window := bits h 47 32, gen := bits h 55 48,
    poison := bit h 16, words := body }
  if flitFirst f then start
  else match m? with
    | some m => { m with cls := if flitLegal f then m.cls else 3, words := m.words ++ body, poison := m.poison || bit h 16 }
    | none => start

/-! ## Links: the sender (R27 to R31) -/

/-- The flit that a link sends next (R27, R28): of the oldest message with credits in its class; a message that has begun is
ended before another of its class. The message's number, the message and the flit's place. -/
def XLink.next (x : XLink) : Option (Nat × XMsg × Nat) :=
  if !x.up || 1024 ≤ x.replay.length then none
  else
    let left := x.msgs.filter (fun q => decide (x.sent.get 0 q.1 < msgFlits q.2))
    let heads := (List.range 3).filterMap (fun c =>
      if at' x.credits c 0 = 0 then none
      else
        let l := left.filter (fun q => q.2.cls = c)
        match l.find? (fun q => decide (0 < x.sent.get 0 q.1)) with
        | some q => some q
        | none => l.head?)
    let id := (heads.map (·.1)).min?
    (heads.find? (fun q => some q.1 = id)).map (fun q => (q.1, q.2, x.sent.get 0 q.1))

/-- A flit leaves the sender, which holds it for replay and has one credit less. -/
def Dev.sendFlit (d : Dev) (dir link : Nat) (q : Nat × XMsg × Nat) : Dev :=
  let x := d.xlink dir link
  (d.setXlink dir link { x with
    replay := x.replay ++ [{ seq := x.txSeq, msg := q.1, sends := 1, ix := q.2.2 }], txSeq := (x.txSeq + 1) % 4096
    sent := x.sent.insert q.1 (q.2.2 + 1), credits := setAt x.credits q.2.1.cls (at' x.credits q.2.1.cls 0 - 1) }).emit
    (.crosscut dir link (xFlit q.2.1 x.txSeq q.2.2))

/-- A link sends up to n flits, while it has one to send. -/
def Dev.sendFlits (d : Dev) (dir link : Nat) : Nat → Dev
  | 0 => d
  | n + 1 => match (d.xlink dir link).next with
    | none => d
    | some q => (d.sendFlit dir link q).sendFlits dir link n

/-- A link sends what its credits and its replay buffer of 1,024 flits let it send. -/
def Dev.pumpLink (d : Dev) (dir link : Nat) : Dev := d.sendFlits dir link 1024

/-- Two messages keep their order: one source die, one destination die, one class (R28). -/
def sameWay (m n : XMsg) : Bool := m.src = n.src && m.dst = n.dst && m.cls = n.cls

/-- The link that a message takes, among those of its direction in service: the one that still holds a message with which it
keeps its order, otherwise the device's choice (R28, R31, R494). -/
def Dev.linkFor (d : Dev) (dir : Nat) (m : XMsg) (ups : List Nat) : Nat :=
  match ups.find? (fun l => (d.xlink dir l).msgs.any (fun q => sameWay q.2 m)) with
  | some l => l
  | none => at' ups (d.pick ups.length) 0

/-- A message that a fenced ingress discards ends the task whose window it was for (R34). -/
def Dev.fencedMsg (d : Dev) (half : Nat) (m : XMsg) : Dev :=
  if m.cls = 2 then d
  else match d.xc.windows.find? (fun w => w.half = half && w.num = m.window && w.gen = m.gen && !w.got) with
    | some w => d.cause w.ctx w.newer St.halfFenced clsTask (63 * 1024) w.task 0
    | none => d

/-- A message enters a link of a direction; behind the fence it is discarded (R27, R34). -/
def Dev.sendCrosscut (d : Dev) (dir : Nat) (m : XMsg) : Dev :=
  let ups := (List.range 32).filter (fun l => (d.xlink dir l).up)
  if d.xc.fenced then d.fencedMsg (1 - dir) m
  else if ups.isEmpty then d
  else
    let link := d.linkFor dir m ups
    let d1 := d.drawn
    let id := d1.xc.nextMsg
    let x := d1.xlink dir link
    ({ d1 with xc := { d1.xc with nextMsg := id + 1 } }.setXlink dir link { x with msgs := x.msgs.insert id m }).pumpLink dir link

/-- The credits of a link after flits leave its replay buffer. -/
def XLink.credited (x : XLink) (gone : List Flit) : List Nat :=
  gone.foldl (fun c f => match (x.msgs.filter (fun q => q.1 = f.msg)).head? with
    | some q => setAt c q.2.cls (at' c q.2.cls 0 + 1)
    | none => c) x.credits

/-- A crosscut acknowledgement frees flits and their credits, and the messages that have none left. -/
def Dev.ackLink (d : Dev) (dir link seq : Nat) : Dev :=
  let x := d.xlink dir link
  let left := ackFlits x.replay seq
  let open' (q : Nat × XMsg) : Bool := decide (x.sent.get 0 q.1 < msgFlits q.2) || left.any (fun f => f.msg = q.1)
  (d.setXlink dir link { x with
    replay := left, credits := x.credited (x.replay.take (x.replay.length - left.length))
    msgs := x.msgs.filter open', sent := x.sent.filter (fun s => x.msgs.any (fun q => q.1 = s.1 && open' q)) }).pumpLink dir link

/-- A replay request makes the sender resend from the named flit, in order. -/
def Dev.nakLink (d : Dev) (dir link seq : Nat) : Dev :=
  let x := d.xlink dir link
  let r := resendFlits x.replay seq
  let d1 := (d.setXlink dir link { x with replay := r.1 }).rcAdd 16 0x0003000C r.2
  (r.1.drop (r.1.length - r.2)).foldl (fun d f => match (x.msgs.filter (fun q => q.1 = f.msg)).head? with
    | some q => d.emit (.crosscut dir link (xFlit q.2 f.seq f.ix))
    | none => d) d1

/-- The crosscut has failed: fewer than 28 links in service in some direction (R31, R34). -/
def Dev.crosscutFailed (d : Dev) : Bool := !d.isClassA && (d.xcLinks 0 < 28 || d.xcLinks 1 < 28)

/-- A link is retired: its unacknowledged messages are resent whole, in their order, on another link of the direction, and the
receiver drops what it holds of them; with too few links left the crosscut has failed (R26, R31). -/
def Dev.retireLink (d : Dev) (dir link : Nat) : Dev :=
  let x := d.xlink dir link
  if !x.up then d
  else
    let d1 := d.setXlink dir link { x with up := false, replay := [], msgs := [], sent := [], rx := [], discarding := false }
    let d2 := (d1.stick Sticky.crosscut).linkRecord (63 * 1024) (dir * 32 + link)
    let ups := (List.range 32).filter (fun l => (d2.xlink dir l).up)
    let dest := at' ups (d2.pick ups.length) 0
    let d3 := d2.drawn
    let y := d3.xlink dir dest
    let d4 := if ups.isEmpty then d3
      else (d3.setXlink dir dest { y with msgs := x.msgs.foldl (fun m q => m.insert q.1 q.2) y.msgs }).pumpLink dir dest
    if d4.crosscutFailed then (d4.fence.failDevice (63 * 1024)).refreshHealth else d4.refreshHealth

/-! ## Receive windows (R23, R24) -/

/-- Where a window's bytes are read: an address space of its own, behind the addresses they have in the other half. -/
def winBase (n : Nat) : Nat := 2 ^ 80 * (1 + n)

/-- An address in the local tiers of the other half. -/
def farAddr (half a : Nat) : Bool := tierOf a ≤ 3 && a < 2 ^ 60 && halfOf a ≠ half

/-- The bytes of a descriptor's scale or zero-point array. -/
def TD.scaleBytes (t : TD) : Nat := if t.fmt = 7 then t.dim t.cdim else t.rows * t.rowBlocks

/-- The runs of bytes that a descriptor names: its rows, and its separate scales or zero points. -/
def TD.runs (t : TD) : List (Nat × Nat) :=
  (t.base, t.span) :: (if t.scaleBase = 0 then [] else [(t.scaleBase, t.scaleBytes)])

/-- The descriptor through which an instance reads an operand: what the other half holds lies in its windows. -/
def Dev.throughWindow (d : Dev) (x : Inst) (t : TD) : TD :=
  let off (a : Nat) : Nat :=
    if farAddr x.half a then match d.xc.windows.find? (fun w => w.of x && w.use = .read && w.addr = a) with
      | some w => winBase w.num
      | none => 0
    else 0
  { t with base := t.base + off t.base, scaleBase := if t.scaleBase = 0 then 0 else t.scaleBase + off t.scaleBase }

/-- The bytes of words. -/
def wordsBytes (l : List Word) : List Byte := l.flatMap (fun v => leBytes 4 v.toNat)

/-- The device as an instance reads it: the received windows shown in their address space, poisoned payloads
poisoned (R33). -/
def Dev.withWindows (d : Dev) (x : Inst) : Dev :=
  (d.xc.windows.filter (fun w => w.of x && w.use = .read && w.got)).foldl (fun d w =>
    let a := xlate x.ctx x.mb (winBase w.num + w.addr)
    let d1 := d.store a ((wordsBytes w.words).take w.bytes)
    if w.poison then { d1 with poison := d1.poison ++ (List.range (lineOf (a + w.bytes) - lineOf a + 1)).map (lineOf a + ·) } else d1) d

/-- A descriptor as an instance takes it for reading: pinned version, attempt scale, windows. -/
def Dev.readTdOf (d : Dev) (x : Inst) (t : TD) : TD := d.throughWindow x (d.resolveTd x.ctx x.newer x.half x.slot t)

/-- A window of an instance opens in a half. -/
def Dev.openWindow (d : Dev) (x : Inst) (half gen a n : Nat) (use : WinUse) : Dev :=
  let num := d.xc.nextWindow
  let w : Window := {
    half := half, num := num, gen := gen, ctx := x.ctx, newer := x.newer, task := x.task, mb := x.mb, addr := a, bytes := n, use := use }
  { d with xc := { d.xc with nextWindow := num % 65535 + 1, windows := d.xc.windows ++ [w] } }

/-- The words of n bytes. -/
def bytesWords (l : List Byte) : List Word := (chunksOf 4 l).map (fun b => word (leValue b))

/-- A message from the hub of one half to a window in the other. -/
def windowMsg (cls half window gen : Nat) (poison : Bool) (words : List Word) : XMsg :=
  { cls := cls, src := hubDie (1 - half), dst := hubDie half, window := window, gen := gen, poison := poison, words := words }

/-- The copy of a run of the other half that an instance reads: a window opens in its half, the other half sends the bytes, and
they are counted (R24, R302). -/
def Dev.copyIn (d : Dev) (x : Inst) (gen a n : Nat) : Dev :=
  let src := xlate x.ctx x.mb a
  let d1 := (d.openWindow x x.half gen a n .read).updCtx x.ctx (fun c => { c with xcCopyBytes := c.xcCopyBytes + n })
  d1.sendCrosscut (1 - x.half) (windowMsg 0 x.half d.xc.nextWindow gen (d.poisoned? src n).isSome (bytesWords (d.mem.readBytes src n)))

/-- The runs of operands that lie in the other half and have no window of the instance yet. -/
def Dev.farRuns (d : Dev) (x : Inst) (tds : List TD) : List (Nat × Nat) :=
  (((tds.flatMap (·.runs)).filter (fun r => farAddr x.half r.1)).filter (fun r =>
    !d.xc.windows.any (fun w => w.of x && w.use = .read && w.addr = r.1))).dedup

/-! ## What an instance writes (R22, R25) -/

/-- The hint REPLICATE_HALVES (R14). -/
abbrev hintReplicate : Nat := 7

/-- A tensor with a copy in each half (R25). -/
def TD.twoCopies (t : TD) : Bool := t.hint = hintReplicate && tierOf t.base ≤ 1

/-- An address in one half and the same in the other. -/
def otherHalf (a : Nat) : Nat := a.xor (2 ^ 47)

/-- The runs that an output takes, in both copies of a replicated tensor. -/
def TD.outRuns (t : TD) : List (Nat × Nat) :=
  if t.twoCopies then t.runs ++ t.runs.map (fun r => (otherHalf r.1, r.2)) else t.runs

/-- The writes of an output, to both copies of a replicated tensor. -/
def TD.outPuts (t : TD) (puts : List (Nat × List Byte)) : List (Nat × List Byte) :=
  if t.twoCopies then puts ++ puts.map (fun q => (otherHalf q.1, q.2)) else puts

/-- The windows in the other half for what an instance writes there, one for each run (R22, R23, R25). -/
def Dev.outWindows (d : Dev) (x : Inst) (gen : Nat) (tds : List TD) : Dev :=
  (((tds.flatMap (·.outRuns)).filter (fun r => farAddr x.half r.1)).dedup).foldl (fun d r =>
    d.openWindow x (1 - x.half) gen r.1 r.2 .out) d

/-- A write of an instance to the other half goes as a data-class message to the window that covers it: the offset in the window
in two words, the count of bytes, and the bytes. -/
def Dev.sendFar (d : Dev) (x : Inst) (a : Nat) (b : List Byte) (poison : Bool) : Dev :=
  match d.xc.windows.find? (fun w => w.of x && w.use = .out && decide (w.addr ≤ a) && decide (a + b.length ≤ w.addr + w.bytes)) with
  | none => d
  | some w =>
    let ws := d.xc.windows.map (fun y => if y.half = w.half && y.num = w.num && y.gen = w.gen then { y with due := y.due + 1 } else y)
    ({ d with xc := { d.xc with windows := ws } }).sendCrosscut x.half (windowMsg 0 w.half w.num w.gen poison
      (word (a - w.addr) :: word ((a - w.addr) / 2 ^ 32) :: word b.length :: bytesWords b))

/-- What an instance writes: into its own half directly, poisoned or not, and into the other half through its windows (R22,
R76). -/
def Dev.putOut (d : Dev) (x : Inst) (puts : List (Nat × List Byte)) (poison : Bool) : Dev :=
  let near := puts.filter (fun q => !farAddr x.half q.1)
  let d1 := if poison then d.poisonRun x.ctx x.mb near else d.putRun x.ctx x.mb near
  (putOrder (puts.filter (fun q => farAddr x.half q.1))).foldl (fun d (q : Nat × List Byte) => d.sendFar x q.1 q.2 poison) d1

/-- Everything an instance has sent to the other half is written there. -/
def Dev.writesIn (d : Dev) (x : Inst) : Bool := (d.xc.windows.filter (fun w => w.of x)).all (fun w => w.due = 0)

/-- The windows of an instance close. -/
def Dev.closeWindows (d : Dev) (x : Inst) : Dev :=
  { d with xc := { d.xc with windows := d.xc.windows.filter (fun w => !w.of x) } }

/-! ## The Headframe's accesses to the other half (R43, R44) -/

/-- A Headframe core takes a RISC-V exception in machine mode (log entry 9). -/
def Dev.hfTrap (d : Dev) (core cause tval : Nat) : Dev :=
  let k := d.fwHalf * 4 + core
  let x := d.fw.hf.get {} k
  let y : HfCore := { x with mepc := x.pc, mcause := word cause, mtval := word tval, mpie := x.mie, mie := false, pc := x.mtvec }
  { d with fw := { d.fw with hf := d.fw.hf.insert k y } }

/-- A store of a Headframe core to a control-space register: an invalid DPA raises an access fault (R43); into the other half it
travels as a control-class message of the DPA and the value, otherwise it is performed (R44). -/
def Dev.hfStore (d : Dev) (core die off : Nat) (v : Word) (act : Dev → Dev) : Dev :=
  if !d.dpaValid (ctlDpa die off) then d.hfTrap core faultStore (ctlDpa die off)
  else if dieHalf die = d.fwHalf then act d
  else
    let a := ctlDpa die off
    d.sendCrosscut d.fwHalf { cls := 2, src := hubDie d.fwHalf, dst := die, window := core, gen := 0, poison := false, words := [word a, word (a / 2 ^ 32), v] }

/-- A register write that a command of its own stands for, by whom it is made: the Headframe's goes where the register lies. -/
def Dev.byWriter (d : Dev) (w : Writer) (die off : Nat) (v : Word) (act : Dev → Dev) : Dev :=
  match w with
  | .headframe core => d.hfStore core die off v act
  | _ => act d

end Sys2Proof.Machine
end

