-- ==== Sys2Proof/Machine/Coll.lean ====
section
/-! DEFINITION. Collectives (R319 to R330): what an instance contributes, digests, exact reduction, results, and
the collectives that the device posts itself. -/

namespace Sys2Proof.Machine

/-! ## What a collective is (R321 to R324) -/

/-- The collective id of the clip SCALAR_SUM (R322). -/
abbrev clipColl : Nat := 0xFFFFF0
/-- The first collective id of the refresh all-reduces (R322). -/
abbrev refreshColl : Nat := 0xFE0000

/-- A collective as this device takes part in it. -/
structure CollInfo where
  op : Nat
  red : Nat
  root : Nat
  clip : Bool
  members : List Nat
  rank : Nat
  half : Nat
deriving DecidableEq, Repr

/-- The fields of a COLLECTIVE task's aux (R321). -/
def auxColl (aux : Nat) : Nat := bits aux 55 32
/-- GROUP. -/
def auxGroup (aux : Nat) : Nat := bits aux 15 8
/-- CLIPSUM. -/
def auxClip (aux : Nat) : Bool := bit aux 30

/-- A member's entry of a group table: logical id and half (R323). -/
def memberOf (logical half : Nat) : Nat := logical % 16384 + half * 16384

/-- The collective of a COLLECTIVE task. -/
def Dev.collOfTask (d : Dev) (c : Nat) (t : Task) : CollInfo :=
  let ms := (d.ctx c).groups.get [] (auxGroup t.aux)
  let me := memberOf (d.ctx c).logical t.half
  { op := t.aux % 16, red := bits t.aux 7 4, root := bits t.aux 29 16, clip := auxClip t.aux, members := ms,
    rank := (firstIx (fun m => decide (m % 32768 = me)) ms).getD 0, half := t.half }

/-- The REDUCE_SCATTER task that writes the gradient of a tensor, with its destination (R164). -/
def Dev.gradTask (d : Dev) (g : GraphHdr) (tensor : Nat) : Option (Nat × Task) :=
  ((List.range g.taskCount).map (fun i => (i, d.graphTask g i))).find? (fun p =>
    p.2.op = opCollective && p.2.aux % 16 = 1 &&
    (match d.taskTd g p.2 0 1 with | some t => decide (t.tensorId = tensor) | none => false))

/-- The collective of an instance of this device: a task of the attempt's graph, the refresh of an update record,
or the clip sum. -/
def Dev.collInfo (d : Dev) (c : Nat) (newer : Bool) (task : Nat) : Option CollInfo :=
  match d.attemptGraph c newer with
  | none => none
  | some g =>
    if task = clipColl then
      let ms := (d.ctx c).groups.get [] 0
      some { op := 5, red := 0, root := 0, clip := false, members := ms, half := 0,
             rank := (firstIx (fun m => decide (m % 16384 = (d.ctx c).logical)) ms).getD 0 }
    else if refreshColl ≤ task then
      match d.gradTask g (d.updRec c (task - refreshColl)).tensorId with
      | some p => some { d.collOfTask c p.2 with op := 0, red := 0, clip := false }
      | none => none
    else if task < g.taskCount then some (d.collOfTask c (d.graphTask g task))
    else none

/-- The collective sequence number of an instance (R322). -/
def Dev.collSeq (d : Dev) (c : Nat) (newer : Bool) (task mb : Nat) : Nat :=
  if refreshColl ≤ task then task * 256
  else match d.attemptGraph c newer with
    | some g => let t := d.graphTask g task; auxColl t.aux * 256 + (if t.scope = 1 then 0 else mb)
    | none => 0

/-- The ranks whose part this device waits for: as a reducer every other rank, otherwise the root's result. -/
def CollInfo.waits (i : CollInfo) : List Nat :=
  let others := (List.range i.members.length).filter (· ≠ i.rank)
  if i.op = 0 ∨ i.op = 5 then if i.rank = 0 then others else [0]
  else if i.op = 3 then if i.rank = i.root then [] else [i.root]
  else others

/-! ## Elements -/

/-- The position of element i of a tensor in row-major order. -/
def TD.posAt (t : TD) (i : Nat) : Pos := t.posOfRow (i / max t.dim0 1) (i % max t.dim0 1)

/-- The first poisoned line that an operand's elements meet, where its descriptor does not allow poison (R254). -/
def Dev.operandPoison (d : Dev) (c mb : Nat) (t : TD) : Option Nat :=
  if t.poisonOk then none else (List.range t.elems).findSome? (fun i => d.elemPoison c mb t (t.posAt i))

/-- Some element of an operand is poisoned. -/
def Dev.hasPoison (d : Dev) (c mb : Nat) (t : TD) : Bool :=
  (List.range t.elems).any (fun i => (d.elemPoison c mb t (t.posAt i)).isSome)

/-- The values of a tensor in element order. -/
def Dev.values (d : Dev) (c mb : Nat) (t : TD) : List Num := (List.range t.elems).map (fun i => d.elemValue c mb t (t.posAt i))

/-- The bits of a tensor in element order, and for a block format its scale codes behind them. -/
def Dev.rawBits (d : Dev) (c mb : Nat) (t : TD) : List Int :=
  (List.range t.elems).map (fun i => (d.elemBits c mb t (t.posAt i) : Int))
  ++ (if isBlocked t.fmt then (List.range (t.elems / 32)).map (fun b => (d.scaleCode c mb t (t.posAt (32 * b)) : Int)) else [])

/-- The writes of elements' bits and, at a block's start, its scale code, as they are. -/
def bitPuts (t : TD) (first : Nat) (els scales : List Int) : List (Nat × List Byte) :=
  let w := fmtBits t.fmt
  let blocks := (chunksOf 32 els).zipIdx
  blocks.flatMap (fun (q : List Int × Nat) =>
    let p := t.posAt (first + 32 * q.2)
    let data := if isBlocked t.fmt then
        [(t.blockAddr p (p.d0 / 32), leBytes (ceilDiv (w * q.1.length) 8) (packElems w (q.1.map Int.toNat)))]
      else (q.1.zipIdx).map (fun (e : Int × Nat) =>
        let p := t.posAt (first + 32 * q.2 + e.2)
        (t.blockAddr p (p.d0 / 32) + p.d0 % 32 * (w / 8), leBytes (w / 8) e.1.toNat))
    if isBlocked t.fmt then data ++ [(t.scaleAddr p (p.d0 / 32), leBytes 1 (at' scales q.2 0).toNat)] else data)

/-- Elements' bits are written to the memory of the writer's half. -/
def Dev.putBits (d : Dev) (c mb : Nat) (t : TD) (first : Nat) (els scales : List Int) : Dev := d.putRun c mb (bitPuts t first els scales)

/-! ## Parts and their digests -/

/-- The elements of a part that its digest covers: not the scale codes that follow them. -/
def partCovered (p : Part) (n : Nat) : List Int := p.elems.take n

/-- A part as it travels: rank, due bell, exponent, digest, the counts of flags and elements, the flags and the elements (log
entry 63). -/
def partBytes (p : Part) : List Byte :=
  leBytes 2 p.rank ++ leBytes 6 p.due ++ leBytes 1 (p.exp % 256).toNat ++ leBytes 8 p.digest ++ leBytes 4 p.nf.length
  ++ leBytes 4 p.elems.length ++ p.nf.map (fun b => if b then 1 else 0) ++ p.elems.flatMap (fun e => leBytes 4 (e % 2 ^ 32).toNat)

/-- A part read back from its bytes; the elements of a SUM, which carries flags, are mantissas with a sign. -/
def bytesPart (l : List Byte) : Part :=
  let f (o n : Nat) : Nat := leValue ((l.drop o).take n)
  let nn := f 17 4
  { rank := f 0 2, due := f 2 6, exp := signed (f 8 1) 8, digest := f 9 8, nf := ((l.drop 25).take nn).map (fun b => decide (b ≠ 0))
    elems := (chunksOf 4 (((l.drop (25 + nn)).take (4 * f 21 4)))).map (fun b =>
      if nn = 0 then (leValue b : Int) else signed (leValue b) 32) }

/-! ## Contributions (R324, R325) -/

/-- A part of a contribution: elements lo to hi − 1. -/
def partSlice (p : Part) (n lo hi : Nat) : Part :=
  { p with
    elems := ((p.elems.take n).drop lo).take (hi - lo) ++ ((p.elems.drop n).drop (lo / 32)).take (ceilDiv hi 32 - lo / 32)
    nf := (p.nf.drop (lo / 32)).take (ceilDiv hi 32 - lo / 32) }

/-- The SUM contribution of a source: mantissas at the exponent e of its slot's attempt scale, one non-finite bit
per block, and what is reported; false where a BFX32 source's block carries another exponent (R325). -/
def Dev.sumPart (d : Dev) (c mb : Nat) (src : TD) (e : Int) : Part × Report × Bool :=
  let xs := d.values c mb src
  let blocks := (chunksOf 32 xs).zipIdx
  if src.fmt = 0x0B then
    let code (b : Nat) : Nat := d.scaleCode c mb src (src.posAt (32 * b))
    let ok := blocks.all (fun (q : List Num × Nat) => code q.2 = 0x80 || signed (code q.2) 8 = e)
    let els := (List.range src.elems).map (fun i =>
      if code (i / 32) = 0x80 then 0 else signed (d.elemBits c mb src (src.posAt i)) 32)
    let reps := blocks.flatMap (fun (q : List Num × Nat) => q.1.map (fun x =>
      elemReport 0x0B 0 x ⟨0, if x.nonfinite then .nonfinite else .none⟩))
    ({ rank := 0, due := 0, exp := e, nf := blocks.map (fun (q : List Num × Nat) => decide (code q.2 = 0x80)), elems := els, digest := 0 },
      Report.sum reps, ok)
  else
    let outs := blocks.map (fun (q : List Num × Nat) => (q.1, convertBfx q.1 (.fin false 1) e))
    ({ rank := 0, due := 0, exp := e, nf := outs.map (fun (o : List Num × (Nat × List COut)) => decide (o.2.1 = 0x80)),
       elems := outs.flatMap (fun (o : List Num × (Nat × List COut)) =>
         o.2.2.map (fun x => if o.2.1 = 0x80 then 0 else signed x.bits 32)), digest := 0 },
      Report.sum (outs.flatMap (fun (o : List Num × (Nat × List COut)) =>
        (o.1.zip o.2.2).map (fun (x : Num × COut) => elemReport 0x0B 0 x.1 x.2))), true)

/-- The exponent of a bound POW2 slot's attempt scale. -/
def Dev.slotExp (d : Dev) (k : Nat) : Int := floorLog2 (magOf (d.slot k).attemptScale)

/-! ## The collective engine's table -/

/-- An entry is the one of a context, sequence number and generation. -/
def Coll.is (q : Coll) (c cseq gen : Nat) : Bool := q.ctx = c && q.cseq = cseq && q.gen = gen

/-- The entry of a collective. -/
def Dev.coll? (d : Dev) (c cseq gen : Nat) : Option Coll := d.fab.colls.find? (fun q => q.is c cseq gen)

/-- Change or make the entry of a collective. -/
def Dev.putColl (d : Dev) (q : Coll) : Dev :=
  let l :=
    if d.fab.colls.any (fun (x : Coll) => x.is q.ctx q.cseq q.gen) then
      d.fab.colls.map (fun (x : Coll) => if x.is q.ctx q.cseq q.gen then q else x)
    else d.fab.colls ++ [q]
  { d with fab := { d.fab with colls := l } }

/-- The number of elements of a collective's source. -/
def Dev.collElems (d : Dev) (c : Nat) (newer : Bool) (task mb : Nat) : Nat :=
  match d.attemptGraph c newer with
  | none => 0
  | some g =>
    if task = clipColl then 1
    else if refreshColl ≤ task then
      let r := d.updRec c (task - refreshColl)
      match d.gradTask g r.tensorId with
      | some p => match d.taskTd g p.2 0 0 with | some t => t.dim0 * r.rank | none => 0
      | none => 0
    else match d.taskTd g (d.graphTask g task) mb 0 with | some t => t.elems | none => 0

/-- The elements of a source that go to (or come from) a rank: shard k of a REDUCE_SCATTER, segment k of an
ALL_TO_ALL, all of them otherwise (R324). -/
def CollInfo.range (i : CollInfo) (elems k : Nat) : Nat × Nat :=
  let n := max i.members.length 1
  if i.op = 1 then
    let b := ceilDiv elems 32
    let q := ceilDiv b n
    (min (32 * k * q) elems, min (32 * min ((k + 1) * q) b) elems)
  else if i.op = 4 then (k * (elems / n), (k + 1) * (elems / n))
  else (0, elems)

/-- A part is sealed with its digest and sent to a member. -/
def Dev.sendPart (d : Dev) (c : Nat) (i : CollInfo) (q : Coll) (result : Bool) (dest : Nat) (p : Part) : Dev :=
  let m := at' i.members dest 0
  d.sendLogical c i.half (m % 16384) (bits m 14 14) 2 (if result then 3 else 2) q.cseq q.gen (partBytes p)

/-- The seed and the number a step will carry, which key its digests. -/
def Dev.digestKey (d : Dev) (c : Nat) (newer : Bool) : Nat × Nat :=
  match (d.ctx c).step? newer with
  | some r => (r.seed.toNat, r.p.step)
  | none => (0, 0)

/-- A part with its digest; its elements start at element `lo` of the source. -/
def Dev.withDigest (d : Dev) (q : Coll) (lo n : Nat) (p : Part) : Part :=
  let k := d.digestKey q.ctx q.newer
  { p with digest := digest k.1 q.cseq k.2 (lo / 32) (partCovered p n) }

/-- Non-finite arithmetic elements as FP32 numbers. -/
def bitsNum (fmt : Nat) (x : Int) : Num := decodeElem fmt x.toNat

/-- MAX of two numbers: NaN wins, and +0 is above −0 (R166). -/
def Num.max (a b : Num) : Num :=
  match a, b with
  | .nan, _ => .nan
  | _, .nan => .nan
  | .inf n, y => if n then y else .inf false
  | x, .inf n => if n then x else .inf false
  | .fin a x, .fin b y =>
    let u := if a then -x else x
    let v := if b then -y else y
    if u < v then .fin b y else if v < u then .fin a x else .fin (a && b) x

/-- MIN of two numbers: NaN wins, and −0 is below +0 (R166). -/
def Num.min (a b : Num) : Num := ((a.neg).max b.neg).neg

/-- The bits of the greater of two elements of a float format. -/
def maxBits (fmt : Nat) (a b : Int) : Int :=
  match floatFmt fmt with
  | some t => (t.bitsOf ((bitsNum fmt a).max (bitsNum fmt b)) : Int)
  | none => max a b

/-- Saturation to ±(2^31 − 1) (R327). -/
def satMant (x : Int) : Int := max (min x (2 ^ 31 - 1)) (-(2 ^ 31 - 1))

/-- The parts in rank order. -/
def sortParts (l : List Part) : List Part :=
  l.foldl (fun (a : List Part) p => a.takeWhile (fun q => q.rank ≤ p.rank) ++ p :: a.dropWhile (fun q => q.rank ≤ p.rank)) []

/-- The reduction of parts (R324, R326, R328): the result and how many elements saturated. -/
def reduceParts (i : CollInfo) (fmt : Nat) (l : List Part) : Part × Nat :=
  match sortParts l with
  | [] => ({ rank := i.rank, due := 0, exp := 0, nf := [], elems := [], digest := 0 }, 0)
  | p :: r =>
    if i.op = 5 then
      ({ p with elems := r.foldl (fun a q => (a.zip q.elems).map (fun (x : Int × Int) =>
          (fp32.bitsOf (roundFp32 ((bitsNum 0x0A x.1).add (bitsNum 0x0A x.2))) : Int))) p.elems }, 0)
    else if i.red = 1 then
      ({ p with elems := r.foldl (fun a q => (a.zip q.elems).map (fun (x : Int × Int) => maxBits fmt x.1 x.2)) p.elems }, 0)
    else
      let s := r.foldl (fun a q => (a.zip q.elems).map (fun (x : Int × Int) => x.1 + x.2)) p.elems
      let nf := r.foldl (fun a q => (a.zip q.nf).map (fun (x : Bool × Bool) => x.1 || x.2)) p.nf
      ({ p with elems := s.map satMant, nf := nf }, (s.filter (fun x => satMant x ≠ x)).length)

/-- A SUM reducer's own check (R330): the digest of its exact sum is the sum, modulo p, of the digests its inputs carried. The
first `n` elements are digested, from block `base` on. -/
def sumChecked (seed cseq step base n : Nat) (l : List Part) : Bool :=
  match l with
  | [] => true
  | p :: r =>
    let s := r.foldl (fun a q => (a.zip q.elems).map (fun (x : Int × Int) => x.1 + x.2)) p.elems
    digest seed cseq step base (s.take n) = (l.map (·.digest)).foldl (· + ·) 0 % digestP

/-- A SUM result is written at the destination (R326): blocks with the bit set are marked non-finite, and the
others are converted from BFX32; a BFX32 destination keeps exponent and mantissas. -/
def Dev.writeSum (d : Dev) (x : Inst) (dst : TD) (p : Part) : Dev :=
  if dst.fmt = 0x0B then
    let els := p.elems.zipIdx.map (fun (x : Int × Nat) => if at' p.nf (x.2 / 32) false then 0 else x.1 % 2 ^ 32)
    let rep := Report.sum (p.elems.zipIdx.map (fun (x : Int × Nat) =>
      if at' p.nf (x.2 / 32) false then elemReport 0x0B 0 .nan ⟨0, .nonfinite⟩
      else elemReport 0x0B 0 (.ofRat ((x.1 : Rat) * pow2 p.exp)) ⟨0, .none⟩))
    (d.putOut x (dst.outPuts (bitPuts dst 0 els (p.nf.map (fun b => if b then 0x80 else p.exp % 256)))) false).reportTo x.ctx x.newer x.half dst rep
  else
    let xs := p.elems.zipIdx.map (fun (x : Int × Nat) =>
      if at' p.nf (x.2 / 32) false then Num.nan else .ofRat ((x.1 : Rat) * pow2 p.exp))
    let runs := (List.range (ceilDiv dst.elems 32)).map (fun b =>
      let part := ((xs.drop (32 * b)).take 32).zipIdx
      part.foldl (fun (a : RunOut) (x : Num × Nat) =>
        let q := dst.posAt (32 * b + x.2)
        let o := convertPlain dst.fmt x.1 (fp32Val dst.tscale) dst.infOk
        a.append 1 { puts := [(dst.blockAddr q (q.d0 / 32) + q.d0 % 32 * (fmtBits dst.fmt / 8), leBytes (fmtBits dst.fmt / 8) o.bits)],
                     rep := elemReport dst.fmt 0 x.1 o }) {})
    (d.putOut x (dst.outPuts (runs.flatMap (·.puts))) false).reportTo x.ctx x.newer x.half dst (Report.sum (runs.map (·.rep)))

/-- The trainable elements of a shard under a record's mask: element e of the whole tensor (R171). -/
def Dev.trainable (d : Dev) (r : UpdRec) (head : TD) (e : Nat) : Bool :=
  let b (i : Nat) : Bool := bit (d.ld (r.maskBase + i / 8) 1) (i % 8)
  if r.maskKind = 1 then b (e / max head.dim0 1 % head.dim1)
  else if r.maskKind = 2 then b (e % max head.dim0 1)
  else if r.maskKind = 3 then b e
  else true

/-- The exact square sum of a written shard's trainable elements, none where one is not finite (R169). -/
def Dev.shardSq (d : Dev) (c mb : Nat) (shape : TD) (dst : TD) (lo : Nat) : Option Rat :=
  let r? := d.viewRec c dst
  (List.range dst.elems).foldl (fun (a : Option Rat) i =>
    let use : Bool := match r? with | some r => d.trainable r shape (lo + i) | none => true
    match a with
    | none => none
    | some s => if !use then some s else match d.elemValue c mb dst (dst.posAt i) with
      | .fin _ m => some (s + m * m)
      | _ => none) (some 0)

/-- A result reaches the destination of its task (R324): a shard, the whole result, or a rank's segment. -/
def Dev.writeResult (d : Dev) (q : Coll) (i : CollInfo) (p : Part) (from' : Nat) : Dev :=
  if refreshColl ≤ q.task then d
  else match d.attemptGraph q.ctx q.newer with
    | none => d
    | some g =>
      let t := d.graphTask g q.task
      match d.inst? q.ctx q.newer q.task q.mb, d.taskTd g t q.mb 0, d.taskTd g t q.mb 1 with
      | some x, some s0, some t0 =>
        let src := d.resolveTd q.ctx q.newer i.half x.slot s0
        let dst := d.resolveTd q.ctx q.newer i.half x.slot t0
        let n := d.collElems q.ctx q.newer q.task q.mb
        let d1 :=
          if i.red = 0 ∧ i.op ≤ 1 then d.writeSum x dst p
          else
            let len := (i.range n i.rank).2 - (i.range n i.rank).1
            let first := if i.op = 2 then from' * n else if i.op = 4 then from' * len else 0
            d.putOut x (dst.outPuts (bitPuts dst first (p.elems.take len) (p.elems.drop len))) false
        if i.clip ∧ i.op = 1 then
          let s := d1.shardSq q.ctx q.mb src dst (i.range n i.rank).1
          d1.updCtx q.ctx (fun x => { x with clipSum := match x.clipSum, s with | some a, some b => some (a + b) | _, _ => none })
        else d1
      | _, _, _ => d

/-- The global clip factor from the job-wide sum (R169). -/
def Dev.setClip (d : Dev) (c : Nat) (sum : Num) : Dev :=
  let nrm := roundFp32 sum.sqrt
  let top := fp32Val (word (d.committed 16 (0x03000000 + c * 64 + 4)))
  let f : Num := match nrm with
    | .fin _ m => if m ≤ top.toRat then .fin false 1 else roundFp32 (top.div nrm)
    | n => roundFp32 (top.div n)
  { d.updCtx c (fun x => { x with
      clipNorm := word (fp32.bitsOf nrm), clipFactor := word (fp32.bitsOf f), clipKnown := true,
      clipOrder := d.nextOrder, nf := x.nf || nrm.nonfinite }) with nextOrder := d.nextOrder + 1 }

/-- The half and target whose slot a saturated sum of a collective reports to: its source's, or rf_slot of a refresh (R178). -/
def Dev.satTarget (d : Dev) (q : Coll) (i : CollInfo) : Option (Nat × TD) :=
  if q.task = clipColl then none
  else match d.attemptGraph q.ctx q.newer with
    | none => none
    | some g =>
      if refreshColl ≤ q.task then
        let ix := q.task - refreshColl
        let h := ((List.range g.taskCount).map (d.graphTask g)).find? (fun u => u.op = opUpdate && u.aux = ix)
        some ((h.map (·.half)).getD i.half, { packedTd 0 0x0B 1 1 1 1 with tracker := (d.updRec q.ctx ix).rfSlot })
      else (d.taskTd g (d.graphTask g q.task) q.mb 0).map (fun t => (i.half, t))

/-- A failed digest check: one record per named device, a notice to it, and the instance ends (R330, R334). -/
def Dev.digestFail (d : Dev) (q : Coll) (half named : Nat) : Dev :=
  let d1 := (d.updCtx q.ctx (fun x => { x with digestFails := x.digestFails + 1 })).putColl
    { q with failed := some St.digestMismatch, named := insertNat q.named named }
  if q.named.contains named then d1
  else (d1.emit (.notice 3 q.ctx named [q.cseq])).cause q.ctx q.newer St.digestMismatch clsTask (hubUnit half 3) named q.cseq

/-- A collective whose own part is posted and whose other parts have arrived ends (R324 to R330): a reducer sums,
checks, sends the result on and writes it; COLL_EXPONENT where exponents differ. -/
def Dev.finishColl (d : Dev) (q : Coll) (i : CollInfo) : Dev :=
  let reducer : Bool := (i.op = 0 || i.op = 5) && i.rank = 0 || i.op = 1
  let n := d.collElems q.ctx q.newer q.task q.mb
  if !q.posted || q.result.isSome || q.failed.isSome || d.collsPaused i.half || i.waits.any (fun r => !q.parts.any (fun p => p.rank = r)) then d
  else if reducer && i.red = 0 && i.op ≠ 5 && q.parts.any (fun p => p.exp ≠ (q.parts.find? (fun x => x.rank = i.rank)).elim p.exp (·.exp)) then
    (d.putColl { q with failed := some St.collExponent }).cause q.ctx q.newer St.collExponent clsTask (hubUnit i.half 3) q.task q.cseq
  else
    let fmt := match d.attemptGraph q.ctx q.newer with
      | some g => match d.taskTd g (d.graphTask g q.task) q.mb 0 with | some t => t.fmt | none => 0x0A
      | none => 0x0A
    let key := d.digestKey q.ctx q.newer
    let range := i.range n i.rank
    if reducer && i.red = 0 && i.op ≠ 5 && !sumChecked key.1 q.cseq key.2 (range.1 / 32) (range.2 - range.1) q.parts then
      d.digestFail q i.half (at' i.members i.rank 0 % 16384)
    else if reducer then
      let r := reduceParts i fmt q.parts
      let res := d.withDigest q (i.range n i.rank).1 r.1.elems.length { r.1 with rank := i.rank }
      let d1 := d.putColl { q with result := some res }
      let d2 := if r.2 = 0 then d1 else match d.satTarget q i with
        | some (h, t) => d1.reportTo q.ctx q.newer h t { sat := r.2 }
        | none => d1
      let d3 := if i.op = 1 then d2
        else ((List.range i.members.length).filter (· ≠ i.rank)).foldl (fun d k => d.sendPart q.ctx i q true k res) d2
      let d4 := d3.writeResult q i res i.rank
      if q.task = clipColl then d4.setClip q.ctx (bitsNum 0x0A (at' res.elems 0 0)) else d4
    else
      let own := (q.parts.find? (fun p => p.rank = i.rank)).getD { rank := i.rank, due := 0, exp := 0, nf := [], elems := [], digest := 0 }
      let d1 := d.putColl { q with result := some own }
      if i.op = 0 ∨ i.op = 3 ∨ i.op = 5 then
        match q.parts.find? (fun p => p.rank = (if i.op = 3 then i.root else 0)) with
        | some p =>
          let d2 := (d.putColl { q with result := some p }).writeResult q i p p.rank
          if q.task = clipColl then d2.setClip q.ctx (bitsNum 0x0A (at' p.elems 0 0)) else d2
        | none => d1
      else q.parts.foldl (fun d p => d.writeResult q i p p.rank) d1

/-- This device posts its part of a collective (R319, R325): to the reducer or to every member that takes one. -/
def Dev.postPart (d : Dev) (c : Nat) (newer : Bool) (task mb due : Nat) (i : CollInfo) (own : Part) : Dev :=
  let n := d.collElems c newer task mb
  let gen := ((d.ctx c).step? newer).elim 0 (·.gen)
  let cseq := d.collSeq c newer task mb
  let q0 : Coll := (d.coll? c cseq gen).getD { ctx := c, newer := newer, task := task, mb := mb, cseq := cseq, gen := gen, due := due }
  let cut (k : Nat) : Part :=
    let r := i.range n k
    d.withDigest q0 r.1 (r.2 - r.1) { partSlice own n r.1 r.2 with rank := i.rank, due := due }
  let q : Coll := { q0 with posted := true, due := due, parts := cut i.rank :: q0.parts.filter (fun p => p.rank ≠ i.rank) }
  let dests := (List.range i.members.length).filter (fun k => k ≠ i.rank &&
    (if i.op = 0 || i.op = 5 then k = 0 else if i.op = 3 then i.rank = i.root else true))
  let d1 := if d.fab.holdover && d.fab.missing ≥ 100 then d.putColl q
    else dests.foldl (fun d k => d.sendPart c i q (i.op = 3) k (cut k)) (d.putColl q)
  d1.finishColl q i

/-- The clip SCALAR_SUM is posted after the step's last CLIPSUM reduce-scatter (R169, R328). -/
def Dev.postClip (d : Dev) (c : Nat) (newer : Bool) : Dev :=
  match d.attemptGraph c newer, (d.ctx c).step? newer with
  | some g, some r =>
    let cl := (List.range g.taskCount).filter (fun k => let t := d.graphTask g k; t.op = opCollective && auxClip t.aux && t.aux % 16 = 1)
    let all := cl.all (fun k => if (d.graphTask g k).scope = 1 then r.done.contains (k, 0)
      else (List.range r.p.mbCount).all (fun m => r.done.contains (k, m)))
    if bit (d.committed 16 (0x03000000 + c * 64)) 0 && !cl.isEmpty && all && (d.coll? c (clipColl * 256) r.gen).isNone then
      let v : Num := match (d.ctx c).clipSum with | some s => roundFp32 (.ofRat s) | none => .nan
      match d.collInfo c newer clipColl with
      | some i => d.postPart c newer clipColl 0 d.bell i
          { rank := i.rank, due := d.bell, exp := 0, nf := [], elems := [(fp32.bitsOf v : Int)], digest := 0 }
      | none => d
    else d
  | _, _ => d

/-- A COLLECTIVE instance posts its contribution (R319 to R325); a device of a job that has lost the bell posts none (R317). -/
def Dev.postInst (d : Dev) (x : Inst) : Dev :=
  if (d.ctx x.ctx).bound && !d.fab.locked then d
  else match d.attemptGraph x.ctx x.newer, d.collInfo x.ctx x.newer x.task with
  | some g, some i =>
    let t := d.graphTask g x.task
    match d.taskTd g t x.mb 0 with
    | none => d
    | some s0 =>
      let src := d.readTdOf x s0
      let dv := d.withWindows x
      match dv.operandPoison x.ctx x.mb src with
      | some l => d.consumePoison x.ctx x.newer (hubUnit i.half 3) x.task l
      | none =>
        if i.red = 0 ∧ i.op ≤ 1 then
          let e := match s0.slot? i.half with | some k => d.slotExp k | none => 0
          let r := dv.sumPart x.ctx x.mb src e
          let d1 := d.reportTo x.ctx x.newer i.half src r.2.1
          if r.2.2 then d1.postPart x.ctx x.newer x.task x.mb x.due i r.1
          else d1.cause x.ctx x.newer St.collExponent clsTask (hubUnit i.half 3) x.task (d.collSeq x.ctx x.newer x.task x.mb)
        else
          d.postPart x.ctx x.newer x.task x.mb x.due i
            { rank := i.rank, due := x.due, exp := 0, nf := [], elems := dv.rawBits x.ctx x.mb src, digest := 0 }
  | _, _ => d

/-- A COLLECTIVE instance that has what it reads of the other half and of the deep tier posts its contribution, once (R24, R244). -/
def Dev.startColl (d : Dev) (x : Inst) : Dev :=
  if x.op = opCollective && x.state = 1 && !d.collsPaused x.half && d.inputsReady x
    && !(d.fab.colls.any (fun q => q.posted && q.ctx = x.ctx && q.newer = x.newer && q.task = x.task && q.mb = x.mb)) then d.postInst x
  else d

/-- The collectives that a canary held back go on (R370). -/
def Dev.resumeColls (d : Dev) : Dev :=
  let d1 := d.insts.foldl Dev.startColl d
  d1.fab.colls.foldl (fun d q => match d.collInfo q.ctx q.newer q.task with
    | some i => d.finishColl q i
    | none => d) d1

/-! ## Receiving (R319, R330) -/

/-- The task, or the collective of the device's own, that a sequence number names (R322). -/
def Dev.collTask (d : Dev) (c : Nat) (newer : Bool) (cseq : Nat) : Option Nat :=
  let id := cseq / 256
  if refreshColl ≤ id then some id
  else match d.attemptGraph c newer with
    | some g => (List.range g.taskCount).find? (fun k => let t := d.graphTask g k; t.op = opCollective && auxColl t.aux = id)
    | none => none

/-- A part arrives for an attempt of this device: a contribution is late after its due bell plus the grace, the part's digest
is checked, and the collective ends once nothing is missing. A reducer's result has no due bell; the root's part of a BROADCAST
is its contribution. -/
def Dev.takePart (d : Dev) (c gen cseq : Nat) (result : Bool) (p : Part) : Dev :=
  let x := d.ctx c
  let newer? : Option Bool := match x.older, x.newer with
    | some r, n => if r.gen = gen ∧ r.live then some false else match n with | some s => if s.gen = gen ∧ s.live then some true else none | none => none
    | none, some s => if s.gen = gen ∧ s.live then some true else none
    | none, none => none
  match newer? with
  | none => d
  | some newer =>
    match d.collTask c newer cseq with
    | none => d
    | some task =>
      match d.collInfo c newer task with
      | none => d
      | some i =>
        let q0 : Coll := (d.coll? c cseq gen).getD { ctx := c, newer := newer, task := task, mb := cseq % 256, cseq := cseq, gen := gen, due := 0 }
        let n := d.collElems c newer task q0.mb
        let rg := i.range n i.rank
        let len := if i.op = 0 ∨ i.op = 2 ∨ i.op = 3 ∨ i.op = 5 then n else rg.2 - rg.1
        let sender := at' i.members p.rank 0 % 16384
        let late : Bool := (!result || i.op = 3) && p.due + d.committed 16 (0x09030000 + c * 32) % 256 < d.bell && !q0.lateRanks.contains p.rank
        let d1 := if late then
            (d.updCtx c (fun x => { x with collLate := x.collLate + 1, lateDev := sender })).record
              { type := Rt.fabric, unit := hubUnit i.half 3, status := St.deadlineLate, opcode := sender, addr := cseq, ctx := some c }
          else d
        let q1 := if late then { q0 with lateRanks := p.rank :: q0.lateRanks } else q0
        let k := d1.digestKey c newer
        if p.digest ≠ digest k.1 cseq k.2 (rg.1 / 32) (partCovered p len) then (d1.putColl q1).digestFail q1 i.half sender
        else
          let q2 := { q1 with parts := p :: q1.parts.filter (fun o => o.rank ≠ p.rank) }
          (d1.putColl q2).finishColl q2 i

end Sys2Proof.Machine
end

