-- ==== Sys2Proof/Machine/Update.lean ====
section
/-! DEFINITION. The Update Engine (chapter 06): programs, clipping, master elements, versions, images, the
refresh of the correction factors, and a tensor's start and end. -/

namespace Sys2Proof.Machine

/-! ## FP32 arithmetic, rounded once (R155) -/

/-- A rounded sum. -/
def fAdd (a b : Num) : Num := roundFp32 (a.add b)
/-- A rounded difference. -/
def fSub (a b : Num) : Num := roundFp32 (a.add b.neg)
/-- A rounded product. -/
def fMul (a b : Num) : Num := roundFp32 (a.mul b)
/-- A rounded quotient. -/
def fDiv (a b : Num) : Num := roundFp32 (a.div b)
/-- A fused multiply-add, rounded once. -/
def fFma (a b c : Num) : Num := roundFp32 ((a.mul b).add c)
/-- A rounded square root. -/
def fSqrt (a : Num) : Num := roundFp32 a.sqrt
/-- One. -/
def Num.one : Num := .fin false 1
/-- A natural number. -/
def Num.ofNat (n : Nat) : Num := .fin false n
/-- a ≤ b, both finite or infinite; NaN compares false. -/
def Num.le : Num → Num → Bool
  | .nan, _ => false
  | _, .nan => false
  | .inf n, y => n || decide (y = .inf false)
  | .fin _ _, .inf n => !n
  | x, y => decide (x.toRat ≤ y.toRat)
/-- Above +0. -/
def Num.positive (x : Num) : Bool := !(x.le .zero) && decide (x ≠ .nan)

/-! ## Master elements (R158, R159) -/

/-- unit(h) of R158. -/
def unitOf (m : Rat) : Rat := if m = 0 then pow2 (-141) else pow2 (max (floorLog2 m) (-126) - 15)

/-- The value of a master element. -/
def masterVal (h : Num) (t : Int) : Num :=
  match h with
  | .fin _ m => if t = 0 then h else .ofRat (h.toRat + (t : Rat) * unitOf m)
  | x => x

/-- A new master element: its head and tail, and whether the head saturated; none where it is not finite. -/
structure Master where
  head : Num
  tail : Int
  ovf : Bool
deriving DecidableEq, Repr

/-- The integer nearest to a rational, ties to even. -/
def roundHalfEven (q : Rat) : Int := if q < 0 then -(roundStep (-q) 1 : Int) else (roundStep q 1 : Int)

/-- The BF16 value at or below a finite value, and the one above that. -/
def bf16Below (x : Rat) : Rat × Rat :=
  let s := pow2 (max (floorLog2 (if x < 0 then -x else x)) (-126) - 7)
  let lo := (x / s).floor * s
  (lo, lo + s)

/-- round_master of R159. -/
def roundMaster (x : Num) (mode b : Nat) : Option Master :=
  match x with
  | .fin n m =>
    if bf16.maxf < m then some ⟨.fin n bf16.maxf, 0, true⟩
    else if m = 0 then some ⟨x, 0, false⟩
    else if mode = 1 then
      let r := bf16Below x.toRat
      if x.toRat = r.1 then some ⟨x, 0, false⟩
      else
        let f := (x.toRat - r.1) / (r.2 - r.1)
        let v := if (b : Rat) < f * 256 then r.2 else r.1
        some ⟨if v = 0 then .fin n 0 else .ofRat v, 0, false⟩
    else
      let h : Num := match bf16.roundNum x with | .inf k => .fin k bf16.maxf | y => y
      let q := (x.toRat - h.toRat) / unitOf (match h with | .fin _ a => a | _ => 0)
      let k : Int :=
        if mode = 0 then roundHalfEven q
        else if (b : Rat) < (q - q.floor) * 256 then q.floor + 1 else q.floor
      some ⟨h, min (max k (-128)) 127, false⟩
  | _ => none

/-! ## Programs (R165 to R167) -/

/-- What is constant over one tensor's update: hp0–hp7, lr, update count, B1T, B2T, clip factor, RED0–RED3. -/
structure UpdScalars where
  hp : List Num
  lr : Num
  count : Num
  b1t : Num
  b2t : Num
  clip : Num
  red : List Num := [.zero, .zero, .zero, .zero]
deriving DecidableEq, Repr

/-- The inputs of one element. -/
structure ElemIn where
  g : Num
  w : Num
  head : Num
  st : List Num
  mask : Bool
deriving DecidableEq, Repr

/-- What a program makes of one element: delta, the state values it stores, its reduction terms, and the header
scalars it sets. -/
structure ElemOut where
  delta : Num := .zero
  st : List (Nat × Num) := []
  red : List (Nat × Num) := []
  b1t : Option Num := none
  b2t : Option Num := none
deriving DecidableEq, Repr

/-- hp i. -/
def UpdScalars.h (s : UpdScalars) (i : Nat) : Num := at' s.hp i .zero
/-- State value i of an element. -/
def ElemIn.s (e : ElemIn) (i : Nat) : Num := at' e.st i .zero

/-- sgd_momentum of R165. -/
def sgdMomentum (s : UpdScalars) (e : ElemIn) : ElemOut :=
  let m := fFma (s.h 0) (e.s 0) e.g
  let n := if (s.h 2).toRat ≠ 0 || (s.h 2).nonfinite then fFma (s.h 0) m e.g else m
  { delta := (fMul s.lr (fFma (s.h 1) e.w n)).neg, st := [(0, m)] }

/-- adamw of R165; B1T and B2T are the new ones. -/
def adamw (s : UpdScalars) (e : ElemIn) : ElemOut :=
  let m := fFma (fSub .one (s.h 0)) e.g (fMul (s.h 0) (e.s 0))
  let v := fFma (fSub .one (s.h 1)) (fMul e.g e.g) (fMul (s.h 1) (e.s 1))
  let u := fDiv (fDiv m (fSub .one s.b1t)) (fAdd (fSqrt (fDiv v (fSub .one s.b2t))) (s.h 2))
  { delta := (fMul s.lr (fFma (s.h 3) e.w u)).neg, st := [(0, m), (1, v)] }

/-- Pass 1 of factored (R165) with the row and column statistics of the element. -/
def factored1 (s : UpdScalars) (e : ElemIn) (rr cc rmean : Num) : ElemOut :=
  let u := fDiv e.g (fSqrt (fDiv (fMul rr cc) rmean))
  let on : Bool := (s.h 0).toRat ≠ 0 || (s.h 0).nonfinite
  let m := fFma (fSub .one (s.h 0)) u (fMul (s.h 0) (e.s 0))
  { delta := (fMul s.lr (fFma (s.h 3) e.w (if on then m else u))).neg, st := if on then [(0, m)] else [] }

/-- The register file and results while a job-supplied program runs. -/
structure ProgState where
  v : List Num
  out : ElemOut := {}
deriving DecidableEq, Repr

/-- A scalar input (R166). -/
def UpdScalars.get (s : UpdScalars) (i : Nat) : Num :=
  if i < 8 then s.h i
  else match i with
    | 8 => s.lr
    | 9 => s.count
    | 10 => s.b1t
    | 11 => s.b2t
    | 12 => s.clip
    | _ => at' s.red (i - 16) .zero

/-- One word of a job-supplied program (R166). -/
def progWord (s : UpdScalars) (e : ElemIn) (w : Nat) (p : ProgState) : ProgState :=
  let rd := bits w 25 21
  let a := at' p.v (bits w 20 16) .zero
  let b := at' p.v (bits w 15 11) .zero
  let c := at' p.v (bits w 10 6) .zero
  let imm := bits w 5 0
  let set (x : Num) : ProgState := { p with v := setAt p.v rd x }
  match bits w 31 26 with
  | 0x01 => set (match imm with
    | 0 => e.g
    | 1 => e.w
    | 6 => if e.mask then .one else .zero
    | 7 => e.head
    | i => e.s (i - 2))
  | 0x02 => set (s.get imm)
  | 0x03 => { p with out := { p.out with st := p.out.st.filter (fun q => q.1 ≠ imm) ++ [(imm, a)] } }
  | 0x04 => { p with out := { p.out with delta := a } }
  | 0x05 => { p with out := if imm = 10 then { p.out with b1t := some a } else { p.out with b2t := some a } }
  | 0x06 => { p with out := { p.out with red := p.out.red ++ [(imm, a)] } }
  | 0x08 => set (fAdd a b)
  | 0x09 => set (fSub a b)
  | 0x0A => set (fMul a b)
  | 0x0B => set (fDiv a b)
  | 0x0C => set (fFma a b c)
  | 0x0D => set (fSqrt a)
  | 0x0E => set (roundFp32 a.rsqrt)
  | 0x0F => set (a.max b)
  | 0x10 => set (a.min b)
  | 0x11 => set a.abs
  | 0x12 => set a.neg
  | 0x13 => set (if a.positive then b else c)
  | _ => p

/-- A program's words applied to one element. -/
def progRun (s : UpdScalars) (e : ElemIn) (ws : List Nat) : ElemOut :=
  (ws.foldl (fun p w => progWord s e w p) { v := List.replicate 32 .zero }).out

/-! ## A tensor's regions and state (R164, R173 to R177) -/

/-- The bytes from a packed tensor's base to the next region. -/
def TD.regionBytes (t : TD) : Nat := 64 * t.stride3 * t.dim3

/-- The graph's descriptor that shows a view of a tensor. -/
def Dev.viewTd (d : Dev) (g : GraphHdr) (tensor view : Nat) : Option TD :=
  ((List.range (g.sharedTds + g.mbTds)).map (fun i => d.readTd (g.tdBase + 64 * i))).find? (fun t =>
    t.tensorId = tensor && t.view = view)

/-- The regions of a tensor in V0: head, tail, image, U and V. -/
structure Regions where
  head : TD
  tail : TD
  image : TD
  u : TD
  v : TD
deriving DecidableEq, Repr

/-- A tensor's regions: as the graph's descriptors show them, otherwise packed one after the other in the order
of R164. `shape` is a descriptor of the tensor's shape. -/
def Dev.regions (d : Dev) (g : GraphHdr) (r : UpdRec) (shape : TD) : Regions :=
  let pick (view : Nat) (t : TD) : TD := (d.viewTd g r.tensorId view).getD t
  let dims (base fmt : Nat) : TD := packedTd base fmt shape.dim0 shape.dim1 shape.dim2 shape.dim3
  let h := dims r.slotBase 0x08
  let t := dims (r.slotBase + h.regionBytes) 0x07
  let i0 := t.base + (if r.round = 1 then 0 else t.regionBytes)
  let i := dims i0 r.imgFmt
  let u0 := i0 + (if r.imgFmt = 0 then 0 else i.regionBytes)
  let n := shape.dim1 * shape.dim2 * shape.dim3
  let u := packedTd u0 0x08 shape.dim0 r.rank 1 1
  let v := packedTd (u0 + u.regionBytes) 0x08 r.rank n 1 1
  { head := pick 1 h, tail := pick 2 t, image := pick 3 i, u := pick 4 u, v := pick 5 v }

/-- A region in version slot s. -/
def TD.inSlot (t : TD) (r : UpdRec) (s : Nat) : TD :=
  if s = 0 then t
  else { t with base := t.base + r.slotDelta, scaleBase := if t.scaleBase = 0 then 0 else t.scaleBase + r.slotDelta }

/-- The bytes of one state value. -/
def UpdRec.stBytes (r : UpdRec) : Nat := if r.stateFmt = 0x08 then 2 else 4

/-- The addresses of a tensor's state tensors behind a state region's base: each starts on a 64-byte boundary.
`sizes` gives their element counts. -/
def stateAddrs (r : UpdRec) (base : Nat) : List Nat → List Nat
  | [] => []
  | n :: rest => base :: stateAddrs r (base + ceilDiv (n * r.stBytes) 64 * 64) rest

/-- A state value as stored. -/
def Dev.stateVal (d : Dev) (r : UpdRec) (a : Nat) : Num :=
  if r.stateFmt = 0x08 then bf16.decode (d.ld a 2) else fp32.decode (d.ld a 4)

/-- The bytes of a state value, and whether it is finite once rounded to the state's format. -/
def stateOut (r : UpdRec) (x : Num) : List Byte × Bool :=
  if r.stateFmt = 0x08 then let y := bf16.roundNum x; (leBytes 2 (bf16.bitsOf y), y.isFin)
  else (leBytes 4 (fp32.bitsOf x), x.isFin)

/-! ## One tensor's update -/

/-- What an update works on: the record, its gradient's collective and descriptor, the shard's element range, the
regions and the written slot. -/
structure UpdJob where
  ix : Nat
  r : UpdRec
  info : CollInfo
  grad : TD
  half : Nat
  lo : Nat
  hi : Nat
  reg : Regions
  slot : Nat
  step : Nat
  seed : Nat
deriving DecidableEq, Repr

/-- The update of an UPDATE task of a step's attempt. -/
def Dev.updJob (d : Dev) (c : Nat) (newer : Bool) (task : Nat) : Option UpdJob :=
  match d.attemptGraph c newer, (d.ctx c).step? newer with
  | some g, some run =>
    let t := d.graphTask g task
    let r := d.updRec c t.aux
    match d.gradTask g r.tensorId with
    | some (k, gt) =>
      match d.taskTd g gt 0 0, d.taskTd g gt 0 1, d.collInfo c newer k with
      | some src, some dst, some i =>
        let shape := (d.viewTd g r.tensorId 1).getD ((d.viewTd g r.tensorId 3).getD src)
        let rg := i.range shape.elems i.rank
        some { ix := t.aux, r := r, info := i, grad := d.resolveTd c false gt.half 0 dst, half := t.half, lo := rg.1,
               hi := rg.2, reg := d.regions g r shape, slot := 1 - (d.ctx c).curSlot % 2, step := run.p.step,
               seed := run.seed.toNat }
      | _, _, _ => none
    | none => none
  | _, _ => none

/-- CLIP_GLOBAL. -/
def UpdRec.clipGlobal (r : UpdRec) : Bool := bit r.flags 0
/-- CLIP_TENSOR. -/
def UpdRec.clipTensor (r : UpdRec) : Bool := bit r.flags 1
/-- RATIO_EN. -/
def UpdRec.ratioEn (r : UpdRec) : Bool := bit r.flags 2
/-- CORR. -/
def UpdRec.corr (r : UpdRec) : Bool := bit r.flags 3

/-- The tensor takes part in global clipping (R157, R169). -/
def Dev.clips (d : Dev) (c : Nat) (r : UpdRec) : Bool := r.clipGlobal && bit (d.committed 16 (0x03000000 + c * 64)) 0

/-- The update of this step refreshes U and V (R178). -/
def UpdRec.refreshes (r : UpdRec) (step : Nat) : Bool :=
  r.corr && r.rfPeriod ≠ 0xFFFFFFFF && step % (if r.rfPeriod = 0 then 50 else r.rfPeriod) = 0

/-- The clip factor of a norm against a threshold (R169, R170). -/
def clipFactorOf (nrm top : Num) : Num := if nrm.le top then .one else roundFp32 (top.div nrm)

/-- A multiplication by a factor, skipped where it is exactly 1 (R170). -/
def scaleBy (g f : Num) : Num := if f = .one then g else fMul g f

/-- The trainable mask of the shard's elements. -/
def Dev.updMask (d : Dev) (j : UpdJob) : List Bool :=
  (List.range (j.hi - j.lo)).map (fun i => d.trainable j.r j.reg.head (j.lo + i))

/-- The gradients of a shard after the global factor (R170). -/
def Dev.globalGrads (d : Dev) (c mb : Nat) (j : UpdJob) : List Num :=
  (List.range (j.hi - j.lo)).map (fun i =>
    let g := roundFp32 (d.elemValue c mb j.grad (j.grad.posAt i))
    if d.clips c j.r then scaleBy g (fp32Val (d.ctx c).clipFactor) else g)

/-- The norm of a CLIP_TENSOR tensor's shard (R170). -/
def shardNorm (gs : List Num) (mask : List Bool) : Num :=
  fSqrt (roundFp32 (Num.sum ((gs.zip mask).filterMap (fun (x : Num × Bool) => if x.2 then some (x.1.mul x.1) else none))))

/-- The inputs G of the shard and the local clip factor (R157, R169, R170). -/
def Dev.updGrads (d : Dev) (c mb : Nat) (j : UpdJob) (mask : List Bool) : List Num :=
  let g1 := d.globalGrads c mb j
  if j.r.clipTensor then
    let f := clipFactorOf (shardNorm g1 mask) (fp32Val j.r.clipMax)
    g1.map (fun g => scaleBy g f)
  else g1

/-- The element counts of the state tensors: the shard's elements, and for FACTORED the rows and columns. -/
def UpdJob.stSizes (j : UpdJob) : List Nat :=
  let n := j.hi - j.lo
  if j.r.prog = 3 then [n, n / max j.reg.head.dim0 1, j.reg.head.dim0] else List.replicate j.r.stateN n

/-- The base of the state that is committed, and of its shadow (R179). -/
def Dev.stateBases (d : Dev) (c : Nat) (r : UpdRec) : Nat × Nat :=
  if (d.ctx c).stateSel % 2 = 0 then (r.stateBase, r.stateBase + r.stateDelta) else (r.stateBase + r.stateDelta, r.stateBase)

/-- What an update computes for its shard. -/
structure UpdOut where
  masters : List Master
  old : List Num
  states : List (List Num)
  count : Nat
  b1t : Num
  b2t : Num
  bad : Option Nat
deriving DecidableEq, Repr

/-- The words of a job-supplied program and its two passes (R166, R167). -/
def Dev.updProg (d : Dev) (half prog : Nat) : List Nat × Option (List Nat) :=
  let ws := ((List.range 256).map (fun i => d.committed (hubDie half) (0x03002000 + (prog - 0x80) * 1024 + i * 4))).takeWhile
    (fun w => bits w 31 26 ≠ 0)
  let p0 := ws.takeWhile (fun w => bits w 31 26 ≠ 7)
  if p0.length < ws.length then (p0, some (ws.drop (p0.length + 1))) else (ws, none)

/-- The exact sums RED0 to RED3 of pass 0, each rounded once (R167). -/
def redSums (s : UpdScalars) (es : List ElemIn) (ws : List Nat) : List Num :=
  let terms := es.flatMap (fun e => if e.mask then (progRun s e ws).red else [])
  (List.range 4).map (fun k => roundFp32 (Num.sum (terms.filterMap (fun q => if q.1 = k then some q.2 else none))))

/-- The statistics of FACTORED: rr, cc and rmean after pass 0 (R165); frozen elements are left out. -/
def factorStats (s : UpdScalars) (es : List ElemIn) (k : Nat) (rr cc : List Num) : List Num × List Num × Num :=
  let sq (e : ElemIn) : Num := if e.mask then fFma e.g e.g (s.h 2) else .zero
  let q := es.map sq
  let rows := chunksOf k q
  let n := rows.length
  let om := fSub .one (s.h 1)
  let rr' := (rows.zip rr).map (fun (x : List Num × Num) =>
    fFma om (fDiv (roundFp32 (Num.sum x.1)) (.ofNat k)) (fMul (s.h 1) x.2))
  let cc' := (cc.zipIdx).map (fun (x : Num × Nat) =>
    let col := rows.map (fun (r : List Num) => at' r x.2 .zero)
    fFma om (fDiv (roundFp32 (Num.sum col)) (.ofNat n)) (fMul (s.h 1) x.1))
  (rr', cc', fDiv (roundFp32 (Num.sum rr')) (.ofNat n))

/-- The masters of the shard in a version slot: head, tail and value. -/
def Dev.oldMasters (d : Dev) (c : Nat) (j : UpdJob) (slot : Nat) : List (Num × Int) :=
  let h := j.reg.head.inSlot j.r slot
  let t := j.reg.tail.inSlot j.r slot
  (List.range (j.hi - j.lo)).map (fun i =>
    let p := h.posAt (j.lo + i)
    (decodeElem 0x08 (d.elemBits c 0 h p), if j.r.round = 1 then 0 else signed (d.elemBits c 0 t p) 8))

/-- The update of a shard (R155 to R171): new masters, new state, new header, and the lowest element index whose
value is not finite. -/
def Dev.updCompute (d : Dev) (c mb : Nat) (j : UpdJob) : UpdOut :=
  let r := j.r
  let n := j.hi - j.lo
  let mask := d.updMask j
  let gs := d.updGrads c mb j mask
  let olds := d.oldMasters c j (1 - j.slot)
  let base := (d.stateBases c r).1
  let addrs := stateAddrs r (base + 64) j.stSizes
  let sts := (addrs.zip j.stSizes).map (fun (a : Nat × Nat) => (List.range a.2).map (fun i => d.stateVal r (a.1 + i * r.stBytes)))
  let b1 := fp32.decode (d.ld (base + 4) 4)
  let b2 := fp32.decode (d.ld (base + 8) 4)
  let es : List ElemIn := (List.range n).map (fun i =>
    let o := at' olds i (.zero, 0)
    { g := at' gs i .zero, w := masterVal o.1 o.2, head := o.1, mask := at' mask i true,
      st := (List.range 4).map (fun k => if k < r.stateN then at' (at' sts k []) i .zero else fp32Val (Config.valueAt d.free (4 * i + k))) })
  let lr := roundFp32 ((fp32Val r.lrBase).mul (fp32Val (word (d.committed 16 (0x03000000 + c * 64 + 8)))))
  let s0 : UpdScalars := {
    hp := r.hp.map fp32Val, lr := lr, count := roundFp32 (.ofNat (d.ld base 4)), b1t := b1, b2t := b2,
    clip := if d.clips c r then fp32Val (d.ctx c).clipFactor else .one }
  let s1 := if r.prog = 2 then { s0 with b1t := fMul b1 (s0.h 0), b2t := fMul b2 (s0.h 1) } else s0
  let fac := if r.prog = 3 then factorStats s1 es (max j.reg.head.dim0 1) (at' sts 1 []) (at' sts 2 []) else ([], [], .zero)
  let pr := if 0x80 ≤ r.prog then d.updProg j.half r.prog else ([], none)
  let s2 := match pr.2 with | some _ => { s1 with red := redSums s1 es pr.1 } | none => s1
  let body := pr.2.getD pr.1
  let outs : List ElemOut := es.zipIdx.map (fun (e : ElemIn × Nat) =>
    if r.prog = 1 then sgdMomentum s1 e.1
    else if r.prog = 2 then adamw s1 e.1
    else if r.prog = 3 then factored1 s1 e.1 (at' fac.1 (e.2 / max j.reg.head.dim0 1) .zero)
      (at' fac.2.1 (e.2 % max j.reg.head.dim0 1) .zero) fac.2.2
    else progRun s2 e.1 body)
  let res : List (Option Master) := ((es.zip outs).zip olds).zipIdx.map (fun (x : ((ElemIn × ElemOut) × (Num × Int)) × Nat) =>
    if x.1.1.1.mask then
      roundMaster (x.1.1.1.w.add x.1.1.2.delta) r.round (tallyByte j.seed streamSr (j.lo + x.2) r.tensorId j.step)
    else some ⟨x.1.2.1, x.1.2.2, false⟩)
  let newSt : List (List Num) := (List.range j.stSizes.length).map (fun k =>
    if r.prog = 3 ∧ k = 1 then fac.1 else if r.prog = 3 ∧ k = 2 then fac.2.1
    else (es.zip outs).zipIdx.map (fun (x : (ElemIn × ElemOut) × Nat) =>
      let old := at' (at' sts k []) x.2 .zero
      if x.1.1.mask then match x.1.2.st.find? (fun q => q.1 = k) with | some q => q.2 | none => old else old))
  let bad := firstIx (fun (x : ((ElemIn × ElemOut) × Option Master) × Nat) =>
    x.1.1.1.mask && (x.1.1.2.delta.nonfinite || x.1.2.isNone
      || x.1.1.2.st.any (fun q => decide (q.1 < r.stateN) && !(stateOut r q.2).2))) (((es.zip outs).zip res).zipIdx)
  let first := if j.lo = 0 then outs.head?.getD {} else {}
  let stats : List Num := if r.prog = 3 then fac.1 ++ fac.2.1 else []
  { masters := res.map (·.getD ⟨.zero, 0, false⟩), old := es.map (·.w), states := newSt, count := d.ld base 4 + 1,
    b1t := first.b1t.getD s1.b1t, b2t := first.b2t.getD s1.b2t,
    bad := match bad with
      | some i => some (j.lo + i)
      | none => if stats.any (fun x => !(stateOut r x).2) then some j.lo else none }

/-! ## Writing a shard -/

/-- The rows' parts that a shard covers: where each begins, with its element numbers within the shard. -/
def shardRows (t : TD) (lo hi : Nat) : List (Pos × Nat × Nat) :=
  let k := max t.dim0 1
  (List.range (ceilDiv hi k - lo / k)).filterMap (fun i =>
    let row := lo / k + i
    let a := max lo (row * k)
    let b := min hi ((row + 1) * k)
    if a < b then some (t.posOfRow row (a - row * k), a - lo, b - lo) else none)

/-- The image of a shard: the pieces written and the report of the conversion. -/
def Dev.imageOut (d : Dev) (c : Nat) (j : UpdJob) (t : TD) (vals : List Num) : RunOut :=
  (shardRows t j.lo j.hi).foldl (fun (a : RunOut) (x : Pos × Nat × Nat) =>
    a.append 0 (rowOut t (fun p => d.zeroPoint c 0 t p) (fun _ => false) x.1 (((vals.drop x.2.1).take (x.2.2 - x.2.1)).map some))) {}

/-- The amax report of the new master values (R177). -/
def masterReport (vals : List Num) : Report :=
  Report.sum (vals.map (fun v => { elemReport 0x0A 0 v ⟨0, .none⟩ with elems := 1 }))

/-- The image descriptor in the written slot with the tensor scale it is written with: for a bound image slot the
scale that the commit will select (R177). -/
def Dev.imageTd (d : Dev) (j : UpdJob) (vals : List Num) : TD :=
  let t := { j.reg.image.inSlot j.r j.slot with fmt := j.r.imgFmt, tracker := j.r.imgSlot }
  match t.slot? j.half with
  | none => t
  | some k =>
    if d.slotBind j.half (t.tracker % 4096) then
      let x := (d.slot k).take (bit (d.slotCtl k) 22) (masterReport vals)
      let x1 := { x with hist := (maxWord x.provAmax x.adoptAmax :: x.hist).take 16, adopted := false }
      { t with tscale := d.selectScale k x1 }
    else t

/-- The heads and tails of a shard go to a slot. -/
def Dev.putMasters (d : Dev) (c : Nat) (j : UpdJob) (ms : List Master) : Dev :=
  let h := j.reg.head.inSlot j.r j.slot
  let t := j.reg.tail.inSlot j.r j.slot
  let hs := ms.zipIdx.map (fun (m : Master × Nat) =>
    let p := h.posAt (j.lo + m.2)
    (h.blockAddr p (p.d0 / 32) + p.d0 % 32 * 2, leBytes 2 (bf16.bitsOf m.1.head)))
  let ts := if j.r.round = 1 then [] else ms.zipIdx.map (fun (m : Master × Nat) =>
    let p := t.posAt (j.lo + m.2)
    (t.blockAddr p (p.d0 / 32) + p.d0 % 32, leBytes 1 (m.1.tail % 256).toNat))
  (d.putRun c 0 hs).putRun c 0 ts

/-- The shadow state of a shard with its header. -/
def Dev.putState (d : Dev) (c : Nat) (j : UpdJob) (o : UpdOut) : Dev :=
  let base := (d.stateBases c j.r).2
  let d1 := d.writeMem base (leBytes 4 o.count ++ leBytes 4 (fp32.bitsOf o.b1t) ++ leBytes 4 (fp32.bitsOf o.b2t) ++ leBytes 4 0)
  ((stateAddrs j.r (base + 64) j.stSizes).zip o.states).foldl (fun d (x : Nat × List Num) =>
    d.writeMem x.1 (x.2.flatMap (fun v => (stateOut j.r v).1))) d1

/-! ## The refresh (R178) -/

/-- e: new master minus the image's value, rounded, for the shard's elements. -/
def Dev.residual (d : Dev) (c : Nat) (j : UpdJob) (img : TD) (vals : List Num) : List Num :=
  vals.zipIdx.map (fun (v : Num × Nat) => fSub v.1 (d.elemValue c 0 img (img.posAt (j.lo + v.2))))

/-- The local z: K × rank sums of ±e. -/
def UpdJob.zLocal (j : UpdJob) (e : List Num) : List Num :=
  let k := max j.reg.head.dim0 1
  let rows := chunksOf k e
  (List.range (k * j.r.rank)).map (fun x =>
    let q := x / k
    roundFp32 (Num.sum (rows.zipIdx.map (fun (row : List Num × Nat) =>
      let v := at' row.1 (x % k) .zero
      if tallyByte j.seed streamRange ((j.lo / k + row.2) * j.r.rank + q) j.r.tensorId j.step < 128 then v else v.neg))))

/-- The dot product of two columns, exact and rounded once. -/
def dotCols (a b : List Num) : Num := roundFp32 (Num.sum ((a.zip b).map (fun (x : Num × Num) => x.1.mul x.2)))

/-- Modified Gram-Schmidt over the columns of z. -/
def gramSchmidt (zs : List (List Num)) : List (List Num) × List Num :=
  zs.foldl (fun (a : List (List Num) × List Num) z =>
    let done := a.1
    let z1 := done.foldl (fun (z : List Num) p =>
      let c := dotCols p z
      (p.zip z).map (fun (x : Num × Num) => fFma c.neg x.1 x.2)) z
    let nrm := fSqrt (dotCols z1 z1)
    (done ++ [if nrm.toRat = 0 && nrm.isFin then z1.map (fun _ => .zero) else z1.map (fun x => fDiv x nrm)], a.2 ++ [nrm])) ([], [])

/-- U and V from the reduced z, none where a value is not finite. -/
def UpdJob.factors (j : UpdJob) (z e : List Num) : Option (List (List Num) × List (List Num)) :=
  let k := max j.reg.head.dim0 1
  let g := gramSchmidt (chunksOf k z)
  let zs := g.1
  let u := zs.map (fun col => col.map bf16.roundNum)
  let v := (chunksOf k e).map (fun row => u.map (fun col =>
    bf16.roundNum (Num.sum ((col.zip row).map (fun (x : Num × Num) => x.1.mul x.2)))))
  let ok : Bool := (z ++ e ++ g.2 ++ zs.flatten ++ u.flatten ++ v.flatten).all (·.isFin)
  if ok then some (u, v) else none

/-- BF16 values go to a run of a factor's elements. -/
def Dev.putBf16 (d : Dev) (c : Nat) (t : TD) (first : Nat) (xs : List Num) : Dev :=
  d.putBits c 0 t first (xs.map (fun x => (bf16.bitsOf x : Int))) []

/-- U and this shard's columns of V are copied from the current slot into the written one. -/
def Dev.copyFactors (d : Dev) (c : Nat) (j : UpdJob) : Dev :=
  let copy (d : Dev) (t : TD) (first n : Nat) : Dev :=
    let src := t.inSlot j.r (1 - j.slot)
    d.putBits c 0 (t.inSlot j.r j.slot) first ((List.range n).map (fun i => (d.elemBits c 0 src (src.posAt (first + i)) : Int))) []
  let k := max j.reg.head.dim0 1
  copy (copy d j.reg.u 0 (k * j.r.rank)) j.reg.v 0 (j.reg.v.elems)

/-- The exponent with which z enters its all-reduce: that of rf_slot's attempt scale. -/
def Dev.refreshExp (d : Dev) (j : UpdJob) : Int :=
  if j.r.rfSlot = 0xFFFFFFFF then 0 else d.slotExp (slotKey j.half (j.r.rfSlot % 4096))

/-- The refresh all-reduce of a record is posted (R178, R322). -/
def Dev.postRefresh (d : Dev) (c : Nat) (newer : Bool) (j : UpdJob) (z : List Num) : Dev :=
  let task := refreshColl + j.ix
  match d.collInfo c newer task with
  | none => d
  | some i =>
    let e := d.refreshExp j
    let outs := (chunksOf 32 z).map (fun b => (b, convertBfx b (.fin false 1) e))
    let rep := Report.sum (outs.flatMap (fun (o : List Num × (Nat × List COut)) =>
      (o.1.zip o.2.2).map (fun (x : Num × COut) => elemReport 0x0B 0 x.1 x.2)))
    let t : TD := { packedTd 0 0x0B 1 1 1 1 with tracker := j.r.rfSlot }
    (d.reportTo c newer j.half t rep).postPart c newer task 0 d.bell i
      { rank := i.rank, due := d.bell, exp := e, nf := outs.map (fun (o : List Num × (Nat × List COut)) => decide (o.2.1 = 0x80)),
        elems := outs.flatMap (fun (o : List Num × (Nat × List COut)) => o.2.2.map (fun x => if o.2.1 = 0x80 then 0 else signed x.bits 32)),
        digest := 0 }

/-- The reduced z of a record's refresh, once the all-reduce has answered. -/
def Dev.refreshResult (d : Dev) (c : Nat) (newer : Bool) (j : UpdJob) : Option (List Num) :=
  let gen := ((d.ctx c).step? newer).elim 0 (·.gen)
  match d.coll? c ((refreshColl + j.ix) * 256) gen with
  | some q => q.result.map (fun p => p.elems.zipIdx.map (fun (x : Int × Nat) =>
      if at' p.nf (x.2 / 32) false then .nan else .ofRat ((x.1 : Rat) * pow2 p.exp)))
  | none => none

/-! ## Ratio (R172) -/

/-- The ratio of a shard's change to its weights, none where both norms are 0. -/
def ratioOf (old new : List Num) (mask : List Bool) : Option Num :=
  let pairs := ((old.zip new).zip mask).filter (fun (x : (Num × Num) × Bool) => x.2)
  let dw := fSqrt (roundFp32 (Num.sum (pairs.map (fun (x : (Num × Num) × Bool) => let e := x.1.2.add x.1.1.neg; e.mul e))))
  let w := fSqrt (roundFp32 (Num.sum (pairs.map (fun (x : (Num × Num) × Bool) => x.1.1.mul x.1.1))))
  if w.isFin && w.toRat = 0 then (if dw.isFin && dw.toRat = 0 then none else some (.inf false)) else some (fDiv dw w)

/-- The events a ratio calls for (R172): 0 disables the low test, and an infinite ratio_hi meets no ratio above it. -/
def ratioEvents (r : UpdRec) (x : Num) : List Status :=
  let lo := fp32Val r.ratioLo
  (if x.lt lo then [St.updRatioLow] else []) ++ (if (fp32Val r.ratioHi).lt x then [St.updRatioHigh] else [])

/-! ## Start and end of a tensor (R156, R157, R162) -/

/-- The moment at which an UPDATE instance became ready: its admission or the clip factor, the later one. -/
def Dev.readyOrder (d : Dev) (x : Inst) (r : UpdRec) : Nat :=
  if d.clips x.ctx r then max x.order (d.ctx x.ctx).clipOrder else x.order

/-- An UPDATE instance could start now. -/
def Dev.updReady (d : Dev) (x : Inst) : Bool :=
  match d.updJob x.ctx x.newer x.task with
  | some j => x.op = opUpdate && x.state = 1 && !x.started && (!d.clips x.ctx j.r || (d.ctx x.ctx).clipKnown)
  | none => false

/-- The place of an instance in the order in which the engine takes its tensors. -/
def Dev.updRank (d : Dev) (x : Inst) : Nat × Nat :=
  match d.updJob x.ctx x.newer x.task with
  | some j => (d.readyOrder x j.r, j.ix)
  | none => (0, 0)

/-- The lines an update reads: its gradient, masters and state. -/
def Dev.updPoison (d : Dev) (c mb : Nat) (j : UpdJob) : Option Nat :=
  let h := j.reg.head.inSlot j.r (1 - j.slot)
  let t := j.reg.tail.inSlot j.r (1 - j.slot)
  let base := (d.stateBases c j.r).1
  match d.operandPoison c mb j.grad with
  | some l => some l
  | none =>
    match (List.range (j.hi - j.lo)).findSome? (fun i =>
      match d.elemPoison c 0 h (h.posAt (j.lo + i)) with
      | some l => some l
      | none => if j.r.round = 1 then none else d.elemPoison c 0 t (t.posAt (j.lo + i))) with
    | some l => some l
    | none =>
      match d.poisoned? base 16 with
      | some l => some l
      | none => ((stateAddrs j.r (base + 64) j.stSizes).zip j.stSizes).findSome? (fun (a : Nat × Nat) =>
          d.poisoned? a.1 (a.2 * j.r.stBytes))

/-- A tensor's update starts: the ready tensor that comes first in its half, while the engine runs none. A
refresh posts its all-reduce, formed from the new masters and the image they will have (R157, R177, R178). -/
def updateTensorStartEff (ctx : Nat) (newer : Bool) (task : Nat) (d : Dev) : Dev :=
  match d.inst? ctx newer task 0, d.updJob ctx newer task with
  | some x, some j =>
    let busy := d.insts.any (fun y => y.op = opUpdate && y.half = x.half && y.state = 1 && y.started)
    let me := d.updRank x
    let first := d.insts.all (fun y => !(y.half = x.half && d.updReady y) ||
      decide (me.1 < (d.updRank y).1) || (me.1 = (d.updRank y).1 && decide (me.2 ≤ (d.updRank y).2)))
    if busy || !d.updReady x || !first then d
    else match d.updPoison ctx x.mb j with
      | some l => d.consumePoison ctx newer (hubUnit x.half 2) task l
      | none =>
        let d1 := d.updInst x (fun y => { y with started := true, token := j.r.prog })
        if j.r.refreshes j.step then
          let d2 := d1.updCtx ctx (fun y => { y with refresh := true })
          let o := d2.updCompute ctx x.mb j
          let vals := o.masters.map (fun m => masterVal m.head m.tail)
          let t := d2.imageTd j vals
          let shown := d2.putRun ctx 0 (d2.imageOut ctx j t vals).puts
          let z := if o.bad.isSome then (List.replicate (j.reg.head.dim0 * j.r.rank) .nan) else j.zLocal (shown.residual ctx j t vals)
          d2.postRefresh ctx newer j z
        else d1
  | _, _ => d

/-- The work of a tensor is written: masters, image, state, factors, reports and events (R161, R172, R177, R178). -/
def Dev.updWrite (d : Dev) (x : Inst) (j : UpdJob) (o : UpdOut) : Dev :=
  let c := x.ctx
  let vals := o.masters.map (fun m => masterVal m.head m.tail)
  let d1 := (d.putMasters c j o.masters).putState c j o
  let t := d1.imageTd j vals
  let img := d1.imageOut c j t vals
  let d2 := if j.r.imgFmt = 0 then d1
    else
      let e := img.rep
      (((d1.reportTo c x.newer j.half t (masterReport vals))).putRun c 0 img.puts).reportTo c x.newer j.half t
        { e with elems := 0, amax := 0, sq := 0 }
  let d3 := o.masters.zipIdx.foldl (fun d (m : Master × Nat) =>
    if m.1.ovf then
      (d.updCtx c (fun y => { y with uovf := true })).record
        { type := Rt.numeric, unit := hubUnit j.half 2, status := St.updOverflow, opcode := j.r.tensorId, addr := j.lo + m.2, ctx := some c }
    else d) d2
  let d4 :=
    if !j.r.corr then d3
    else if j.r.refreshes j.step then
      match (d3.refreshResult c x.newer j).bind (fun z => j.factors z (d3.residual c j t vals)) with
      | some f =>
        let k := max j.reg.head.dim0 1
        (d3.putBf16 c (j.reg.u.inSlot j.r j.slot) 0 f.1.flatten).putBf16 c (j.reg.v.inSlot j.r j.slot) (j.lo / k * j.r.rank) f.2.flatten
      | none => (d3.copyFactors c j).record
          { type := Rt.numeric, unit := hubUnit j.half 2, status := St.rfDegenerate, opcode := j.r.tensorId, ctx := some c }
    else d3.copyFactors c j
  let d5 := match (if j.r.ratioEn then ratioOf o.old vals (d.updMask j) else none) with
    | some q => d4.updStep c x.newer (fun r =>
        { r with events := r.events ++ (ratioEvents j.r q).map (fun st => (st, j.r.tensorId, word (fp32.bitsOf q))) })
    | none => d4
  ((d5.rcAdd (hubDie j.half) 0x03001004 (j.hi - j.lo)).updInst x (fun y => { y with state := 2, started := false, written := y.tiles })).drawn

/-- The norm by which a CLIP_TENSOR tensor is clipped, 0 for another tensor; one that is not finite gives the step the non-finite
verdict (R169, R170). -/
def Dev.clipTensorNorm (d : Dev) (c mb : Nat) (j : UpdJob) : Num :=
  if j.r.clipTensor then shardNorm (d.globalGrads c mb j) (d.updMask j) else .zero

/-- A tensor's update ends. A mismatch of the two copies discards the work and runs the tensor again; the second
one in an attempt abandons it (R156). A value that is not finite gives the verdict and writes nothing (R162). A
refresh ends only once its all-reduce has answered. -/
def updateTensorDoneEff (ctx : Nat) (newer : Bool) (task : Nat) (mismatch : Bool) (d : Dev) : Dev :=
  match d.inst? ctx newer task 0, d.updJob ctx newer task with
  | some x, some j =>
    if x.op ≠ opUpdate || x.state ≠ 1 || !x.started then d
    else if mismatch then
      let u := hubUnit x.half 2
      let n := ((d.ctx ctx).step? newer).elim 0 (·.updRun)
      let d1 := (((d.checkRecord u (some ctx) 0).stick Sticky.lockstep).rcAdd (hubDie x.half) 0x03001008 1).enterEvent u u 3
      let d2 := (d1.updCtx ctx (fun y => { y with lockstep := true })).updStep ctx newer (fun r => { r with updRun := n + 1 })
      if n = 0 then d2.updInst x (fun y => { y with runs := y.runs + 1 })
      else (d2.markSuspect u).cause ctx newer St.updLockstep clsTask u task j.r.tensorId
    else if j.r.refreshes j.step && (d.refreshResult ctx newer j).isNone then d
    else
      let o := d.updCompute ctx x.mb j
      match o.bad with
      | some i =>
        let d1 := (d.updCtx ctx (fun y => { y with nf := true })).reportNf ctx [] task 0 (BitVec.ofNat 64 i)
        d1.updInst x (fun y => { y with state := 2, started := false, written := y.tiles })
      | none =>
        let d1 := if (d.clipTensorNorm ctx x.mb j).nonfinite then d.updCtx ctx (fun y => { y with nf := true }) else d
        d1.updWrite x j o
  | _, _ => d

/-- UPDATE_TENSOR_START -/
def execUpdateTensorStart (ctx : Nat) (newer : Bool) (task : Nat) (s : State) : Host.Outcome State Fault Refusal :=
  onDev (updateTensorStartEff ctx newer task) s

/-- UPDATE_TENSOR_DONE -/
def execUpdateTensorDone (ctx : Nat) (newer : Bool) (task : Nat) (mismatch : Bool) (s : State) : Host.Outcome State Fault Refusal :=
  onDev (updateTensorDoneEff ctx newer task mismatch) s

end Sys2Proof.Machine
end

