-- ==== Sys2Proof/Machine/Kernel.lean ====
section
/-! DEFINITION. Vector-unit kernels (R270 to R275): the kernel store, its well-formedness, and what a kernel makes of
one element. -/

namespace Sys2Proof.Machine

/-! ## The kernel store (R271) -/

/-- A kernel of the store. -/
structure Kernel where
  shape : Nat
  flags : Nat
  consts : List Num
  words : List Nat
deriving DecidableEq, Repr

/-- A little-endian field of a configuration image. -/
def imgField (m : Memory) (a n : Nat) : Nat := m.readLE a n

/-- The kernels a store holds. -/
def kernCount (m : Memory) : Nat := imgField m (imgField m 0x18 4 + 4) 2

/-- Kernel i of the store of an image. -/
def kernelAt (m : Memory) (i : Nat) : Kernel :=
  let s := imgField m 0x18 4
  let e := s + 16 + 16 * i
  let code := s + imgField m e 4
  let n := imgField m (e + 4) 2
  let k := imgField m (e + 6) 1
  { shape := imgField m (e + 7) 1, flags := imgField m (e + 8) 1,
    consts := (List.range k).map (fun j => fp32.decode (imgField m (code + 4 * j) 4)),
    words := (List.range n).map (fun j => imgField m (code + 4 * k + 4 * j) 4) }

/-- The kernels of the loaded configuration. -/
def Dev.kernels (d : Dev) : Nat := if d.fw.cfgLen = 0 ∨ imgField d.fw.cfgImage 0x1C 4 = 0 then 0 else kernCount d.fw.cfgImage
/-- Kernel i of the loaded configuration. -/
def Dev.kernel (d : Dev) (i : Nat) : Kernel := kernelAt d.fw.cfgImage i

/-- The words up to END. -/
def Kernel.body (k : Kernel) : List Nat := k.words.takeWhile (fun w => bits w 31 26 ≠ 0)
/-- The kernel holds PASS. -/
def Kernel.passes (k : Kernel) : Bool := k.body.any (fun w => bits w 31 26 = 9)
/-- Pass 0 of a kernel with PASS. -/
def Kernel.pass0 (k : Kernel) : List Nat := k.body.takeWhile (fun w => bits w 31 26 ≠ 9)
/-- The words that write: pass 1, or the whole body of a kernel without PASS. -/
def Kernel.main (k : Kernel) : List Nat := if k.passes then k.body.drop (k.pass0.length + 1) else k.body
/-- The td positions an operation names. -/
def Kernel.tdsOf (k : Kernel) (op : Nat) : List Nat := ((k.body.filter (fun w => bits w 31 26 = op)).map (fun w => bits w 2 0)).dedup
/-- The td positions that LD names. -/
def Kernel.loads (k : Kernel) : List Nat := k.tdsOf 1
/-- The td positions that ST names. -/
def Kernel.stores (k : Kernel) : List Nat := k.tdsOf 4
/-- The kernel draws masks. -/
def Kernel.masks (k : Kernel) : Bool := k.body.any (fun w => bits w 31 26 = 0x1A)
/-- The kernel draws uniform values. -/
def Kernel.uniforms (k : Kernel) : Bool := k.body.any (fun w => bits w 31 26 = 0x1B)

/-- The fields an operation uses: RD, RA, RB, RC, and how many IMM values; none for a reserved code (R272). -/
def kernOpUse (op : Nat) : Option (Bool × Bool × Bool × Bool × Nat) :=
  match op with
  | 0x00 | 0x09 => some (false, false, false, false, 1)
  | 0x01 => some (true, false, false, false, 6)
  | 0x02 => some (true, false, false, false, 16)
  | 0x03 => some (true, false, false, false, 7)
  | 0x04 => some (false, true, false, false, 6)
  | 0x05 | 0x08 => some (true, false, false, false, 4)
  | 0x06 | 0x07 => some (false, true, false, false, 4)
  | 0x0A | 0x0B | 0x0C | 0x0D | 0x14 | 0x15 => some (true, true, true, false, 1)
  | 0x0E | 0x18 => some (true, true, true, true, 1)
  | 0x0F | 0x10 | 0x11 | 0x12 | 0x13 | 0x16 | 0x17 | 0x19 => some (true, true, false, false, 1)
  | 0x1A | 0x1B => some (true, false, false, false, 1)
  | _ => none

/-- A kernel word that R272 allows, for a table of `consts` constants. -/
def kernWordOk (consts w : Nat) : Bool :=
  let op := bits w 31 26
  let imm := bits w 5 0
  match kernOpUse op with
  | none => false
  | some (rd, ra, rb, rc, n) =>
    (rd || bits w 25 21 = 0) && (ra || bits w 20 16 = 0) && (rb || bits w 15 11 = 0) && (rc || bits w 10 6 = 0)
    && decide (imm < n) && (op ≠ 2 || decide (imm < consts)) && (op ≠ 3 || imm % 4 ≠ 3)

/-- A kernel that R271 to R273 allow. -/
def Kernel.ok (k : Kernel) : Bool :=
  k.words.all (kernWordOk k.consts.length) && k.body.length < k.words.length && k.shape < 6 && k.flags < 4
  && bit k.flags 0 = k.passes && bit k.flags 1 = (k.masks || k.uniforms)
  && (k.body.filter (fun w => bits w 31 26 = 9)).length ≤ 1
  && (if k.passes then
        k.pass0.all (fun w => bits w 31 26 ≠ 8 && bits w 31 26 ≠ 4) && k.main.all (fun w => bits w 31 26 ≠ 6 && bits w 31 26 ≠ 7)
      else k.body.all (fun w => bits w 31 26 ≠ 6 && bits w 31 26 ≠ 7 && bits w 31 26 ≠ 8))

/-- The kernel store of an image is well formed (R271). -/
def kernStoreOk (m : Memory) : Bool :=
  let s := imgField m 0x18 4
  let len := imgField m 0x1C 4
  let n := kernCount m
  imgField m s 4 = 0x3155564B && 1 ≤ n && n ≤ 4096 && imgField m (s + 6) 8 = 0 && imgField m (s + 14) 2 = 0
  && decide (16 + 16 * n ≤ len)
  && (List.range n).all (fun i =>
      let e := s + 16 + 16 * i
      let c := imgField m e 4
      let w := imgField m (e + 4) 2
      let k := imgField m (e + 6) 1
      c % 16 = 0 && 1 ≤ w && w ≤ 1024 && k ≤ 16 && decide (16 + 16 * n ≤ c) && decide (c + 4 * k + 4 * w ≤ len)
      && imgField m (e + 9) 7 = 0 && (kernelAt m i).ok)

/-! ## One element (R272, R273) -/

/-- What a kernel's words read besides the registers: the operands at the lane's position, the constants and
arguments, the position, the row reductions, and the Tally draw. -/
structure LaneIn where
  ld : List (Nat × Num)
  consts : List Num
  args : List Nat
  pos : Pos
  red : List Num
  mask : Bool
  uniform : Num
deriving DecidableEq, Repr

/-- Registers, stores and reduction terms while a kernel runs: a term is (index, whether it is a maximum, value). -/
structure LaneState where
  v : List Num
  st : List (Nat × Num) := []
  red : List (Nat × Bool × Num) := []
deriving DecidableEq, Repr

/-- The greatest integer not above a number (FLOOR). -/
def Num.floor (x : Num) : Num :=
  match x with
  | .fin n m => let r := x.toRat.floor; if r = 0 then (if n && m ≠ 0 then .ofRat r else .fin n 0) else .ofRat r
  | y => y

/-- One kernel word. -/
def kernWord (i : LaneIn) (w : Nat) (s : LaneState) : LaneState :=
  let rd := bits w 25 21
  let a := at' s.v (bits w 20 16) .zero
  let b := at' s.v (bits w 15 11) .zero
  let c := at' s.v (bits w 10 6) .zero
  let imm := bits w 5 0
  let set (x : Num) : LaneState := { s with v := setAt s.v rd x }
  match bits w 31 26 with
  | 0x01 => set (match i.ld.find? (fun q => q.1 = imm) with | some q => q.2 | none => .zero)
  | 0x02 => set (at' i.consts imm .zero)
  | 0x03 =>
    let n := at' i.args (imm % 4) 0
    set (if bit imm 2 then .ofNat n else bf16.decode n)
  | 0x04 => { s with st := s.st.filter (fun q => q.1 ≠ imm) ++ [(imm, a)] }
  | 0x05 => set (roundFp32 (.ofNat (if imm = 0 then i.pos.d0 else if imm = 1 then i.pos.d1 else if imm = 2 then i.pos.d2 else i.pos.d3)))
  | 0x06 => { s with red := s.red ++ [(imm, false, a)] }
  | 0x07 => { s with red := s.red ++ [(imm, true, a)] }
  | 0x08 => set (at' i.red imm .zero)
  | 0x0A => set (fAdd a b)
  | 0x0B => set (fSub a b)
  | 0x0C => set (fMul a b)
  | 0x0D => set (fDiv a b)
  | 0x0E => set (fFma a b c)
  | 0x0F => set (fSqrt a)
  | 0x10 => set (roundFp32 a.rsqrt)
  | 0x11 => set (fDiv .one a)
  | 0x12 => set (roundFp32 a.exp2)
  | 0x13 => set (roundFp32 a.log2)
  | 0x14 => set (a.max b)
  | 0x15 => set (a.min b)
  | 0x16 => set a.abs
  | 0x17 => set a.neg
  | 0x18 => set (if a.positive then b else c)
  | 0x19 => set a.floor
  | 0x1A => set (if i.mask then .one else .zero)
  | 0x1B => set i.uniform
  | _ => s

/-- A kernel's words over one element. -/
def kernRun (i : LaneIn) (ws : List Nat) : LaneState :=
  ws.foldl (fun s w => kernWord i w s) { v := List.replicate 32 .zero }

/-- The four row reductions from the terms of a row: an exact sum rounded once, or a maximum. A reduction that one
kernel uses both ways has no stated value: it is free. -/
def rowReductions (free : Nat → Num) (terms : List (Nat × Bool × Num)) : List Num :=
  (List.range 4).map (fun k =>
    let mine := terms.filter (fun q => q.1 = k)
    if mine.any (·.2.1) && mine.any (fun q => !q.2.1) then free k
    else if mine.any (·.2.1) then mine.foldl (fun a q => a.max q.2.2) (.inf true)
    else roundFp32 (Num.sum (mine.map (·.2.2))))

end Sys2Proof.Machine
end

