-- ==== Sys2Proof/Machine/Drain.lean ====
section
/-! DEFINITION. What the engines compute: matrix operands and cells, tiles and their drains, page rows, score rows,
combined partial products, converted groups and kernel groups (chapters 03, 04 and 08, R270 to R286). -/

namespace Sys2Proof.Machine

/-! ## An instance at work -/

/-- An instance with its graph and task, and the seed and number of its step. -/
structure Work where
  x : Inst
  g : GraphHdr
  t : Task
  seed : Nat
  step : Nat
deriving DecidableEq, Repr

/-- The work of an instance of an attempt. -/
def Dev.work (d : Dev) (x : Inst) : Option Work :=
  match d.attemptGraph x.ctx x.newer, (d.ctx x.ctx).step? x.newer with
  | some g, some r => some { x := x, g := g, t := d.graphTask g x.task, seed := r.seed.toNat, step := r.p.step }
  | _, _ => none

/-- The descriptor at a td position as it lies in the graph. -/
def Dev.rawTd (d : Dev) (w : Work) (k : Nat) : Option TD := d.taskTd w.g w.t w.x.mb k
/-- The descriptor at a td position as the instance reads it. -/
def Dev.inTd (d : Dev) (w : Work) (k : Nat) : Option TD := (d.rawTd w k).map (d.readTdOf w.x)
/-- The descriptor at a td position as the instance writes it. -/
def Dev.outTd (d : Dev) (w : Work) (k : Nat) : Option TD := (d.rawTd w k).map (d.resolveTd w.x.ctx w.x.newer w.x.half w.x.slot)

/-! ## The ladder's rungs (R146, R147) -/

/-- The format of a rung. -/
def rungFmt (r : Nat) : Nat := if r = 0 then 1 else if r = 1 then 2 else if r = 2 then 4 else 8
/-- The start rung of a target's format. -/
def startRung (fmt : Nat) : Nat := if fmt = 1 then 0 else if fmt = 2 then 1 else if fmt = 4 then 2 else 3
/-- A ladder target's descriptor at a rung; at rung 3 it holds BF16 rows. -/
def TD.atRung (t : TD) (r : Nat) : TD :=
  if r = 3 then { t with fmt := 8, flags := t.flags / 2 * 2, scaleBase := 0 } else { t with fmt := rungFmt r }

/-- A product that runs on the B-engines. -/
def Work.onB (w : Work) : Bool := w.t.op = opBmul || (w.t.op = opFmul && w.t.ladder && w.x.rung = 3)

/-- A LADDER consumer above its start rung, whose A descriptor is `a`. -/
def Work.lifted (w : Work) (a : TD) : Bool := w.t.op = opFmul && w.t.ladder && startRung a.fmt < w.x.rung

/-! ## Matrix operands -/

/-- An operand of a product: its tensor scale, its elements without scales by (row, index along K), its block scales,
and the first poisoned line that an element meets. -/
structure Opnd where
  ts : Num
  core : Nat → Nat → Num
  scale : Nat → Nat → Num
  poison : Nat → Nat → Option Nat
  poisonOk : Bool

/-- An operand held in a tensor; `zp` gives the zero point of each channel of an INT8Z operand. -/
def Dev.tdOpnd (d : Dev) (w : Work) (t : TD) (rdim : Bool) (b2 b3 : Nat) (zp : Nat → Int) : Opnd :=
  let pos (row k : Nat) : Pos := if rdim then ⟨row, k, b2, b3⟩ else ⟨k, row, b2, b3⟩
  let c := w.x.ctx
  let m := w.x.mb
  { ts := fp32Val t.tscale
    core := fun row k =>
      let p := pos row k
      if t.fmt = 7 then .ofRat ((signed (d.elemBits c m t p) 8 - zp (t.channel p) : Int) : Rat)
      else decodeElem t.fmt (d.elemBits c m t p)
    scale := fun row kb => d.blockScale c m t (pos row (32 * kb))
    poison := fun row k => d.elemPoison c m t (pos row k)
    poisonOk := t.poisonOk }

/-- One block of 32 elements converted into a format: element i and the block scale. -/
def reblock (fmt : Nat) (ts : Word) (xs : List Num) : (Nat → Num) × Num :=
  let t : TD := { packedTd 0 fmt 32 1 1 1 with tscale := ts }
  let r := convertRun t (fun _ => 0) xs
  (fun i => decodeElem fmt (at' (r.2.map (·.bits)) i 0),
   if isMx fmt then (if r.1 = 0xFF then .nan else .fin false (pow2 ((r.1 : Int) - 127))) else .one)

/-- The page row of a position of a sequence, through a snapshot (R203, R224). -/
def Dev.pageRow (d : Dev) (s : KvSnap) (pos side : Nat) : TD :=
  let h := halfOf s.seqRec
  let p := (d.seqRec s.seqRec).pool
  d.poolRowTd h p (ptFrame (d.ptEntry s.table (pos / 16))) side (pos % 16)

/-- The snapshot an instance holds of a sequence. -/
def Inst.snapOf (x : Inst) (a : Nat) : KvSnap :=
  (x.kv.find? (fun s => s.seqRec = a)).getD { seqRec := a, table := 0, entries := 0, gen := 0, l := 0, rows := 0 }

/-- The virtual operand of a gather binding (R223, R224). -/
def Dev.gatherOpnd (d : Dev) (w : Work) (b : GatherBind) (rdim : Bool) : Opnd :=
  let s := w.x.snapOf b.seqRec
  let row (key : Nat) : TD := d.pageRow s (b.keyStart + key) b.side
  let at2 (r k : Nat) : Nat × Nat := if rdim then (r, k) else (k, r)
  let blk (key cb : Nat) : (Nat → Num) × Num :=
    let t := row key
    reblock b.fmt t.tscale ((List.range 32).map (fun i => d.elemValue w.x.ctx w.x.mb t ⟨b.colStart + 32 * cb + i, 0, 0, 0⟩))
  { ts := fp32Val (row 0).tscale
    core := fun r k =>
      let q := at2 r k
      let t := row q.2
      if t.fmt = b.fmt then d.elemCore w.x.ctx w.x.mb t ⟨b.colStart + q.1, 0, 0, 0⟩ else (blk q.2 (q.1 / 32)).1 (q.1 % 32)
    scale := fun r kb =>
      let q := at2 r (32 * kb)
      let t := row q.2
      if t.fmt = b.fmt then d.blockScale w.x.ctx w.x.mb t ⟨b.colStart + q.1, 0, 0, 0⟩ else (blk q.2 (q.1 / 32)).2
    poison := fun r k =>
      let q := at2 r k
      d.elemPoison w.x.ctx w.x.mb (row q.2) ⟨b.colStart + q.1, 0, 0, 0⟩
    poisonOk := false }

/-- The gather binding of an operand: 0 A, 1 B. -/
def Dev.gatherFor (d : Dev) (w : Work) (operand : Nat) : Option GatherBind :=
  (d.gatherBinds w.t).find? (fun b => b.operand = operand)

/-- The dims of an operand of a product. -/
def Dev.opndDims (d : Dev) (w : Work) (operand : Nat) : Nat × Nat × Nat × Nat :=
  match d.gatherFor w operand with
  | some b => (b.colCount, b.keyCount, 1, 1)
  | none => match d.rawTd w operand with
    | some t => (t.dim0, t.dim1, t.dim2, t.dim3)
    | none => (0, 0, 1, 1)

/-- The shape of a product. -/
structure Shape where
  m : Nat
  n : Nat
  k : Nat
  d2 : Nat
  d3 : Nat
deriving DecidableEq, Repr

/-- RDIM of an operand; only a B task has it. -/
def Task.rdim (t : Task) (operand : Nat) : Bool := t.op ≠ opFmul && (if operand = 0 then t.rdimA else t.rdimB)

/-- M, N, K and the batch of a product (R81, R108). -/
def Dev.prodShape (d : Dev) (w : Work) (a b : Nat) : Shape :=
  let x := d.opndDims w a
  let y := d.opndDims w b
  { m := if w.t.rdim 0 then x.1 else x.2.1, k := if w.t.rdim 0 then x.2.1 else x.1,
    n := if w.t.rdim 1 then y.1 else y.2.1, d2 := x.2.2.1, d3 := x.2.2.2 }

/-- Tile rows and columns of a product. -/
def Shape.tm (s : Shape) : Nat := ceilDiv s.m 32
/-- Tile columns. -/
def Shape.tn (s : Shape) : Nat := ceilDiv s.n 32
/-- The tiles of a product (R82). -/
def Shape.tiles (s : Shape) : Nat := s.d3 * s.d2 * s.tm * s.tn

/-- A tile's place: batch item, tile row and tile column (R82). -/
structure Tile where
  b2 : Nat
  b3 : Nat
  tm : Nat
  tn : Nat
deriving DecidableEq, Repr

/-- The tile of an index. -/
def Shape.tile (s : Shape) (i : Nat) : Tile :=
  let r := i / s.tn
  { tn := i % s.tn, tm := r % s.tm, b2 := r / s.tm % s.d2, b3 := r / s.tm / s.d2 }

/-- The weight of a LADDER consumer at rung 1, 2 or 3: converted from the head region of the record with the B descriptor's
tensor_id, in the pinned slot, whatever view the descriptor names; at rung 3 the head itself (R147). The conversion into the
rung buffer takes the tensor scale of the B descriptor (log entry 56). -/
def Dev.ladderWeight (d : Dev) (w : Work) (b : TD) (b2 b3 : Nat) : Opnd :=
  match d.viewRec w.x.ctx b with
  | none => d.tdOpnd w b false b2 b3 (fun _ => 0)
  | some r =>
    let h := (d.regions w.g r b).head.inSlot r w.x.slot
    let o := d.tdOpnd w h false b2 b3 (fun _ => 0)
    if w.x.rung = 3 then o
    else
      let blk (row kb : Nat) : (Nat → Num) × Num :=
        reblock (rungFmt w.x.rung) b.tscale ((List.range 32).map (fun i => o.ts.mul (o.core row (32 * kb + i))))
      { o with ts := fp32Val b.tscale, core := fun row k => (blk row (k / 32)).1 (k % 32), scale := fun row kb => (blk row kb).2 }

/-- Operand A (0) or B (1) of a product for one batch item. -/
def Dev.opnd (d : Dev) (w : Work) (operand b2 b3 : Nat) (zp : Nat → Int) : Opnd :=
  match d.gatherFor w operand with
  | some b => d.gatherOpnd w b (w.t.rdim operand)
  | none => match d.inTd w operand with
    | none => { ts := .one, core := fun _ _ => .zero, scale := fun _ _ => .one, poison := fun _ _ => none, poisonOk := false }
    | some t =>
      if w.t.op = opFmul && w.t.ladder then
        if operand = 0 then d.tdOpnd w (t.atRung w.x.rung) false b2 b3 zp
        else if 0 < w.x.rung then d.ladderWeight w t b2 b3
        else d.tdOpnd w t false b2 b3 zp
      else d.tdOpnd w t (w.t.rdim operand) b2 b3 zp

/-! ## Cells (R84, R99, R110) -/

/-- A sum of products under the non-finite rules: NaN wins, then ±Inf, then the exact sum. -/
def dot (l : List (Num × Num)) : Num := Num.sum (l.map (fun (x : Num × Num) => x.1.mul x.2))

/-- An accumulator and the sum of the magnitudes it took. -/
structure Acc where
  acc : Num := .zero
  mag : Num := .zero
deriving DecidableEq, Repr

/-- One addition into an accumulator, rounded once. -/
def Acc.add (a : Acc) (x y : Num) : Acc := { acc := fAdd a.acc x, mag := fAdd a.mag y }

/-- block_dot of R84. -/
def blockDot (a b : Opnd) (k i j kb : Nat) : Num :=
  match a.scale i kb, b.scale j kb with
  | .nan, _ => .nan
  | _, .nan => .nan
  | _, _ => dot ((List.range (min 32 (k - 32 * kb))).map (fun e => (a.core i (32 * kb + e), b.core j (32 * kb + e))))

/-- The accumulation rule of R84 over n block sums, already scaled: INT8Z folds its integer partial once every 1,024
blocks. -/
def blockAcc (int8z : Bool) (n : Nat) (f : Nat → Num) : Acc :=
  if int8z then
    ((List.range n).foldl (fun (s : Acc × Num) kb =>
      let ip := s.2.add (f kb)
      if (kb + 1) % 1024 = 0 || kb + 1 = n then (s.1.add ip ip.abs, .zero) else (s.1, ip)) ({}, .zero)).1
  else (List.range n).foldl (fun (s : Acc) kb => let x := f kb; s.add x x.abs) {}

/-- f_cell of R84. -/
def fCell (int8z : Bool) (a b : Opnd) (k i j : Nat) : Acc :=
  blockAcc int8z (ceilDiv k 32) (fun kb => ((a.scale i kb).mul (b.scale j kb)).mul (blockDot a b k i j kb))

/-- Groups of 8 in increasing order, one rounding for each: acc8 of R99 and b_cell of R110, with the groups' magnitudes. -/
def groupAcc (l : List (Num × Num)) : Acc := (chunksOf 8 l).foldl (fun (s : Acc) g => let x := dot g; s.add x x.abs) {}

/-- b_cell of R110. -/
def bCell (a b : Opnd) (k i j : Nat) : Acc := groupAcc ((List.range k).map (fun e => (a.core i e, b.core j e)))

/-! ## The check row and the check columns (R89 to R91, R101, R120, R121, R125) -/

/-- The F-engine's check row for one column: the block dot of the exact sum of A's scaled blocks over the tile's rows with
the column's scaled block (R89). -/
def fChk (int8z : Bool) (a b : Opnd) (k : Nat) (rows : List Nat) (j : Nat) : Num :=
  (blockAcc int8z (ceilDiv k 32) (fun kb =>
    dot ((List.range (min 32 (k - 32 * kb))).map (fun e =>
      (Num.sum (rows.map (fun i => (a.scale i kb).mul (a.core i (32 * kb + e)))),
       (b.scale j kb).mul (b.core j (32 * kb + e))))))).acc

/-- A B-engine's check row for one column: the dot of the exact sums of a(i, k) over the tile's rows with b(k, j) (R120). -/
def bChk (a b : Opnd) (k : Nat) (rows : List Nat) (j : Nat) : Num :=
  (groupAcc ((List.range k).map (fun e => (Num.sum (rows.map (fun i => a.core i e)), b.core j e)))).acc

/-- The test of R90 on the sums `l` that one check value stands for, after n roundings; a NaN or Inf among the sums, the
check value or S exempts it (R91). -/
def checkPasses (l : List Acc) (chk : Num) (n : Nat) : Bool :=
  let s := roundFp32 (Num.sum (l.map (·.mag)))
  if l.any (fun x => x.acc.nonfinite) || chk.nonfinite || s.nonfinite then true
  else match roundFp32 (Num.sum (l.map (·.acc))) with
    | .fin g m =>
      let e := Num.toRat (.fin g m) - chk.toRat
      let c : Rat := (n + 33 : Nat)
      decide ((if e < 0 then -e else e) ≤ c * pow2 (-22) * s.toRat + c * pow2 (-148))
    | _ => false

/-- The residue modulo 3 of a dyadic number; 2^e is its own inverse modulo 3. -/
def res3 (r : Rat) : Int := r.num * (r.den % 3 : Nat) % 3

/-- The residue check of the ACC adder: the residues of the present value and of v add up to that of the sum (R125); a value
that is not finite has none (log entry 57). -/
def residueOk (p v s : Num) : Bool :=
  !p.isFin || !v.isFin || !s.isFin || (res3 p.toRat + res3 v.toRat) % 3 = res3 s.toRat

/-! ## Values of a tile -/

/-- A tile's cell: the accumulator and, with a correction, the lane's sum. -/
structure Cell where
  acc : Acc
  corr : Option Num := none
deriving DecidableEq, Repr

/-- A value that a defect replaces, by one index. -/
def over1 (l : List (Nat × Word)) (i : Nat) (x : Num) : Num :=
  match l.find? (fun q => q.1 = i) with | some q => fp32Val q.2 | none => x
/-- A value that a defect replaces, by two indices. -/
def over2 (l : List (Nat × Nat × Word)) (i j : Nat) (x : Acc) : Acc :=
  match l.find? (fun q => q.1 = i && q.2.1 = j) with | some q => { x with acc := fp32Val q.2.2 } | none => x
/-- A cell's accumulators as they come out. -/
def overCell (l : List (Nat × Nat × Word × Word)) (i j : Nat) (x : Acc) : Acc :=
  match l.find? (fun q => q.1 = i && q.2.1 = j) with | some q => ⟨fp32Val q.2.2.1, fp32Val q.2.2.2⟩ | none => x

/-- The rows of a tile that lie inside M. -/
def Shape.rows (s : Shape) (p : Tile) : List Nat := (List.range (min 32 (s.m - 32 * p.tm))).map (32 * p.tm + ·)
/-- The columns of a tile that lie inside N. -/
def Shape.cols (s : Shape) (p : Tile) : List Nat := (List.range (min 32 (s.n - 32 * p.tn))).map (32 * p.tn + ·)

/-- An INT8Z product. -/
def Dev.isInt8z (d : Dev) (w : Work) : Bool := match d.rawTd w 0 with | some t => t.fmt = 7 | none => false

/-- The correction factors U and V of a product; above its start rung it carries none (R98, R147). -/
def Dev.factorsOf (d : Dev) (w : Work) : Option (TD × TD) :=
  let lifted := match d.rawTd w 0 with | some t => w.lifted t | none => false
  if w.t.op = opFmul && !lifted then
    match d.inTd w 3, d.inTd w 4 with | some u, some v => some (u, v) | _, _ => none
  else none

/-- tu × tv. -/
def Dev.tuv (d : Dev) (w : Work) : Num :=
  match d.factorsOf w with | some (u, v) => (fp32Val u.tscale).mul (fp32Val v.tscale) | none => .one

/-- One attempt at a tile: the lane's X rows and the sums of its two stages, and the cells, as a defect leaves them. -/
structure TileRun where
  x : List (List Num)
  strip : List (List Acc)
  corr : List (List Acc)
  cells : List (List Cell)
deriving DecidableEq, Repr

/-- tt of R99. -/
def TileRun.tt (r : TileRun) : List (List Num) := r.strip.map (fun l => l.map (fun t => bf16.roundNum t.acc))

/-- An attempt at a tile (R84, R99, R110). -/
def Dev.tileRun (d : Dev) (w : Work) (zpA zpB : Nat → Int) (tile : Nat) (f : TileFault) : TileRun :=
  let s := d.prodShape w 0 1
  let p := s.tile tile
  let a := d.opnd w 0 p.b2 p.b3 zpA
  let b := d.opnd w 1 p.b2 p.b3 zpB
  let int8z := d.isInt8z w
  let rows := s.rows p
  let cols := s.cols p
  let cell (i j : Nat × Nat) : Acc := overCell f.cells i.2 j.2 (if w.onB then bCell a b s.k i.1 j.1 else fCell int8z a b s.k i.1 j.1)
  match d.factorsOf w with
  | none => { x := [], strip := [], corr := [], cells := rows.zipIdx.map (fun i => cols.zipIdx.map (fun j => { acc := cell i j })) }
  | some (u, v) =>
    let uAt (k q : Nat) : Num := d.elemCore w.x.ctx w.x.mb u ⟨k, q, 0, 0⟩
    let vAt (q j : Nat) : Num := d.elemCore w.x.ctx w.x.mb v ⟨q, j, 0, 0⟩
    let x := rows.map (fun i => (List.range s.k).map (fun e => bf16.roundNum ((a.scale i (e / 32)).mul (a.core i e))))
    let strip := x.zipIdx.map (fun (r : List Num × Nat) => (List.range u.dim1).map (fun q =>
      over2 f.strip r.2 q (groupAcc (r.1.zipIdx.map (fun (y : Num × Nat) => (y.1, uAt y.2 q))))))
    let tt := strip.map (fun l => l.map (fun t => bf16.roundNum t.acc))
    let corr := tt.zipIdx.map (fun (r : List Num × Nat) => cols.zipIdx.map (fun (j : Nat × Nat) =>
      over2 f.corr r.2 j.2 (groupAcc (r.1.zipIdx.map (fun (y : Num × Nat) => (y.1, vAt y.2 j.1))))))
    { x := x, strip := strip, corr := corr,
      cells := rows.zipIdx.map (fun i => cols.zipIdx.map (fun j =>
        { acc := cell i j, corr := some (at' (at' corr i.2 []) j.2 {}).acc })) }

/-- The cells of a sound tile that lie inside M and N, by rows. -/
def Dev.tileCells (d : Dev) (w : Work) (zpA zpB : Nat → Int) (tile : Nat) : List (List Cell) :=
  (d.tileRun w zpA zpB tile .none).cells

/-- The roundings into an accumulator: n of R90 and R121. -/
def Dev.checkN (d : Dev) (w : Work) (k : Nat) : Nat :=
  if w.onB then ceilDiv k 8 else if d.isInt8z w then ceilDiv (ceilDiv k 32) 1024 else ceilDiv k 32

/-- The check row passes every column of a tile (R90, R121). -/
def Dev.rowOk (d : Dev) (w : Work) (zpA zpB : Nat → Int) (tile : Nat) (f : TileFault) (r : TileRun) : Bool :=
  let s := d.prodShape w 0 1
  let p := s.tile tile
  let a := d.opnd w 0 p.b2 p.b3 zpA
  let b := d.opnd w 1 p.b2 p.b3 zpB
  (s.cols p).zipIdx.all (fun j =>
    let chk := if w.onB then bChk a b s.k (s.rows p) j.1 else fChk (d.isInt8z w) a b s.k (s.rows p) j.1
    checkPasses (r.cells.map (fun l => (at' l j.2 { acc := {} }).acc)) (over1 f.chk j.2 chk) (d.checkN w s.k))

/-- The lane's check columns pass both stages of a tile (R101). -/
def Dev.laneOk (d : Dev) (w : Work) (tile : Nat) (f : TileFault) (r : TileRun) : Bool :=
  let s := d.prodShape w 0 1
  let p := s.tile tile
  match d.factorsOf w with
  | none => true
  | some (u, v) =>
    let us (k : Nat) : Num := Num.sum ((List.range u.dim1).map (fun q => d.elemCore w.x.ctx w.x.mb u ⟨k, q, 0, 0⟩))
    let vs (q : Nat) : Num := Num.sum ((s.cols p).map (fun j => d.elemCore w.x.ctx w.x.mb v ⟨q, j, 0, 0⟩))
    (r.x.zip r.strip).zipIdx.all (fun (z : (List Num × List Acc) × Nat) =>
      checkPasses z.1.2 (over1 f.stripChk z.2 (groupAcc (z.1.1.zipIdx.map (fun (y : Num × Nat) => (y.1, us y.2)))).acc) (ceilDiv s.k 8))
    && (r.tt.zip r.corr).zipIdx.all (fun (z : (List Num × List Acc) × Nat) =>
      checkPasses z.1.2 (over1 f.corrChk z.2 (groupAcc (z.1.1.zipIdx.map (fun (y : Num × Nat) => (y.1, vs y.2)))).acc) (ceilDiv u.dim1 8))

/-- The drained value of a cell (R85, R111). -/
def cellValue (onB : Bool) (ta tb tuv : Num) (x : Cell) : Num :=
  match x.corr with
  | some c => ta.mul ((tb.mul x.acc.acc).add (tuv.mul c))
  | none => if onB then (ta.mul tb).mul x.acc.acc else ta.mul (tb.mul x.acc.acc)

/-- The gather binding with a score mode, where the task is a score task. -/
def Dev.scoreBind (d : Dev) (w : Work) : Option GatherBind := (d.gatherBinds w.t).find? (fun b => b.operand = 1)

/-- A score the causal mask hides (R225). -/
def GatherBind.hides (b : GatherBind) (row key : Nat) : Bool := b.mask = 1 && decide (b.qpos0 + row < b.keyStart + key)

/-- The address of a query row's statistics (R226). -/
def Dev.statsAddr (d : Dev) (b : GatherBind) (row : Nat) : Nat :=
  let r := d.seqRec b.seqRec
  r.statsPtr + ((b.qpos0 + row) * r.hq + b.qhead) * 8

/-- prob of R226. -/
def probOf (t lse : Num) : Num := roundFp32 (fSub t lse).exp2

/-! ## Where an output goes -/

/-- A piece of output: its target descriptor, what the converter made of it, the row and column of its first
element within its tile or group, and whether it is written poisoned (R76). -/
structure Piece where
  t : TD
  out : RunOut
  row : Nat
  col : Nat
  poison : Bool := false
deriving DecidableEq, Repr

/-- The append binding that covers an output element (R104). -/
def Dev.bindFor (d : Dev) (t : Task) (row col : Nat) : Option AppendBind :=
  (d.appendBinds t).find? (fun b => decide (b.rowStart ≤ row) && decide (row < b.rowStart + b.rowCount)
    && decide (b.colStart ≤ col) && decide (col < b.colStart + b.colCount))

/-- Up to 32 elements of an output row from position p on: they go to a page slot where a binding covers them, and
otherwise to Y. -/
def Dev.piece (d : Dev) (w : Work) (y? : Option TD) (p : Pos) (row col : Nat) (quiet : Nat → Bool) (xs : List (Option Num)) : Option Piece :=
  match (if w.t.appends = 0 then none else d.bindFor w.t p.d1 p.d0) with
  | some b =>
    let s := w.x.snapOf b.seqRec
    let t := d.pageRow s (s.l + (p.d1 - b.rowStart)) b.side
    some { t := t, out := blockOut t (fun _ => 0) (fun i => quiet (i + b.colStart)) ⟨p.d0 - b.colStart, 0, 0, 0⟩ xs, row := row, col := col }
  | none => y?.map (fun y =>
      { t := y, out := blockOut y (fun q => d.zeroPoint w.x.ctx w.x.mb y q) quiet p xs, row := row, col := col })

/-- The error of the ACC adder in a cell. -/
def sumErr (f : TileFault) (r c : Nat) : Num :=
  match f.sums.find? (fun q => q.1 = r && q.2.1 = c) with
  | some q => .ofRat ((q.2.2.1 : Rat) * pow2 q.2.2.2)
  | none => .zero

/-- The ACC adder of a cell: the present value, v and the sum as it comes out (R112, R125). -/
def Dev.accSum (d : Dev) (w : Work) (y : TD) (f : TileFault) (q : Pos) (r c : Nat) (v : Num) : Num × Num :=
  let p := d.elemValue w.x.ctx w.x.mb (d.throughWindow w.x y) q
  (p, (p.add v).add (sumErr f r c))

/-- The drained values of a tile by rows, before ACC, mask and score (R85, R111). -/
def Dev.tileValues (d : Dev) (w : Work) (tile : Nat) (r : TileRun) : List (List Num) :=
  let p := (d.prodShape w 0 1).tile tile
  let ta := (d.opnd w 0 p.b2 p.b3 (fun _ => 0)).ts
  let tb := (d.opnd w 1 p.b2 p.b3 (fun _ => 0)).ts
  r.cells.map (fun l => l.map (cellValue w.onB ta tb (d.tuv w)))

/-- The residues of a tile's ACC sums agree (R125). -/
def Dev.accOk (d : Dev) (w : Work) (tile : Nat) (f : TileFault) (r : TileRun) : Bool :=
  if !w.t.acc then true
  else match d.outTd w 2 with
    | none => true
    | some y =>
      let p := (d.prodShape w 0 1).tile tile
      (d.tileValues w tile r).zipIdx.all (fun (l : List Num × Nat) => l.1.zipIdx.all (fun (x : Num × Nat) =>
        let s := d.accSum w y f ⟨32 * p.tn + x.2, 32 * p.tm + l.2, p.b2, p.b3⟩ l.2 x.2 x.1
        residueOk s.1 x.1 s.2))

/-- The drain of a PARTIAL tile: acc and mag of every cell as FP32 words, with neither conversion nor report (R286). -/
def partialPieces (y : TD) (p : Tile) (chunk : Nat) (r : TileRun) : List Piece :=
  r.cells.zipIdx.map (fun (l : List Cell × Nat) =>
    { t := { y with tracker := 0xFFFFFFFF }, row := l.2, col := 0,
      out := { puts := [(y.rowAddr ⟨0, 32 * p.tm + l.2, chunk, 0⟩ + 8 * 32 * p.tn,
                 l.1.flatMap (fun x => leBytes 4 (fp32.bitsOf x.acc.acc) ++ leBytes 4 (fp32.bitsOf x.acc.mag)))]
               nf := firstIx (fun (x : Cell) => x.acc.acc.nonfinite || x.acc.mag.nonfinite) l.1 } })

/-- The drain of a tile: its pieces (R85, R102, R111, R112, R226). -/
def Dev.tilePieces (d : Dev) (w : Work) (tile : Nat) (f : TileFault) (r : TileRun) : List Piece :=
  let p := (d.prodShape w 0 1).tile tile
  let y? := d.outTd w 2
  if w.t.partial? then
    match y? with
    | none => []
    | some y => partialPieces y p w.t.chunk r
  else
    let score := d.scoreBind w
    (d.tileValues w tile r).zipIdx.filterMap (fun (l : List Num × Nat) =>
      let row := 32 * p.tm + l.2
      let q : Pos := ⟨32 * p.tn, row, p.b2, p.b3⟩
      let hid (c : Nat) : Bool := match score with | some b => b.hides row c | none => false
      let vs := l.1.zipIdx.map (fun (x : Num × Nat) =>
        let col := 32 * p.tn + x.2
        let v := if w.t.acc then match y? with | some y => (d.accSum w y f ⟨col, row, p.b2, p.b3⟩ l.2 x.2 x.1).2 | none => x.1 else x.1
        let v1 := if hid col then Num.inf true else v
        match score with
        | some b => if b.smode = 2 then probOf (roundFp32 v1) (fp32.decode (d.ld (d.statsAddr b row + 4) 4)) else v1
        | none => v1)
      match score with
      | some b => if b.smode = 1 then none else d.piece w y? q l.2 0 (if b.smode = 0 then hid else fun _ => false) (vs.map some)
      | none => d.piece w y? q l.2 0 (fun _ => false) (vs.map some))

/-- The poisoned lines that a tile reads: those whose descriptor allows poison apart (R91, R254). The lane reads U whole and
the tile's columns of V. -/
def Dev.tilePoison (d : Dev) (w : Work) (tile : Nat) : Option Nat × Bool :=
  let s := d.prodShape w 0 1
  let p := s.tile tile
  let z : Nat → Int := fun _ => 0
  let a := d.opnd w 0 p.b2 p.b3 z
  let b := d.opnd w 1 p.b2 p.b3 z
  let rows := s.rows p
  let cols := s.cols p
  let meets (l : List Nat) (o : Opnd) : Option Nat := l.findSome? (fun r => (List.range s.k).findSome? (fun k => o.poison r k))
  let y := if w.t.acc then match d.outTd w 2 with
      | some y => (rows.findSome? (fun r => cols.findSome? (fun c => d.elemPoison w.x.ctx w.x.mb y ⟨c, r, p.b2, p.b3⟩)), y.poisonOk)
      | none => (none, false)
    else (none, false)
  let uv : List (Option Nat × Bool) := match d.factorsOf w with
    | some (u, v) =>
      [((List.range u.elems).findSome? (fun i => d.elemPoison w.x.ctx w.x.mb u (u.posAt i)), u.poisonOk),
       (cols.findSome? (fun c => (List.range v.dim0).findSome? (fun q => d.elemPoison w.x.ctx w.x.mb v ⟨q, c, 0, 0⟩)), v.poisonOk)]
    | none => []
  let l := [(meets rows a, a.poisonOk), (meets cols b, b.poisonOk), y] ++ uv
  (l.findSome? (fun (q : Option Nat × Bool) => if q.2 then none else q.1), l.any (fun (q : Option Nat × Bool) => q.1.isSome))

/-! ## Row statistics (R226) -/

/-- fold of R226 over one block of scores. -/
def foldScores (ms : Num × Num) (t : List Num) : Num × Num :=
  let bm := t.foldl Num.max (.inf true)
  let nm := ms.1.max bm
  if nm = .inf true then ms
  else
    let s1 := fMul ms.2 (roundFp32 (fSub ms.1 nm).exp2)
    (nm, fAdd s1 (roundFp32 (Num.sum (t.map (fun x => roundFp32 (fSub x nm).exp2)))))

/-- The statistics of one query row: m and lse (R226). -/
def rowStats (t : List Num) : Num × Num :=
  let r := (chunksOf 128 t).foldl foldScores (.inf true, .zero)
  (r.1, if r.1 = .inf true then .inf true else fAdd r.1 (roundFp32 r.2.log2))

/-- A STATS task ends: every query row's statistics are stored (R226). -/
def Dev.storeStats (d : Dev) (w : Work) (zpA zpB : Nat → Int) : Dev :=
  match d.scoreBind w with
  | none => d
  | some b =>
    if b.smode ≠ 1 then d
    else
      let dv := d.withWindows w.x
      let s := dv.prodShape w 0 1
      let vals (tm : Nat) : List (List Num × Bool) :=
        let ts := (List.range s.tn).map (fun tn => tm * s.tn + tn)
        let tiles := ts.map (fun t => dv.tileValues w t (dv.tileRun w zpA zpB t .none))
        let bad := ts.any (fun t => (dv.tilePoison w t).2)
        (List.range (min 32 (s.m - 32 * tm))).map (fun i =>
          ((tiles.flatMap (fun t => at' t i [])).zipIdx.map (fun (x : Num × Nat) =>
            if b.hides (32 * tm + i) x.2 then .inf true else roundFp32 x.1), bad))
      (((List.range s.tm).flatMap vals).zipIdx).foldl (fun d (r : (List Num × Bool) × Nat) =>
        let a := d.statsAddr b r.2
        if r.1.2 then d.poisonLine (lineOf a)
        else
          let q := rowStats r.1.1
          d.writeMem a (leBytes 4 (fp32.bitsOf q.1) ++ leBytes 4 (fp32.bitsOf q.2))) d

/-! ## COMBINE (R197, R286) -/

/-- combine of R197. -/
def combine : Nat → List Num → Num
  | 0, l => at' l 0 .zero
  | f + 1, l =>
    if l.length ≤ 1 then at' l 0 .zero
    else combine f ((chunksOf 2 l).map (fun q => match q with | [a, b] => fAdd a b | [a] => a | _ => .zero))

/-- Element groups of a tensor: 64 consecutive elements of a row (R270). -/
def TD.groups (t : TD) : Nat := t.rows * ceilDiv t.dim0 64
/-- The position at which group g starts, and its length. -/
def TD.group (t : TD) (g : Nat) : Pos × Nat :=
  let n := ceilDiv t.dim0 64
  let d0 := 64 * (g % n)
  (t.posOfRow (g / n) d0, min 64 (t.dim0 - d0))

/-- A group's values in pieces of at most 32. -/
def Dev.groupPieces (d : Dev) (w : Work) (y : TD) (p : Pos) (xs : List (Option Num)) : List Piece :=
  (chunksOf 32 xs).zipIdx.filterMap (fun (c : List (Option Num) × Nat) =>
    if c.1.all (·.isNone) then none
    else d.piece w (some y) { p with d0 := p.d0 + 32 * c.2 } c.2 0 (fun _ => false) c.1)

/-- The accumulators that a COMBINE forms for an element: combine() over the chunks' acc and over their mag (R286). -/
def Dev.combined (d : Dev) (w : Work) (b : TD) (q : Pos) : Acc :=
  let part (k : Nat) : List Num := (List.range b.dim2).map (fun c => d.elemCore w.x.ctx w.x.mb b ⟨2 * q.d0 + k, q.d1, c, 0⟩)
  { acc := combine 17 (part 0), mag := combine 17 (part 1) }

/-- A group of a COMBINE: the partial sums of each element, combined and drained. -/
def Dev.combinePieces (d : Dev) (w : Work) (g : Nat) : List Piece :=
  match d.inTd w 0, d.outTd w 1, d.inTd w 2, d.inTd w 3 with
  | some b, some y, some ta, some tb =>
    let q := y.group g
    d.groupPieces w y q.1 ((List.range q.2).map (fun i =>
      some (cellValue false (fp32Val ta.tscale) (fp32Val tb.tscale) .one { acc := d.combined w b { q.1 with d0 := q.1.d0 + i } })))
  | _, _, _, _ => []

/-! ## CONVERT (R78, R146) -/

/-- A group of a conversion; a ladder conversion writes its rung's format (R146). -/
def Dev.convertPieces (d : Dev) (w : Work) (g : Nat) : List Piece :=
  match d.inTd w 0, d.outTd w 1 with
  | some s, some y0 =>
    let y := if w.t.ladder then y0.atRung w.x.rung else y0
    let q := s.group g
    d.groupPieces w y q.1 ((List.range q.2).map (fun i => some (d.elemValue w.x.ctx w.x.mb s { q.1 with d0 := q.1.d0 + i })))
  | _, _ => []

/-- The exact squared error and square sum of a ladder conversion's source written at a rung (R146); an element of a NaN block
counts as 0 (log entry 56). -/
def Dev.ladderError (d : Dev) (w : Work) (s y : TD) (r : Nat) : Rat × Rat :=
  let t := y.atRung r
  (List.range s.rows).foldl (fun (acc : Rat × Rat) row =>
    (chunksOf 32 ((List.range s.dim0).map (fun i => d.elemValue w.x.ctx w.x.mb s (s.posOfRow row i)))).foldl
      (fun (acc : Rat × Rat) xs =>
        let b := reblock t.fmt t.tscale xs
        let ts := fp32Val t.tscale
        xs.zipIdx.foldl (fun (acc : Rat × Rat) (x : Num × Nat) =>
          if x.1.isFin then
            let e := x.1.toRat - ((ts.mul b.2).mul (b.1 x.2)).toRat
            (acc.1 + e * e, acc.2 + x.1.toRat * x.1.toRat)
          else acc) acc) acc) (0, 0)

/-- LADDER_TOP and FBQ of a ladder conversion: those of the target's slot, or the reset values; a consumer with append
bindings climbs to rung 2 at most (R146). -/
def Dev.ladderCap (d : Dev) (w : Work) (y : TD) : Nat × Nat :=
  let c := match y.slot? w.x.half with | some k => (d.ladderTop k, d.slotFbq k) | none => (0, 5)
  let appends := (d.taskSuccs w.g w.t).any (fun i => let t := d.graphTask w.g i; t.op = opFmul && t.ladder && t.appends ≠ 0)
  if appends then (min c.1 2, c.2) else c

/-- The climb of ladder_convert (R146). -/
def Dev.climb (d : Dev) (w : Work) (s y : TD) (top fbq : Nat) : Nat → Nat → Nat
  | 0, r => r
  | n + 1, r =>
    if top ≤ r ∨ r = 3 then r
    else
      let e := d.ladderError w s y r
      if e.1 * pow2 ((fbq + 4 * r : Nat) : Int) ≤ e.2 then r else d.climb w s y top fbq n (r + 1)

/-- The forward conversion whose rung a RECOMPUTE conversion repeats (R148). -/
def Dev.ladderTwin (d : Dev) (w : Work) (y : TD) : Option Nat :=
  (List.range w.g.taskCount).find? (fun i =>
    let t := d.graphTask w.g i
    t.op = opConvert && t.ladder && !t.recompute &&
    (match d.taskTd w.g t w.x.mb 1 with | some z => decide (z.tensorId = y.tensorId) | none => false))

/-- The rung of a ladder conversion. -/
def Dev.ladderRung (d : Dev) (w : Work) (s y : TD) (run : StepRun) : Nat :=
  if w.t.recompute then
    match d.ladderTwin w y with
    | some i => ((run.rungs.find? (fun q => q.1 = i && q.2.1 = w.x.mb)).map (·.2.2)).getD (startRung y.fmt)
    | none => startRung y.fmt
  else
    let c := d.ladderCap w y
    d.climb w s y c.1 c.2 4 (startRung y.fmt)

/-! ## VU groups (R270 to R275) -/

/-- The operands of a kernel at a position of the iteration space. -/
def Dev.laneIn (d : Dev) (w : Work) (k : Kernel) (red : List Num) (p : Pos) : LaneIn :=
  let ld := k.loads.filterMap (fun i => (d.inTd w i).map (fun t =>
    (i, roundFp32 (d.elemValue w.x.ctx w.x.mb t
      ⟨min p.d0 (t.dim0 - 1), min p.d1 (t.dim1 - 1), min p.d2 (t.dim2 - 1), min p.d3 (t.dim3 - 1)⟩))))
  let b := d.tallyBind w.t.tallyPtr
  { ld := ld, consts := k.consts, args := [bits w.t.aux 31 16, bits w.t.aux 47 32, bits w.t.aux 63 48], pos := p, red := red,
    mask := b.mask w.seed w.step p, uniform := b.uniform w.seed w.step p }

/-- A group of a VU task: pass 0 over its row where the kernel has PASS, then the stores. -/
def Dev.vuPieces (d : Dev) (w : Work) (g : Nat) : List Piece :=
  let k := d.kernel (w.t.aux % 65536)
  match d.rawTd w k.shape with
  | none => []
  | some sp =>
    let q := sp.group g
    let red := if k.passes then
        rowReductions (fun r => fp32Val (Config.valueAt d.free (4 * g + r))) ((List.range sp.dim0).flatMap (fun i => (kernRun (d.laneIn w k [] { q.1 with d0 := i }) k.pass0).red))
      else []
    let lanes := (List.range q.2).map (fun i => (kernRun (d.laneIn w k red { q.1 with d0 := q.1.d0 + i }) k.main).st)
    let first := k.stores.foldl min 6
    k.stores.flatMap (fun s => match d.outTd w s with
      | none => []
      | some y =>
        let xs := lanes.map (fun st => (st.find? (fun z => z.1 = s)).map (·.2))
        d.groupPieces (if s = first then w else { w with t := { w.t with bindCount := 0 } }) y q.1 xs)

/-- The poisoned lines a group's sources meet; `srcs` gives the td positions read and whether a whole row is read. -/
def Dev.groupPoison (d : Dev) (w : Work) (srcs : List Nat) (row : Bool) (p : Pos) (n : Nat) : Option Nat × Bool :=
  let l := srcs.filterMap (fun k => (d.inTd w k).map (fun t =>
    let ix := if row then List.range t.dim0 else (List.range n).map (p.d0 + ·)
    (ix.findSome? (fun i => d.elemPoison w.x.ctx w.x.mb t
      ⟨min i (t.dim0 - 1), min p.d1 (t.dim1 - 1), min p.d2 (t.dim2 - 1), min p.d3 (t.dim3 - 1)⟩), t.poisonOk)))
  (l.findSome? (fun (q : Option Nat × Bool) => if q.2 then none else q.1), l.any (fun (q : Option Nat × Bool) => q.1.isSome))

/-! ## Writing pieces -/

/-- Writes to the deep tier go out as requests of the instance, those of poisoned outputs with the CXL poison bit (R242, R244,
R253). -/
def Dev.deepWrites (d : Dev) (x : Inst) (puts : List (Nat × List Byte)) (poison : Bool) : Dev :=
  (mergePuts (puts.filter (fun q => tierOf q.1 = 8 && q.1 < 2 ^ 52))).foldl (fun d (q : Nat × List Byte) =>
    d.deepAsk { id := 0, half := x.half, kind := 0, ctx := x.ctx, newer := x.newer, task := x.task, mb := x.mb, target := q.1, poison := poison }
      q.1 true q.2) d

/-- The pieces of a tile or group are written and reported, a poisoned piece without conversion or report; the first
non-finite position reaches the instance (R76, R92, R95, R130). `tile` is the number that position words carry. -/
def Dev.writePieces (d : Dev) (w : Work) (tile : Nat) (ps : List Piece) : Dev :=
  let good := ps.filter (fun q => !q.poison)
  let puts := good.flatMap (fun q => q.t.outPuts q.out.puts)
  let bad := (ps.filter (·.poison)).flatMap (fun q => q.t.outPuts q.out.puts)
  let d1 := ((((d.putOut w.x puts false).deepWrites w.x puts false).putOut w.x bad true).deepWrites w.x bad true)
  let tgts := (good.map (·.t.tracker)).dedup
  let d2 := tgts.foldl (fun d tr =>
    match good.find? (fun q => q.t.tracker = tr) with
    | some q => d.reportTo w.x.ctx w.x.newer w.x.half q.t (Report.sum ((good.filter (fun p => p.t.tracker = tr)).map (·.out.rep)))
    | none => d) d1
  let flagged := good.filterMap (fun q => q.out.nf.map (fun i => (q.t.slot? w.x.half, BitVec.ofNat 64 (posWord tile q.row (q.col + i)))))
  if flagged.isEmpty then d2
  else d2.updInst w.x (fun y => flagged.foldl (fun (y : Inst) (q : Option Nat × DWord) =>
    { y with nfPos := minPos y.nfPos q.2, nfAt := match q.1 with | some k => keepPos y.nfAt k q.2 | none => y.nfAt }) y)

end Sys2Proof.Machine
end

