-- ==== Sys2Proof/Machine/Check.lean ====
section
/-! DEFINITION. The admission checks of a task (R80, R81, R103, R109, R129, R164, R176, R193, R227, R274, R275, R286,
R324, R325): what each descriptor and binding must satisfy, in the order in which the checks name a status. -/

namespace Sys2Proof.Machine

/-- The status of the first condition that holds. -/
def firstFail (l : List (Bool × Status)) : Option Status := (l.find? (·.1)).map (·.2)

/-! ## What a task names (R265) -/

/-- The td positions of an operation and whether it writes them; a HUB task's descriptors are passed to hub code. -/
def Dev.roles (d : Dev) (t : Task) : List (Nat × Bool) :=
  if t.op = opFmul then [(0, false), (1, false), (2, true), (3, false), (4, false)]
  else if t.op = opBmul then [(0, false), (1, false), (2, true)]
  else if t.op = opConvert ∨ t.op = opCollective ∨ t.op = opCopy then [(0, false), (1, true)]
  else if t.op = opCombine then [(0, false), (1, true), (2, false), (3, false)]
  else if t.op = opVu then
    let st := (d.kernel (t.aux % 65536)).stores
    (List.range 6).map (fun k => (k, st.contains k))
  else if t.op = opHub then (List.range 6).map (fun k => (k, false))
  else []

/-- The descriptors a task names for a micro-batch, with their positions and whether it writes them. -/
def Dev.named (d : Dev) (g : GraphHdr) (t : Task) (mb : Nat) : List (Nat × Bool × TD) :=
  (d.roles t).filterMap (fun r => (d.taskTd g t mb r.1).map (fun td => (r.1, r.2, td)))

/-! ## Checks 1, 2 and 4 to 7 of R80 -/

/-- Check 1: a reserved field or code (R8, R12, R14, R61, R129, R176, R262). -/
def TD.reserved (t : TD) : Bool :=
  0x0B < t.fmt || 16 ≤ t.flags || 8 ≤ t.hint || 6 ≤ t.view || 8 ≤ t.versionCtl || (t.fmt = 7 && 0x4000 ≤ t.chan)
  || (t.tracker ≠ 0xFFFFFFFF && 4096 ≤ t.tracker)

/-- Check 2: the first and last byte of each run of the descriptor have valid addresses (R41, R43). -/
def Dev.tdAddrBad (d : Dev) (t : TD) : Bool :=
  t.runs.any (fun r => !d.dpaValid r.1 || !d.dpaValid (r.1 + r.2 - 1))

/-- Check 4: flags, scale_base and chan_table against the format (R58, R61, R68). -/
def TD.flagsBad (t : TD) : Bool :=
  (t.chan ≠ 0 && t.fmt ≠ 7)
  || ((t.fmt = 8 || t.fmt = 9 || t.fmt = 0xA) && (t.interleaved || t.scaleBase ≠ 0))
  || (t.fmt = 7 && t.interleaved)
  || (t.infOk && t.fmt ≠ 8 && t.fmt ≠ 9)

/-- Check 5: a tensor scale that is not finite and above zero (R60). -/
def TD.scaleBad (t : TD) : Bool := !fp32Positive t.tscale.toNat

/-- Check 6: block shape and alignment (R55, R57, R116, R263); `column` for an operand that is read by columns. -/
def TD.blockBad (t : TD) (column : Bool) : Bool :=
  (isBlocked t.fmt && (t.dim0 % 32 ≠ 0 || t.base % 64 ≠ 0
    || (if t.interleaved then t.scaleBase ≠ 0 || (1 < t.dim1 && t.stride1 ≠ 0 && t.stride1 < ceilDiv t.rowBytes 64)
        else t.scaleBase % 64 ≠ 0)))
  || ((t.fmt = 8 || t.fmt = 9) && t.base % 2 ≠ 0) || (t.fmt = 0xA && t.base % 4 ≠ 0)
  || (column && t.base % 64 ≠ 0)

/-- The channel-table registers an INT8Z descriptor takes: first and count (R61). -/
def TD.chans (t : TD) : Nat × Nat := (t.chan % 4096, t.dim t.cdim)

/-- Check 7: channel-table ranges of every INT8Z descriptor, and the overlap of two INT8Z operands of a product (R62). -/
def chansBad (all operands : List TD) : Bool :=
  let zs (l : List TD) := (l.filter (fun t => t.fmt = 7)).map TD.chans
  (zs all).any (fun z => 4096 < z.1 + z.2)
  || (match zs operands with
      | [x, y] => decide (x.1 < y.1 + y.2) && decide (y.1 < x.1 + x.2)
      | _ => false)

/-! ## Check 3: operand codes and pairs (R78, R79) -/

/-- The F-engine's operand codes. -/
def fFmt (f : Nat) : Bool := 1 ≤ f && f ≤ 7
/-- The B-engines' operand codes. -/
def bFmt (f : Nat) : Bool := f = 8 || f = 9
/-- The codes a drain writes. -/
def outFmt (f : Nat) : Bool := 1 ≤ f && f ≤ 0xA
/-- The collective engine's codes. -/
def collFmt (f : Nat) : Bool := 8 ≤ f && f ≤ 0xB

/-- Every output element of a task is bound (R104). -/
def Dev.fullyBound (d : Dev) (w : Work) : Bool :=
  let s := d.prodShape w 0 1
  ((d.appendBinds w.t).map (fun b => b.rowCount * b.colCount)).sum = s.m * s.n * s.d2 * s.d3

/-- A product's operands break R79. -/
def Dev.pairBad (d : Dev) (w : Work) (ok : Nat → Bool) : Bool :=
  let f (k : Nat) : Nat := match d.gatherFor w k with
    | some b => b.fmt
    | none => match d.rawTd w k with | some t => t.fmt | none => 0
  let bad (k : Nat) : Bool := (d.gatherFor w k).isNone && !ok (f k)
  bad 0 || bad 1 || (ok (f 0) && ok (f 1) && f 0 ≠ f 1)

/-- A target that a drain cannot write. -/
def Dev.targetBad (d : Dev) (w : Work) (k : Nat) (needed : Bool) : Bool :=
  match d.rawTd w k with
  | some t => !(outFmt t.fmt || (t.fmt = 0 && !needed))
  | none => needed

/-- Check 3 (R78, R79, R109, R112, R265, R274, R286, R324). -/
def Dev.formatBad (d : Dev) (w : Work) : Bool :=
  let fmt (k : Nat) : Nat := match d.rawTd w k with | some t => t.fmt | none => 0
  let same : Bool := match d.rawTd w 0, d.rawTd w 1 with
    | some a, some b => a.dim0 = b.dim0 && a.dim1 = b.dim1 && a.dim2 = b.dim2 && a.dim3 = b.dim3
    | _, _ => false
  let t := w.t
  if t.op = opFmul then
    let free := d.fullyBound w || (d.gatherBinds t).any (fun b => b.smode = 1)
    d.pairBad w fFmt || d.targetBad w 2 (!free) || (t.partial? && fmt 2 ≠ 0xA)
    || (d.rawTd w 3).any (fun u => u.fmt ≠ 8) || (d.rawTd w 4).any (fun u => u.fmt ≠ 8)
  else if t.op = opBmul then
    d.pairBad w bFmt || d.targetBad w 2 true || ((t.acc || t.partial?) && fmt 2 ≠ 0xA)
  else if t.op = opConvert then fmt 0 = 0 || fmt 1 = 0 || !same
  else if t.op = opVu then
    let k := d.kernel (t.aux % 65536)
    k.loads.any (fun i => !(8 ≤ fmt i && fmt i ≤ 0xA)) || k.stores.any (fun i => !outFmt (fmt i))
  else if t.op = opCombine then fmt 0 ≠ 0xA || !outFmt (fmt 1)
  else if t.op = opCollective then
    let op := t.aux % 16
    if op = 5 then fmt 0 ≠ 0xA || fmt 1 ≠ 0xA
    else if bits t.aux 7 4 = 0 then !collFmt (fmt 0) || !collFmt (fmt 1)
    else if bits t.aux 7 4 = 1 then !(8 ≤ fmt 0 && fmt 0 ≤ 0xA) || fmt 1 ≠ fmt 0
    else fmt 0 = 0 || fmt 1 ≠ fmt 0
  else if t.op = opCopy then fmt 0 = 0 || fmt 0 ≠ fmt 1
  else false

/-! ## Update records (R164) -/

/-- A program that every powered half provides, and in the same words (R163, R168). -/
def Dev.progPresent (d : Dev) (prog : Nat) : Bool :=
  if prog = 1 ∨ prog = 2 ∨ prog = 3 then true
  else if 0x80 ≤ prog ∧ prog ≤ 0x8F then
    let halves := [0, 1].filter d.halfOn
    let ws (h : Nat) : List Nat := (List.range 256).map (fun i => d.committed (hubDie h) (0x03002000 + (prog - 0x80) * 1024 + i * 4))
    halves.all (fun h => d.bank.progs.contains (h * 16 + (prog - 0x80)) && progCheck (ws h) && ws h == ws (at' halves 0 0))
  else true

/-- A code that R163 does not list. Reserved flags and bytes of the record are not read (log entry 52). -/
def UpdRec.codesBad (r : UpdRec) : Bool :=
  !(r.prog = 1 || r.prog = 2 || r.prog = 3 || (0x80 ≤ r.prog && r.prog ≤ 0x8F)) || 2 < r.round || 3 < r.maskKind
  || 7 < r.imgFmt || !(r.stateFmt = 0x0A || r.stateFmt = 0x08) || 4 < r.stateN

/-- A rank that does not agree with CORR. -/
def UpdRec.rankBad (r : UpdRec) : Bool := if r.corr then r.rank = 0 || 32 < r.rank else r.rank ≠ 0

/-- The REDUCE_SCATTER tasks of a graph that write a tensor. -/
def Dev.gradTasks (d : Dev) (g : GraphHdr) (tensor : Nat) : List Nat :=
  (List.range g.taskCount).filter (fun i =>
    let t := d.graphTask g i
    t.op = opCollective && t.aux % 16 = 1 &&
    (match d.taskTd g t 0 1 with | some td => decide (td.tensorId = tensor) | none => false))

/-- Task a precedes task b along the edges, in at most `fuel` edges. -/
def Dev.precedes (d : Dev) (g : GraphHdr) (b : Nat) : Nat → List Nat → Bool
  | 0, _ => false
  | n + 1, front =>
    let next := (front.flatMap (fun i => d.taskSuccs g (d.graphTask g i))).dedup
    if next.isEmpty then false else next.contains b || Dev.precedes d g b n next

/-- A FACTORED shard that does not hold whole rows, or a tensor with more than two dims. -/
def Dev.factoredBad (d : Dev) (c : Nat) (g : GraphHdr) (r : UpdRec) : Bool :=
  r.prog = 3 &&
  (match d.gradTask g r.tensorId with
   | some p => match d.taskTd g p.2 0 0 with
     | some src =>
       let i := d.collOfTask c p.2
       let rg := i.range src.elems i.rank
       src.dim2 ≠ 1 || src.dim3 ≠ 1 || rg.1 % max src.dim0 1 ≠ 0 || rg.2 % max src.dim0 1 ≠ 0
     | none => false
   | none => false)

/-- The tests of R164 for an UPDATE task; `load` for those that only graph load makes, since they do not depend on the
committed record table alone. -/
def Dev.recordFail (d : Dev) (c : Nat) (g : GraphHdr) (task : Nat) : Option Status :=
  let t := d.graphTask g task
  let r := d.updRec c t.aux
  let known : Bool := decide (t.aux < (d.updTable c).2)
  let grads := (d.gradTasks g r.tensorId).filter (fun k => d.precedes g task g.taskCount [k])
  firstFail [
    (known && !d.progPresent r.prog, St.updProgramAbsent),
    (known && r.codesBad, St.reservedNonzero),
    (!known || r.rankBad || grads.length ≠ 1, St.graphInvalid),
    (d.factoredBad c g r, St.shapeMismatch)]

/-- A version view whose tensor has no record (R164). -/
def Dev.viewBad (d : Dev) (c : Nat) (t : TD) : Bool := t.view ≠ 0 && (d.viewRec c t).isNone

/-- A target other than the update's, in a half, names a record's image slot there: the half of the UPDATE task that writes the
image, either half where the graph holds none (R129, R164). -/
def Dev.imgSlotBad (d : Dev) (c : Nat) (g : GraphHdr) (half : Nat) (t : TD) : Bool :=
  t.tracker ≠ 0xFFFFFFFF && (List.range (d.updTable c).2).any (fun ix =>
    decide ((d.updRec c ix).imgSlot = t.tracker) &&
      (let us := ((List.range g.taskCount).map (d.graphTask g)).filter (fun u => u.op = opUpdate && u.aux = ix)
       us.isEmpty || us.any (fun u => u.half = half)))

/-! ## Check 8: shapes -/

/-- The tile or group occupies the array this many clocks (R88, R117). -/
def Dev.tileClocks (d : Dev) (w : Work) : Nat :=
  let s := d.prodShape w 0 1
  if w.onB then
    let kp := if w.t.op = opBmul && (w.t.rdimA || w.t.rdimB) then 32 * ceilDiv s.k 32 else 8 * ceilDiv s.k 8
    max (kp / 8) 8
  else
    let f := match d.gatherFor w 0 with | some b => b.fmt | none => match d.rawTd w 0 with | some t => t.fmt | none => 1
    max (ceilDiv s.k 32 * (if fmtBits f = 8 then 2 else 1)) 8

/-- Engine clocks in 2 ms at the class's engine clock (R3, R284). -/
def Dev.sliceClocks (d : Dev) : Nat := 2000 * classClock d.classNo

/-- The clocks of one kernel word over one group (R276). -/
def Dev.wordClocks (d : Dev) (t : Task) (w : Nat) : Nat :=
  let op := bits w 31 26
  if op = 0 then 0
  else if op = 0x12 || op = 0x13 || op = 0x11 || op = 0x10 || op = 0x0F || op = 0x0D || op = 0x1B then 4
  else if op = 0x1A then (d.tallyBind t.tallyPtr).width + 1
  else 1

/-- The clocks of one group of a VU, CONVERT or COMBINE task, doubled (R276, R495); a COMBINE takes one clock for each
chunk (log entry 14). -/
def Dev.groupClocks2 (d : Dev) (w : Work) : Nat :=
  if w.t.op = opConvert then 1
  else if w.t.op = opVu then 2 * ((d.kernel (w.t.aux % 65536)).body.map (d.wordClocks w.t)).sum
  else 2 * max w.t.chunks 1

/-- Rows of a written descriptor that overlap, or a row longer than its stride (R263). -/
def TD.rowsClash (t : TD) : Bool :=
  (1 < t.dim1 && 64 * t.stride1 < t.rowBytes)
  || (List.range t.rows).any (fun i =>
    let a := t.rowAddr (t.posOfRow i 0)
    (List.range i).any (fun j =>
      let b := t.rowAddr (t.posOfRow j 0)
      decide (a < b + t.rowBytes) && decide (b < a + t.rowBytes)))

/-- A dim of zero. -/
def TD.empty (t : TD) : Bool := t.dim0 = 0 || t.dim1 = 0 || t.dim2 = 0 || t.dim3 = 0

/-- A descriptor has given dims. -/
def TD.hasDims (t : TD) (d0 d1 d2 d3 : Nat) : Bool := t.dim0 = d0 && t.dim1 = d1 && t.dim2 = d2 && t.dim3 = d3

/-- The shape of a product breaks R81, R98, R109 or R286. -/
def Dev.productBad (d : Dev) (w : Work) : Bool :=
  let s := d.prodShape w 0 1
  let b := d.opndDims w 1
  let bk := if w.t.rdim 1 then b.2.1 else b.1
  bk ≠ s.k || b.2.2.1 ≠ s.d2 || b.2.2.2 ≠ s.d3
  || (match d.rawTd w 2 with
      | some y =>
        if w.t.partial? then !y.hasDims (2 * s.n) s.m w.t.chunks 1 || w.t.chunks ≤ w.t.chunk || s.d2 ≠ 1 || s.d3 ≠ 1
        else y.fmt ≠ 0 && !y.hasDims s.n s.m s.d2 s.d3
      | none => false)
  || (w.t.op = opFmul && (match d.rawTd w 3, d.rawTd w 4 with
      | some u, some v => u.dim0 ≠ s.k || u.dim1 = 0 || 32 < u.dim1 || u.dim2 ≠ 1 || u.dim3 ≠ 1 || !v.hasDims u.dim1 s.n 1 1
      | none, none => false
      | _, _ => true))
  || (w.t.op = opBmul && w.t.appends ≠ 0)
  || 2 ^ 32 < s.tiles || d.sliceClocks < d.tileClocks w

/-- The shape of a VU task breaks R270 or R274. -/
def Dev.vuBad (d : Dev) (w : Work) : Bool :=
  let k := d.kernel (w.t.aux % 65536)
  match d.rawTd w k.shape with
  | none => true
  | some sp =>
    let fits (a b : Nat) : Bool := a = b || (a = 1 && 1 < b)
    k.loads.any (fun i => match d.rawTd w i with
      | some t => !(fits t.dim0 sp.dim0 && fits t.dim1 sp.dim1 && fits t.dim2 sp.dim2 && fits t.dim3 sp.dim3)
      | none => true)
    || k.stores.any (fun i => match d.rawTd w i with
      | some t => !t.hasDims sp.dim0 sp.dim1 sp.dim2 sp.dim3
      | none => true)
    || (k.passes && 2 * d.sliceClocks < ceilDiv sp.dim0 64 * d.groupClocks2 w)

/-- The shape of a COMBINE, or of the chunks that fill its buffer, breaks R286. -/
def Dev.combineBad (d : Dev) (w : Work) : Bool :=
  match d.rawTd w 0, d.rawTd w 1 with
  | some b, some y =>
    !y.hasDims y.dim0 y.dim1 1 1 || !b.hasDims (2 * y.dim0) y.dim1 w.t.chunks 1
    || (List.range w.g.taskCount).any (fun i =>
        let t := d.graphTask w.g i
        t.partial? && (match d.taskTd w.g t w.x.mb 2 with
          | some z => z.base = b.base && !z.hasDims b.dim0 b.dim1 b.dim2 b.dim3
          | none => false))
  | _, _ => true

/-- The shapes of a COLLECTIVE break R324. -/
def Dev.collBad (d : Dev) (w : Work) : Bool :=
  match d.rawTd w 0, d.rawTd w 1 with
  | some s, some t =>
    let i := d.collOfTask w.x.ctx w.t
    let n := i.members.length
    let same := t.hasDims s.dim0 s.dim1 s.dim2 s.dim3
    let rg := i.range s.elems i.rank
    if i.op = 1 then t.elems ≠ rg.2 - rg.1 || (i.red = 0 && s.elems % 32 ≠ 0)
    else if i.op = 2 then t.elems ≠ n * s.elems
    else if i.op = 4 then !same || s.elems % max n 1 ≠ 0
    else if i.op = 5 then !same || s.elems = 0 || 16 < s.elems
    else !same || (i.op = 0 && i.red = 0 && s.elems % 32 ≠ 0)
  | _, _ => true

/-- Check 8 (R81, R82, R98, R109, R263, R265, R274, R284, R286, R324). -/
def Dev.shapeBad (d : Dev) (w : Work) (l : List (Nat × Bool × TD)) : Bool :=
  l.any (fun x => x.2.2.empty) || l.any (fun x => x.2.1 && x.2.2.rowsClash)
  || (if w.t.op = opFmul ∨ w.t.op = opBmul then d.productBad w
      else if w.t.op = opVu then d.vuBad w
      else if w.t.op = opCombine then d.combineBad w
      else if w.t.op = opCollective then d.collBad w
      else if w.t.op = opCopy then match d.rawTd w 0, d.rawTd w 1 with
        | some a, some b => !b.hasDims a.dim0 a.dim1 a.dim2 a.dim3
        | _, _ => true
      else false)

/-! ## Check 9: tracker slots (R129, R325) -/

/-- A slot that a SUM collective may use. -/
def Dev.sumSlotOk (d : Dev) (k members : Nat) : Bool :=
  let v := d.slotCtl k
  let margin : Int := signed (bits v 11 8) 4
  v % 4 = 1 && bits v 19 12 = 0x0B && bit v 2 && bit v 3 && decide (0 ≤ margin) && (members < 16384 || decide (1 ≤ margin))

/-- Check 9. -/
def Dev.slotBad (d : Dev) (w : Work) (l : List (Nat × Bool × TD)) : Bool :=
  l.any (fun x => match x.2.2.slot? w.x.half with | some k => (d.slot k).owner ≠ some w.x.ctx | none => false)
  || (w.t.op = opCollective && w.t.aux % 16 < 2 && bits w.t.aux 7 4 = 0 &&
      (match d.rawTd w 0 with
       | some s => match s.slot? w.x.half with
         | some k => !d.sumSlotOk k (d.collOfTask w.x.ctx w.t).members.length
         | none => true
       | none => false))

/-! ## Check 10: the Tally binding (R193, R275) -/

/-- Check 10. -/
def Dev.tallyFail (d : Dev) (w : Work) : Option Status :=
  let b := d.tallyBind w.t.tallyPtr
  let own := if w.t.tallyPtr = 0 then St.ok else b.check
  if own ≠ St.ok then some own
  else if w.t.op = opVu then
    let k := d.kernel (w.t.aux % 65536)
    let draws := k.masks || k.uniforms
    if (draws && w.t.tallyPtr = 0) || (w.t.tallyPtr ≠ 0 && b.kind = 2)
      || (k.masks && b.kind ≠ 1) || (k.uniforms && (b.kind ≠ 0 || b.width ≠ 2)) then some St.tallyBinding else none
  else none

/-! ## Check 11: append, scatter and gather bindings (R103, R210, R224 to R227) -/

/-- The descriptor that scatter bindings cover (R210): an F task's output is its product. -/
def Dev.boundDims (d : Dev) (w : Work) : Nat × Nat × Nat :=
  if w.t.op = opFmul then let s := d.prodShape w 0 1; (s.m, s.n, s.d2 * s.d3)
  else
    let k := if w.t.op = opVu then (d.kernel (w.t.aux % 65536)).stores.foldl min 6 else 1
    match d.rawTd w k with
    | some t => (t.dim1, t.dim0, t.dim2 * t.dim3)
    | none => (0, 0, 1)

/-- The engine that reads a gathered operand takes its format. -/
def Dev.gatherFmtOk (w : Work) (f : Nat) : Bool :=
  (1 ≤ f && f ≤ 6 || f = 8 || f = 9) && (if w.t.op = opBmul then bFmt f else fFmt f)

/-- Two bindings cover a common element. -/
def AppendBind.meets (a b : AppendBind) : Bool :=
  0 < a.rowCount && 0 < b.rowCount && 0 < a.colCount && 0 < b.colCount
  && a.rowStart < b.rowStart + b.rowCount && b.rowStart < a.rowStart + a.rowCount
  && a.colStart < b.colStart + b.colCount && b.colStart < a.colStart + a.colCount

/-- A record that a task may not name: not open, of another context, in another half, or in a pool that its context
does not hold. -/
def Dev.recordBad (d : Dev) (w : Work) (a : Nat) : Bool :=
  let r := d.seqRec a
  !d.seqs.contains a || !r.isOpen || r.ctx ≠ w.x.ctx || halfOf a ≠ w.x.half
  || (d.pool (poolKey w.x.half r.pool)).owner ≠ some w.x.ctx

/-- The width of a record's pool. -/
def Dev.seqWidth (d : Dev) (a : Nat) : Nat := let hp := d.seqPool a; d.poolReg hp.1 hp.2 0x04
/-- The format of a record's pool. -/
def Dev.seqFmt (d : Dev) (a : Nat) : Nat := let hp := d.seqPool a; d.poolReg hp.1 hp.2 0x00 % 256

/-- A record names a pool only while it is OPEN. -/
def Dev.hasPool (d : Dev) (a : Nat) : Bool := d.seqs.contains a && (d.seqRec a).isOpen
/-- The pool of a record names a slot with BIND set (R204). -/
def Dev.seqBound (d : Dev) (a : Nat) : Bool :=
  let hp := d.seqPool a
  let k := d.poolReg hp.1 hp.2 0x1C
  k < 4096 && d.slotBind hp.1 k

/-- The rule of R210: each sequence is bound on both sides, once each, over the same rows. -/
def sidesBad (bs : List AppendBind) : Bool :=
  bs.any (fun b =>
    let mine := bs.filter (fun c => c.seqRec = b.seqRec)
    (mine.filter (fun c => c.side = 0)).length ≠ 1 || (mine.filter (fun c => c.side = 1)).length ≠ 1
    || mine.any (fun c => c.rowStart ≠ b.rowStart || c.rowCount ≠ b.rowCount))

/-- Check 11 (R204, R227). A col_start that is no multiple of 32 is SHAPE_MISMATCH (R102; log entry 52). -/
def Dev.bindFail (d : Dev) (w : Work) : Option Status :=
  let bs := d.appendBinds w.t
  let gs := d.gatherBinds w.t
  let o := d.boundDims w
  let ix := bs.zipIdx
  firstFail [
    (bs.any (fun b => b.rsvd || 1 < b.side), St.reservedNonzero),
    (gs.any (fun g => g.rsvd || 1 < g.side || 1 < g.operand || 1 < g.mask || 2 < g.smode || 0x0B < g.fmt), St.reservedNonzero),
    (bs.any (fun b => d.hasPool b.seqRec && b.fmt ≠ d.seqFmt b.seqRec), St.formatMismatch),
    (gs.any (fun g => !Dev.gatherFmtOk w g.fmt), St.formatMismatch),
    (bs.any (fun b => o.1 < b.rowStart + b.rowCount || o.2.1 < b.colStart + b.colCount || b.colStart % 32 ≠ 0
      || (d.hasPool b.seqRec && b.colCount ≠ d.seqWidth b.seqRec)), St.shapeMismatch),
    (!bs.isEmpty && (o.2.2 ≠ 1 || ix.any (fun (x : AppendBind × Nat) => ix.any (fun (y : AppendBind × Nat) =>
      decide (x.2 < y.2) && x.1.meets y.1))), St.shapeMismatch),
    (gs.any (fun g => g.smode ≠ 0 && 1024 < (d.prodShape w 0 1).m), St.shapeMismatch),
    (bs.any (fun b => d.recordBad w b.seqRec || b.rowCount = 0), St.kvInvalid),
    (gs.any (fun g => d.recordBad w g.seqRec || g.colStart % 32 ≠ 0 || g.colCount % 32 ≠ 0 || g.keyCount = 0 || d.seqWidth g.seqRec < g.colStart + g.colCount
      || (d.seqRec g.seqRec).provLen < g.keyStart + g.keyCount || (d.seqRec g.seqRec).hq ≤ g.qhead
      || (g.smode ≠ 0 && (g.operand = 0 || g.side = 1))), St.kvInvalid),
    (sidesBad bs, St.kvInvalid),
    (bs.any (fun b => d.seqBound b.seqRec), St.kvInvalid)]

/-! ## All checks in order (R80, R282) -/

/-- The first check that an instance fails, with its status: check by check, each over the descriptors in the order in which the
task names them (log entry 52). -/
def Dev.checkFail (d : Dev) (w : Work) : Option Status :=
  let c := w.x.ctx
  let l := d.named w.g w.t w.x.mb
  let tds := l.map (fun x => x.2.2)
  let column (k : Nat) : Bool := w.t.op = opBmul && k < 2 && w.t.rdim k
  let views := l.any (fun x => d.viewBad c x.2.2)
  let first := firstFail [
    (tds.any TD.reserved, St.reservedNonzero),
    (tds.any d.tdAddrBad, St.dpaInvalid)]
  let upd := if w.t.op = opUpdate then d.recordFail c w.g w.x.task else none
  let mid := firstFail [
    (views, St.graphInvalid),
    (tds.any (fun t => t.view ≠ 0) && l.any (fun x => x.2.1 && d.imgSlotBad c w.g w.x.half x.2.2), St.trackerInvalid),
    (l.any (fun x => x.2.1 && x.2.2.view ≠ 0), St.versionWrite),
    (d.formatBad w, St.formatMismatch),
    (tds.any TD.flagsBad, St.formatFlags),
    (w.t.op = opCopy && (match d.rawTd w 0, d.rawTd w 1 with
      | some a, some b => a.interleaved ≠ b.interleaved || a.chan ≠ b.chan
      | _, _ => false), St.formatFlags),
    ((tds.map (d.resolveTd c w.x.newer w.x.half w.x.slot)).any TD.scaleBad, St.tscaleInvalid),
    (l.any (fun x => x.2.2.blockBad (column x.1)), St.blockShape),
    (chansBad (l.map (fun x => x.2.2)) (if w.t.op = opFmul then (l.filter (fun x => x.1 < 2)).map (fun x => x.2.2) else []), St.chanTableRange),
    (d.shapeBad w l, St.shapeMismatch),
    (d.slotBad w l, St.trackerInvalid)]
  match first with
  | some s => some s
  | none => match upd with
    | some s => some s
    | none => match mid with
      | some s => some s
      | none => match d.tallyFail w with
        | some s => some s
        | none => d.bindFail w

end Sys2Proof.Machine
end

