-- ==== Sys2Proof/Machine/Admit.lean ====
section
/-! DEFINITION. Admission (R267, R268, R282, R283, R287, R288): when an instance is eligible, what its schedule allows,
and the one reservation of everything it needs. -/

namespace Sys2Proof.Machine

/-! ## Eligibility -/

/-- Every instance that an instance depends on has completed (R267). -/
def Dev.predsDone (d : Dev) (g : GraphHdr) (run : StepRun) (task mb : Nat) : Bool :=
  let t := d.graphTask g task
  (d.taskPreds g task).all (fun p =>
    if (d.graphTask g p).scope = 1 then run.done.contains (p, 0)
    else if t.scope = 1 then (List.range run.p.mbCount).all (fun m => run.done.contains (p, m))
    else run.done.contains (p, mb))

/-- An instance has been admitted in this attempt, or has completed. -/
def Dev.begun (d : Dev) (c : Nat) (newer : Bool) (run : StepRun) (task mb : Nat) : Bool :=
  run.done.contains (task, mb) || (match d.inst? c newer task mb with | some i => i.state ≠ 0 | none => false)

/-- The tasks of a stage. -/
def Dev.stageTasks (d : Dev) (g : GraphHdr) (stage : Nat) : List (Nat × Task) :=
  ((List.range g.taskCount).map (fun k => (k, d.graphTask g k))).filter (fun p => p.2.stage = stage)

/-- A micro-batch has opened in a stage: some FORWARD instance of it was admitted there (R268). -/
def Dev.opened (d : Dev) (c : Nat) (newer : Bool) (g : GraphHdr) (run : StepRun) (stage mb : Nat) : Bool :=
  (d.stageTasks g stage).any (fun p => p.2.scope = 0 && p.2.forward && d.begun c newer run p.1 mb)

/-- Every instance of a micro-batch in a stage has completed; `but` names one that counts as complete. -/
def Dev.stageDone (d : Dev) (g : GraphHdr) (run : StepRun) (stage mb : Nat) (but : Option Nat) : Bool :=
  (d.stageTasks g stage).all (fun p => p.2.scope = 1 || run.done.contains (p.1, mb) || but = some p.1)

/-- The schedule permits an instance (R287). -/
def Dev.scheduleOk (d : Dev) (c : Nat) (newer : Bool) (g : GraphHdr) (run : StepRun) (t : Task) (mb : Nat) : Bool :=
  if run.p.schedule = 1 then
    !t.backward || (d.stageTasks g t.stage).all (fun p =>
      !p.2.forward || (if p.2.scope = 1 then run.done.contains (p.1, 0)
        else (List.range run.p.mbCount).all (fun m => run.done.contains (p.1, m))))
  else if t.forward && t.scope = 0 && !d.opened c newer g run t.stage mb then
    let mbs := (List.range run.p.mbCount).filter (fun m => d.opened c newer g run t.stage m)
    ((List.range mb).all (fun m => mbs.contains m))
    && (mbs.filter (fun m => !d.stageDone g run t.stage m none)).length < at' g.window t.stage 0
  else true

/-- An instance is eligible (R282, R288): its attempt runs, it has neither completed nor been admitted, what it depends
on has completed, and its schedule permits it. No update of a newer step is admitted before the step ahead commits. -/
def Dev.eligible (d : Dev) (c : Nat) (newer : Bool) (g : GraphHdr) (run : StepRun) (task mb : Nat) : Bool :=
  let t := d.graphTask g task
  run.state = 2 && task < g.taskCount && (if t.scope = 1 then mb = 0 else mb < run.p.mbCount)
  && !d.begun c newer run task mb && d.predsDone g run task mb && d.scheduleOk c newer g run t mb
  && !(newer && t.op = opUpdate)

/-- The instances of a step that have become eligible since it was last asked take their place in that order, those of one moment
the same (R283). -/
def Dev.noteReady (d : Dev) (c : Nat) (newer : Bool) : Dev :=
  match d.attemptGraph c newer, (d.ctx c).step? newer with
  | some g, some run =>
    let all := (List.range g.taskCount).flatMap (fun t =>
      (List.range (if (d.graphTask g t).scope = 1 then 1 else run.p.mbCount)).map (fun m => (t, m)))
    let new := all.filter (fun p => !run.ready.any (fun q => q.1 = p.1 && q.2.1 = p.2) && d.eligible c newer g run p.1 p.2)
    if new.isEmpty then d
    else { d.updStep c newer (fun r => { r with ready := r.ready ++ new.map (fun p => (p.1, p.2, d.nextOrder)) }) with nextOrder := d.nextOrder + 1 }
  | _, _ => d

/-! ## The ACC hold (R113) -/

/-- The tensors that a task writes. -/
def Dev.writtenIds (d : Dev) (g : GraphHdr) (t : Task) (mb : Nat) : List Nat :=
  ((d.named g t mb).filter (fun x => x.2.1)).map (fun x => x.2.2.tensorId)

/-- An instance of the set that writes one tensor with ACC waits for those before it in the order (micro-batch, task)
(R113); a scope-1 task stands in micro-batch 0 (log entry 52). -/
def Dev.accHeld (d : Dev) (g : GraphHdr) (run : StepRun) (task mb : Nat) : Bool :=
  let tasks := (List.range g.taskCount).map (fun k => (k, d.graphTask g k))
  ((d.writtenIds g (d.graphTask g task) mb).filter (· ≠ 0)).any (fun id =>
    let set := tasks.filter (fun p => (d.writtenIds g p.2 mb).contains id)
    set.any (fun p => p.2.acc) && set.any (fun p =>
      (List.range (if p.2.scope = 1 then 1 else run.p.mbCount)).any (fun m =>
        (decide (m < mb) || (m = mb && decide (p.1 < task))) && !run.done.contains (p.1, m))))

/-! ## What an instance reserves (R282 step 4) -/

/-- The extents of runs of HBM (R239). -/
def extentsOf (runs : List (Nat × Nat)) : List Nat :=
  ((runs.filter (fun r => tierOf r.1 = 0 && r.1 < 2 ^ 52 && 0 < r.2)).flatMap (fun r =>
    (List.range ((r.1 + r.2 - 1) / 2 ^ 21 - r.1 / 2 ^ 21 + 1)).map (r.1 / 2 ^ 21 + ·))).dedup

/-- The runs an UPDATE instance names: both version slots and both copies of the state. -/
def Dev.updRuns (d : Dev) (c : Nat) (newer : Bool) (task : Nat) : List (Nat × Nat) :=
  match d.updJob c newer task with
  | none => []
  | some j =>
    let regs := [j.reg.head] ++ (if j.r.round = 1 then [] else [j.reg.tail]) ++ (if j.r.imgFmt = 0 then [] else [j.reg.image])
      ++ (if j.r.corr then [j.reg.u, j.reg.v] else [])
    let n := 64 + (j.stSizes.map (fun k => ceilDiv (k * j.r.stBytes) 64 * 64)).sum
    regs.flatMap (fun t => (t.inSlot j.r 0).runs ++ (t.inSlot j.r 1).runs)
    ++ [(j.r.stateBase, n), (j.r.stateBase + j.r.stateDelta, n)]

/-- The extents an instance names. -/
def Dev.instExts (d : Dev) (w : Work) : List Nat :=
  if w.t.op = opUpdate then extentsOf (d.updRuns w.x.ctx w.x.newer w.x.task)
  else extentsOf ((d.named w.g w.t w.x.mb).flatMap (fun x => (d.resolveTd w.x.ctx w.x.newer w.x.half w.x.slot x.2.2).runs))

/-- The tiles or element groups of an instance, none where it is not sliced (R82, R270, R284). -/
def Dev.instTiles (d : Dev) (w : Work) : Nat :=
  let groups (k : Nat) : Nat := match d.rawTd w k with | some t => t.groups | none => 0
  if w.t.op = opFmul ∨ w.t.op = opBmul then (d.prodShape w 0 1).tiles
  else if w.t.op = opConvert then groups 0
  else if w.t.op = opCombine then groups 1
  else if w.t.op = opVu then groups (d.kernel (w.t.aux % 65536)).shape
  else 0

/-- The rung at which a LADDER consumer runs: what its conversion recorded (R147). -/
def Dev.consumerRung (d : Dev) (g : GraphHdr) (run : StepRun) (task mb : Nat) : Nat :=
  let t := d.graphTask g task
  if t.op = opFmul && t.ladder then
    match (d.taskPreds g task).find? (fun p =>
        let q := d.graphTask g p
        q.op = opConvert && q.ladder && at' q.tds 1 0xFFFF = at' t.tds 0 0xFFFF) with
    | some p => ((run.rungs.find? (fun q => q.1 = p && q.2.1 = mb)).map (·.2.2)).getD 0
    | none => 0
  else 0

/-- The version slot that a micro-batch reads: the one it pinned, otherwise the current one (R173). -/
def Dev.readSlot (d : Dev) (c : Nat) (run : StepRun) (mb : Nat) : Nat :=
  ((run.pins.find? (fun p => p.1 = mb)).map (·.2)).getD ((d.ctx c).curSlot % 2)

/-- How an admission goes on after its checks. -/
inductive Adm where
  /-- refused, or ended with a status of a class (R282, R291) -/
  | ends (d : Dev) (st : Status) (cls : Nat)
  /-- waits at step 4 for the stash, a pool's frames or fetches -/
  | waits (d : Dev) (x : Inst)
  | takes (d : Dev) (x : Inst)
deriving DecidableEq, Repr

/-- Extents that are evicted are fetched (R240); none where evict_for fails. -/
def Dev.fetchAll (d : Dev) (x : Inst) (exts : List Nat) : Option Dev :=
  let r := d.fetchFor (.inst x) 1 exts
  if r.2 = .fail then none else some r.1

/-- Evicted pages are fetched: the reservation takes its frames first, and holds the LOCK of every record it names until it ends
(R208, R213, R216). -/
def Dev.fetchPages (d : Dev) (x : Inst) (ap : List (Nat × Nat)) (gs : List GatherBind) (pages : List (Nat × Nat)) : Dev × Inst :=
  let recs := kvRecords ap gs
  let r := d.pickFrames (d.kvNeeds x ap gs) []
  let d1 := recs.foldl (fun d a => d.setLock a true) r.1
  let d2 := pages.foldl (fun d p =>
    let hp := d.seqPool p.1
    d.deepAsk { id := 0, half := x.half, kind := 2, ctx := x.ctx, newer := x.newer, task := x.task, mb := x.mb, target := p.1 * 2 ^ 20 + p.2 }
      (d.deepFrameAddr hp.1 hp.2 (ptFrame (d.ptEntry (d.seqRec p.1).ptPtr p.2))) false []) d1
  (d2, { x with kvFrames := x.kvFrames ++ r.2, kvLocks := recs })

/-- When an instance began to wait for the stash; one that does not wait yet comes last. -/
def Inst.stashSince (x : Inst) (d : Dev) : Nat := if x.waitStash then x.since else d.nextOrder

/-- The stash reservation of step 4 (R246, R247): needed by the first FORWARD instance of a micro-batch in a stage. -/
def Dev.stageTake (d : Dev) (w : Work) : StashRes :=
  let x := w.x
  let need := d.stageDecl w.g w.t.stage
  if !w.t.forward || need = 0
    || d.resvs.any (fun r => r.ctx = x.ctx && r.newer = x.newer && r.mb = x.mb && r.stage = w.t.stage) then .ok d
  else d.reserveStash x.ctx x.newer x.half x.mb w.t.stage w.g.stashPolicy need
    (d.insts.any (fun i => i.state = 0 && i.waitStash && i.ctx = x.ctx && i.half = x.half && decide (i.since < x.stashSince d)))

/-- An instance as it waits at step 4 for one thing. -/
def Inst.waitFor (x : Inst) (fetches : List Nat) (stash : Bool) (pool lock : Option Nat) : Inst :=
  { x with fetches := fetches, waitStash := stash, waitPool := pool, waitLock := lock }

/-- Two waits of an instance are one: the second began with the first. -/
def Inst.sameWait (x y : Inst) : Bool :=
  x.fetches.isEmpty = y.fetches.isEmpty && x.waitStash = y.waitStash && x.waitPool.isSome = y.waitPool.isSome && x.waitLock = y.waitLock

/-- Another operation stands before an instance's reservation on a record: its LOCK is held by another, or one that waits came
earlier (R208). -/
def Dev.kvBusy (d : Dev) (x : Inst) (a : Nat) : Bool :=
  ((d.seqRec a).lock && !x.kvLocks.contains a) || (x.kvLocks.isEmpty && d.seqBehind a (if x.waitLock = some a then x.since else d.nextOrder))

/-- A KV fetch of an instance is outstanding. -/
def Dev.kvFetching (d : Dev) (x : Inst) : Bool := d.deep.any (fun q => q.kind = 2 && x.is q.ctx q.newer q.task q.mb)

/-- The KV part of step 4 (R213), with the stash met. -/
def Dev.reserveKv (d d0 : Dev) (w : Work) : Adm :=
  let x := w.x
  let ap := appendRows (d.appendBinds w.t)
  let gs := d.gatherBinds w.t
  if ap.isEmpty && gs.isEmpty then .takes d0 x
  else if d.kvFetching x then .waits d (x.waitFor [] false none none)
  else
    let p := d.kvProbe x (d.kvBusy x) ap gs
    match p.1 with
    | .refuse st => .ends p.2 st clsFixed
    | .locked a => .waits p.2 (x.waitFor [] false none (some a))
    | .frames k => .waits p.2 (x.waitFor [] false (some k) none)
    | .fetch pages =>
      let r := p.2.fetchPages x ap gs pages
      .waits r.1 (r.2.waitFor [] false none none)
    | .ok => match p.2.stageTake w with
      | .ok d2 =>
        let r := d2.kvTake x ap gs
        .takes (r.1.updStep x.ctx x.newer (fun s => { s with appended := (ap.map (·.1)).foldl insertNat s.appended }))
          { x with kv := r.2, kvFrames := [], kvLocks := [] }
      | _ => .waits p.2 (x.waitFor [] true none none)

/-- Admission step 4 (R282): extents first, then the stash, then KV frames; nothing is taken until all can be met. -/
def Dev.reserve (d : Dev) (w : Work) : Adm :=
  let x := w.x
  let away := (d.instExts w).filter (fun e => (d.extent e).evicted)
  if !away.isEmpty then
    match d.fetchAll x away with
    | none => .ends d St.hbmExhausted clsTask
    | some d1 => .waits d1 (x.waitFor away false none none)
  else
    match d.stageTake w with
    | .recompute => .ends d St.stashExhausted clsStash
    | .exhausted => .ends d St.stashExhausted clsFixed
    | .wait => .waits d (x.waitFor [] true none none)
    | .ok d0 => d.reserveKv d0 w

/-- An admitted instance's reads of the deep tier go out as requests (R242, R244). -/
def Dev.deepReads (d : Dev) (w : Work) : Dev :=
  let reads := ((d.named w.g w.t w.x.mb).filter (fun x => !x.2.1 || w.t.acc)).map (fun x => d.resolveTd w.x.ctx w.x.newer w.x.half w.x.slot x.2.2)
  ((reads.flatMap (·.runs)).filter (fun r => tierOf r.1 = 8 && r.1 < 2 ^ 52)).foldl (fun d r =>
    d.deepAsk { id := 0, half := w.x.half, kind := 0, ctx := w.x.ctx, newer := w.x.newer, task := w.x.task, mb := w.x.mb, target := r.1 }
      r.1 false []) d

/-- An instance is admitted: the pin of its micro-batch, its extents and windows, and the work that its operation begins
at once (R147, R173, R239, R285, R319). One that is not sliced is issued with its admission and late after its due bell
(R283). -/
def Dev.admitInst (d : Dev) (w : Work) (run : StepRun) (x : Inst) : Dev :=
  let c := x.ctx
  let pin := w.t.forward && !run.pins.any (fun p => p.1 = x.mb)
  let d1 := if pin then
      (d.updCtx c (fun y => { y with pins := setAt y.pins (x.slot % 2) (at' y.pins (x.slot % 2) 0 + 1) })).updStep c x.newer
        (fun r => { r with pins := r.pins ++ [(x.mb, x.slot)] })
    else d
  let exts := d1.instExts w
  let d2 := (exts.filter (fun e => d1.allocs.any (fun a => a.exts.contains e))).foldl
    (fun d e => d.setExtent e { d.extent e with last := d.bell }) d1
  let y : Inst := { x.waitFor [] false none none with state := 1, exts := exts, tiles := d1.instTiles w }
  let d3 : Dev := { d2 with insts := d2.insts.filter (fun (i : Inst) => !i.is c x.newer x.task x.mb) ++ [y] }
  let buf := match d1.rawTd w 0, d1.rawTd w 1 with
    | some a, some b => if w.lifted a && x.rung < 3 then [(b.tensorId, x.slot, x.rung)] else []
    | _, _ => []
  let d4 := d3.updStep c x.newer (fun r => { r with rungBufs := r.rungBufs ++ buf.filter (fun b => !r.rungBufs.contains b) })
  let wy := { w with x := y }
  let tds (f : Bool → Bool) : List TD :=
    ((d4.named w.g w.t x.mb).filter (fun z => f z.2.1)).map (fun z => d4.resolveTd c x.newer x.half x.slot z.2.2)
  let d5 := (d4.farRuns y (tds (fun out => !out || w.t.acc))).foldl (fun d r => d.copyIn y run.gen r.1 r.2) (d4.outWindows y run.gen (tds id))
  let late := decide (6 ≤ w.t.op) && decide (x.due < d.bell)
  let d6 := if late then (d5.deepReads wy).updCtx c (fun z => { z with late := sat32 (z.late + 1) }) else d5.deepReads wy
  if w.t.op = opHub then d6.refreshHubSource x.half y.src
  else d6.startColl y

/-- The instance that an admission takes in hand for the first time: its due bell (R267) and its place in the order in
which instances became eligible (R283). -/
def Dev.newInst (d : Dev) (ctx : Nat) (newer : Bool) (run : StepRun) (t : Task) (task mb : Nat) : Inst :=
  { ctx := ctx, newer := newer, task := task, mb := mb, op := t.op, src := t.aux % 4096, half := t.half % 2,
    due := run.startBell + t.dueOffset + (if t.scope = 1 then 0 else mb * t.mbSpacing)
    order := ((run.ready.find? (fun q => q.1 = task && q.2.1 = mb)).map (·.2.2)).getD d.nextOrder
    token := d.nextOrder % 2 ^ 24 }

/-- The work of an instance at its admission: the version slot it reads and the rung of its conversion. -/
def Dev.admWork (d : Dev) (g : GraphHdr) (run : StepRun) (x : Inst) : Work :=
  { x := { x with slot := d.readSlot x.ctx run x.mb, rung := d.consumerRung g run x.task x.mb }, g := g, t := d.graphTask g x.task,
    seed := run.seed.toNat, step := run.p.step }

/-- An admission ends with a status: the instance does not wait on, and the cause is declared. -/
def Dev.admStop (d : Dev) (x : Inst) (st : Status) (cls : Nat) : Dev :=
  let d1 := { d.kvUnlock x with insts := d.insts.filter (fun i => !i.is x.ctx x.newer x.task x.mb) }
  d1.cause x.ctx x.newer st cls (hubUnit x.half 1) x.task 0

/-- Step 4 of an admission: everything is reserved, or the instance waits or ends (R282). -/
def Dev.admReserve (d : Dev) (w : Work) (run : StepRun) : Dev :=
  match d.reserve w with
  | .ends d3 st cls => d3.admStop w.x st cls
  | .waits d3 y =>
    let z := if w.x.sameWait y && w.x.since ≠ 0 then y else { y with since := d3.nextOrder }
    { d3 with nextOrder := d3.nextOrder + 1, insts := d3.insts.filter (fun i => !i.is w.x.ctx w.x.newer w.x.task w.x.mb) ++ [{ z with state := 0 }] }
  | .takes d3 y => d3.admitInst w run y

/-- An instance is held before step 4: an update during the upkeep of a parity ring, and the order of an ACC tensor (R113,
R343). -/
def Dev.admHeld (d : Dev) (w : Work) (run : StepRun) : Bool :=
  (w.t.op = opUpdate && (d.ctx w.x.ctx).relief.upkeep) || d.accHeld w.g run w.x.task w.x.mb

/-- The pin that an update waits for: micro-batches still read the slot it will write (R173). -/
def Dev.admPinned (d : Dev) (w : Work) : Bool :=
  w.t.op = opUpdate && (at' (d.ctx w.x.ctx).pins (1 - (d.ctx w.x.ctx).curSlot % 2) 0 ≠ 0)

/-- The checks of an admission, once for an instance, then its holds, then step 4. -/
def Dev.admGo (d : Dev) (w : Work) (run : StepRun) (fresh : Bool) : Dev :=
  match (if fresh then d.checkFail w else none) with
  | some st => d.admStop w.x st clsFixed
  | none =>
    if d.admPinned w then d.updCtx w.x.ctx (fun y => { y with waitPin := true })
    else if d.admHeld w run then
      d.updCtx w.x.ctx (fun y => { y with relief := { y.relief with waits := y.relief.waits || (w.t.op = opUpdate && y.relief.upkeep) } })
    else (if w.t.op = opUpdate then d.updCtx w.x.ctx (fun y => { y with waitPin := false }) else d).admReserve w run

/-- The pools of the sequences that a task names. -/
def Dev.taskPools (d : Dev) (t : Task) : List (Nat × Nat) :=
  ((d.appendBinds t).map (·.seqRec) ++ (d.gatherBinds t).map (·.seqRec)).map d.seqPool

/-- A new instance takes its place in the order of admission, and its pools' configuration takes effect (R456). -/
def Dev.admOpen (d : Dev) (t : Task) : Dev :=
  let d0 := { d with nextOrder := d.nextOrder + 1 }
  (d0.taskPools t).foldl (fun d hp => d.cfgPool hp.1 hp.2) d0

/-- INSTANCE_ADMIT: an eligible instance, or one that waits at step 4, is checked, pinned, held and reserved (R282). -/
def instanceAdmitEff (ctx : Nat) (newer : Bool) (task mb : Nat) (d0 : Dev) : Dev :=
  let d := d0.noteReady ctx newer
  match d.attemptGraph ctx newer, (d.ctx ctx).step? newer with
  | some g, some run =>
    if !d.eligible ctx newer g run task mb || d.fw.paused || d.pwr.phase = 5 || d.pausedHalf ((d.graphTask g task).half % 2) then d
    else match d.inst? ctx newer task mb with
      | some x => d.admGo (d.admWork g run x) run false
      | none =>
        let t := d.graphTask g task
        (d.admOpen t).admGo (d.admWork g run (d.newInst ctx newer run t task mb)) run true
  | _, _ => d

/-- INSTANCE_ADMIT -/
def execInstanceAdmit (ctx : Nat) (newer : Bool) (task mb : Nat) (s : State) : Host.Outcome State Fault Refusal :=
  onDev (instanceAdmitEff ctx newer task mb) s

/-! ## Waits that end -/

/-- A waiting instance ends with a status: the frames it reserved are free again, and the fetches of its pages end. -/
def Dev.endWait (d : Dev) (x : Inst) (st : Status) (unit : Nat) : Dev :=
  let d0 := d.kvUnlock x
  let d1 := { d0 with
    insts := d0.insts.filter (fun i => !i.is x.ctx x.newer x.task x.mb)
    deep := d0.deep.filter (fun q => !(q.kind = 2 && x.is q.ctx q.newer q.task q.mb)) }
  d1.cause x.ctx x.newer st clsTask unit x.task 0

/-- The sequences to which an instance's task appends. -/
def Dev.appendsTo (d : Dev) (x : Inst) : List Nat :=
  match d.attemptGraph x.ctx x.newer with
  | some g => ((d.appendBinds (d.graphTask g x.task)).map (·.seqRec)).dedup
  | none => []

/-- PAGE_EXHAUSTED: a task that waits for frames passes its pool's deadline, and ends together with every other waiter
that appends to one of its sequences (R213, R214). -/
def pageExhaustedEff (ctx : Nat) (newer : Bool) (task mb : Nat) (d : Dev) : Dev :=
  match d.inst? ctx newer task mb with
  | some x =>
    if x.state ≠ 0 ∨ x.waitPool.isNone then d
    else
      let mine := d.appendsTo x
      let all := d.insts.filter (fun i => i.state = 0 && i.waitPool.isSome &&
        (i.is ctx newer task mb || (d.appendsTo i).any (fun a => mine.contains a)))
      all.foldl (fun d i => d.endWait i St.pageExhausted (hubUnit i.half 1)) d
  | none => d

/-- PAGE_EXHAUSTED -/
def execPageExhausted (ctx : Nat) (newer : Bool) (task mb : Nat) (s : State) : Host.Outcome State Fault Refusal :=
  onDev (pageExhaustedEff ctx newer task mb) s

/-- HBM_ADMIT_DEADLINE: an admission that waits for extents passes ADMIT_DEADLINE (R240). -/
def hbmAdmitDeadlineEff (ctx : Nat) (newer : Bool) (task mb : Nat) (d : Dev) : Dev :=
  match d.inst? ctx newer task mb with
  | some x => if x.state ≠ 0 ∨ x.fetches.isEmpty then d else d.endWait x St.hbmExhausted (hubUnit x.half 0xD)
  | none => d

/-- HBM_ADMIT_DEADLINE -/
def execHbmAdmitDeadline (ctx : Nat) (newer : Bool) (task mb : Nat) (s : State) : Host.Outcome State Fault Refusal :=
  onDev (hbmAdmitDeadlineEff ctx newer task mb) s

end Sys2Proof.Machine
end

