-- ==== Sys2Proof/Machine/Items.lean ====
section
/-! DEFINITION. The items of the stash: their due bells, the writes that make them, and their moves (chapter 09, R248 to R251). -/

namespace Sys2Proof.Machine

/-- A descriptor with hint STASH meets a run of a logical stash space. -/
def TD.inStash (t : TD) (base n : Nat) : Bool :=
  t.hint = 1 && decide (t.base % 2 ^ 30 < base + n) && decide (base < t.base % 2 ^ 30 + t.span)

/-- The due bell of an item: that of the first backward task of the graph that reads any of it (R248, R267). -/
def Dev.itemDue (d : Dev) (g : GraphHdr) (start mb : Nat) (td : TD) : Nat :=
  let l := ((List.range g.taskCount).map (d.graphTask g)).filter (fun t =>
    t.backward && ((d.named g t mb).filter (fun x => !x.2.1)).any (fun x => x.2.2.inStash (td.base % 2 ^ 30) td.span))
  (l.map (fun t => start + t.dueOffset + if t.scope = 1 then 0 else mb * t.mbSpacing)).min?.getD (2 ^ 48)

/-- Add an item a task writes: its blocks go where place() puts them at that moment, the last `excess` of them not into the stash
(R248, R250). -/
def Dev.addItem (d : Dev) (x : StashItem) (excess : Nat) : Dev :=
  let d1 := { d with items := d.items ++ [x] }
  let want := match (d1.stashPlan x.half x.ctx).find? (fun p => p.1 = x) with | some p => p.2 | none => 0
  { d with items := d.items ++ [{ x with inStash := min want (x.blocks - excess) }] }

/-- The items of a list, with the excess laid on the last blocks written. -/
def Dev.addItems (d : Dev) (excess : Nat) : List StashItem → Dev
  | [] => d
  | x :: r =>
    let later := (r.map (·.blocks)).sum
    (d.addItem x (min x.blocks (excess - later))).addItems (min excess later) r

/-- A task's first write: its stash items appear. Blocks beyond its declaration are counted and join the reservation of their
micro-batch; they go to the sump, and where its free blocks do not hold them the graph's policy acts: under SPILL the rest goes to
spill extents (R250, R251). The answer is none where nothing ends. -/
def Dev.stashWrite (d : Dev) (g : GraphHdr) (i : Inst) (t : Task) (start : Nat) (outs : List TD) : Dev × Option StashRes :=
  let outs := outs.filter (fun td => td.hint = 1)
  if outs.isEmpty then (d, none)
  else
    let total := (outs.map TD.stashBlocks).sum
    let excess := total - t.stashDecl
    let add (d : Dev) : Dev := d.addItems excess (outs.map (fun td =>
      { ctx := i.ctx, newer := i.newer, half := i.half, mb := i.mb, stage := t.stage, task := i.task,
        base := td.base % 2 ^ 30, bytes := td.span, blocks := td.stashBlocks, due := d.itemDue g start i.mb td, inStash := 0 }))
    if excess = 0 then (add d, none)
    else
      let count (d : Dev) : Dev :=
        let more (l : List Nat) : List Nat := setAt l i.half (at' l i.half 0 + excess * 65536)
        d.updCtx i.ctx (fun x => { x with spillBytes := more x.spillBytes })
      let join (d : Dev) : Dev := { d with resvs := d.resvs.map (fun r =>
        if r.ctx = i.ctx && r.newer = i.newer && r.half = i.half && r.mb = i.mb && r.stage = t.stage then
          { r with blocks := r.blocks + excess, excess := r.excess + excess } else r) }
      let free := d.sumpBlocks i.half i.ctx - d.sumpUsed i.half i.ctx
      if excess ≤ free then (join (count (add d)), none)
      else if g.stashPolicy = 0 then
        match d.spillExtents i.ctx i.newer i.half (excess - free) with
        | some d1 => (join (count (add d1)), none)
        | none => (d, some .exhausted)
      else (d, some (if g.stashPolicy = 1 then .recompute else .exhausted))

/-- An item is in use by a running task that reads or writes any of it: one with a slice on a core, or one that is not sliced and
has not completed. Its blocks do not move before a slice boundary (R248). -/
def Dev.itemBusy (d : Dev) (x : StashItem) : Bool :=
  let names (task mb : Nat) : Bool := match d.attemptGraph x.ctx x.newer with
    | some g => (d.named g (d.graphTask g task) mb).any (fun z => z.2.2.inStash x.base x.bytes)
    | none => false
  d.cores.any (fun p => p.2.act.any (fun s => match s with
    | some s => s.ctx = x.ctx && s.newer = x.newer && s.mb = x.mb && names s.task s.mb
    | none => false))
  || d.insts.any (fun i => i.ctx = x.ctx && i.newer = x.newer && i.mb = x.mb && decide (i.state ≠ 0) && decide (i.tiles = 0)
      && names i.task i.mb)

/-- The next queued move of a half completes: sump-bound moves first, then stash-bound, each in place() order
(R248). -/
def Dev.stashMove (d : Dev) (half : Nat) : Dev :=
  let plan := (List.range 8).flatMap (d.stashPlan half)
  let free := plan.filter (fun p => !d.itemBusy p.1)
  let set (x : StashItem) (n : Nat) : Dev :=
    { d with items := d.items.map (fun i => if i = x then { i with inStash := n } else i) }
  match free.find? (fun p => p.2 < p.1.inStash) with
  | some p => set p.1 (p.1.inStash - 1)
  | none =>
    match free.find? (fun p => p.1.inStash < p.2) with
    | some p => set p.1 (p.1.inStash + 1)
    | none => d

/-- A queued stash or sump block move completes (R248). -/
def stashMoveDoneEff (half : Nat) (d : Dev) : Dev := if d.halfOn half then d.stashMove half else d

/-- STASH_MOVE_DONE -/
def execStashMoveDone (half : Nat) (s : State) : Host.Outcome State Fault Refusal :=
  onDev (stashMoveDoneEff half) s

end Sys2Proof.Machine
end

