-- ==== Sys2Proof/Machine/Engines.lean ====
section
/-! DEFINITION. Slices on the cores' engines (R83, R92, R105, R121 to R126, R284, R494): issue, tiles and their replays,
foreign tiles, VU groups, and the ends of slices. -/

namespace Sys2Proof.Machine

/-! ## Issue (R283, R284, R494) -/

/-- The attempt of an instance runs. -/
def Dev.attemptRuns (d : Dev) (c : Nat) (newer : Bool) : Bool :=
  match (d.ctx c).step? newer with | some r => decide (r.state = 2) | none => false

/-- The stash blocks that a micro-batch holds in the stage of an instance's task (R283). -/
def Dev.stashHeld (d : Dev) (x : Inst) (stage : Nat) : Nat :=
  ((d.items.filter (fun i => i.ctx = x.ctx && i.newer = x.newer && i.mb = x.mb && i.stage = stage)).map (·.blocks)).sum

/-- An instance of a sliced operation has tiles or groups to issue. -/
def Dev.issuable (d : Dev) (x : Inst) : Bool :=
  x.state = 1 && 1 ≤ x.op && x.op ≤ 5 && x.issued < x.tiles && d.attemptRuns x.ctx x.newer && d.inputsReady x

/-- The order of issue: due bell, stash blocks held, eligibility, micro-batch, task (R283). -/
def Dev.issueBefore (d : Dev) (x y : Inst) : Bool :=
  let stage (i : Inst) : Nat := match d.attemptGraph i.ctx i.newer with | some g => (d.graphTask g i.task).stage | none => 0
  let hx := d.stashHeld x (stage x)
  let hy := d.stashHeld y (stage y)
  x.due < y.due || (x.due = y.due && (hy < hx || (hx = hy && (x.order < y.order || (x.order = y.order &&
    (x.mb < y.mb || (x.mb = y.mb && x.task < y.task)))))))

/-- Candidates in the order of issue: each with the device in which it is admitted. -/
def Dev.issueOrder (d : Dev) : List (Dev × Inst) → List (Dev × Inst)
  | [] => []
  | x :: r =>
    let rest := Dev.issueOrder d r
    rest.takeWhile (fun y => d.issueBefore y.2 x.2) ++ [x] ++ rest.dropWhile (fun y => d.issueBefore y.2 x.2)

/-- The engines of a core that run an instance: 0 the F-engine, 1 and 2 the B-engines, 3 the VU. -/
def enginesFor (w : Work) : List Nat := if w.onB then [1, 2] else if w.t.op = opFmul then [0] else [3]

/-- An engine's active or next slot is free. -/
def Core.takes (x : Core) (e : Nat) : Bool := (at' x.act e none).isNone || (at' x.nxt e none).isNone

/-- The tiles or groups of a slice: as many as fit 2 ms, at least one; whole rows of a kernel with PASS (R270, R284). -/
def Dev.sliceLen (d : Dev) (w : Work) : Nat :=
  if w.t.op = opFmul ∨ w.t.op = opBmul then max 1 (d.sliceClocks / d.tileClocks w)
  else
    let n := max 1 (2 * d.sliceClocks / max 1 (d.groupClocks2 w))
    let k := d.kernel (w.t.aux % 65536)
    if w.t.op = opVu && k.passes then
      match d.rawTd w k.shape with
      | some t => let row := max 1 (ceilDiv t.dim0 64); max 1 (n / row) * row
      | none => n
    else n

/-- The zero points of a task's INT8Z operands enter a core's channel table (R62). -/
def Dev.loadChans (d : Dev) (w : Work) (key : Nat) : Dev :=
  if w.t.op ≠ opFmul then d
  else
    let dv := d.withWindows w.x
    [0, 1].foldl (fun d k =>
      match dv.inTd w k with
      | some t =>
        if t.fmt ≠ 7 then d
        else (List.range (t.dim t.cdim)).foldl (fun (d : Dev) i =>
          { d with chan := d.chan.put 0 (key * 4096 + t.chan % 4096 + i) (dv.mem.read (xlate w.x.ctx w.x.mb (t.scaleBase + i))) }) d
      | none => d) d

/-- The zero point in a core's channel table for a channel of an operand. -/
def Dev.chanZero (d : Dev) (w : Work) (key k : Nat) : Nat → Int :=
  match d.rawTd w k with
  | some t => fun ch => signed (d.chan.get 0 (key * 4096 + t.chan % 4096 + ch)).toNat 8
  | none => fun _ => 0

/-- The slice of an instance that a core takes next; FMT and RANK are those of the rung at which it runs (R107, R147). -/
def Dev.sliceOf (d : Dev) (w : Work) : Slice :=
  let x := w.x
  let raw := match d.gatherFor w 0 with | some b => b.fmt | none => match d.rawTd w 0 with | some t => t.fmt | none => 0
  { ctx := x.ctx, newer := x.newer, task := x.task, mb := x.mb, op := x.op,
    fmt := (if w.t.op = opFmul && w.t.ladder then rungFmt x.rung else raw),
    lo := x.issued, hi := min x.tiles (x.issued + d.sliceLen w)
    rank := match d.factorsOf w with | some (u, _) => if w.onB then 0 else u.dim1 | none => 0
    rdim := (if w.t.rdimA then 1 else 0) + (if w.t.rdimB then 2 else 0), acc := w.t.acc, bound := decide (w.t.bindCount ≠ 0)
    stats := match d.scoreBind w with | some b => b.smode = 1 | none => false }

/-- Put a slice on an engine: in the active slot where that is free, otherwise in the next slot (R105). -/
def Core.put (x : Core) (e : Nat) (s : Slice) : Core :=
  if (at' x.act e none).isNone then { x with act := setAt x.act e (some s) } else { x with nxt := setAt x.nxt e (some s) }

/-- A core takes slices: it serves a slot of a powered compute die, and is neither held, in a canary nor being freed for
one (R372, R494). -/
def Dev.coreIssues (d : Dev) (die cluster core : Nat) : Bool :=
  decide (die < 16) && decide (cluster < 4) && d.dieOn die && !d.pausedHalf (dieHalf die) && (d.slotOf die cluster core).isSome && !d.coreOut die cluster core
  && !(d.core (coreKey die cluster core)).canary
  && !d.health.canaries.any (fun q => unitDie q.unit = die && unitCluster q.unit = cluster && unitCore q.unit = core && q.state = 2)

/-- An instance names core SRAM of a parked slot of a cluster (R372). -/
def Dev.namesParked (d : Dev) (w : Work) : Bool :=
  d.health.parked.any (fun p => match p with
    | some (ck, slot) =>
      let lo := slotSram (ck / 4) (ck % 4) slot
      (d.named w.g w.t w.x.mb).any (fun z => decide (lo ≤ z.2.2.base) && decide (z.2.2.base < lo + 2 ^ 22))
    | none => false)

/-- A ladder conversion fixes its rung before it writes (R146, R148). -/
def Dev.fixRung (d : Dev) (w : Work) (run : StepRun) : Nat :=
  if w.t.op = opConvert && w.t.ladder then
    match (d.withWindows w.x).inTd w 0, d.outTd w 1 with
    | some s, some y => (d.withWindows w.x).ladderRung w s y run
    | _, _ => w.x.rung
  else w.x.rung

/-- The bytes of n rows of a sequence's pool, in 64-byte units (R203). -/
def Dev.rowUnits (d : Dev) (a n : Nat) : Nat :=
  let hp := d.seqPool a
  ceilDiv (n * (d.frameBytes hp.1 hp.2 / 32)) 64

/-- The attention engine of a slice's cluster counts the entries it resolves and what it gathers and scatters for the slice: the
gather bindings with each slice, the append bindings with the first of the task (R231; log entry 60). -/
def Dev.atnCount (d : Dev) (w : Work) (die cluster : Nat) (first : Bool) : Dev :=
  let gs := d.gatherBinds w.t
  let ap := if first then w.x.kv.filter (fun s => s.rows ≠ 0) else []
  let bytes := (gs.map (fun g => d.rowUnits g.seqRec g.keyCount)).sum + (ap.map (fun s => d.rowUnits s.seqRec (2 * s.rows))).sum
  let walks := (gs.map (fun g => g.pages.length)).sum + (ap.map (fun s => (pagesOf s.l s.rows).length)).sum
  let o := coreBlock cluster 15 7
  if bytes + walks = 0 then d else (d.rcAdd die (o + 4) bytes).rcAdd die (o + 8) walks

/-- The sliced instances of a half that are not admitted and can be: each with the device as its admission leaves it (R283). -/
def Dev.admittable (d : Dev) (half : Nat) : List (Dev × Inst) :=
  (List.range 8).flatMap (fun c => [false, true].flatMap (fun newer =>
    match d.attemptGraph c newer, (d.ctx c).step? newer with
    | some g, some run =>
      (List.range g.taskCount).flatMap (fun t =>
        let k := d.graphTask g t
        if k.half % 2 ≠ half ∨ k.op = 0 ∨ 5 < k.op then []
        else (List.range (if k.scope = 1 then 1 else run.p.mbCount)).filterMap (fun m =>
          if !d.eligible c newer g run t m then none
          else
            let e := instanceAdmitEff c newer t m d
            match e.inst? c newer t m with
            | some x => if x.state = 1 then some (e, x) else none
            | none => none))
    | _, _ => []))

/-- SLICE_ISSUE: a core takes a slice of the first instance in the order of issue, among those admitted and those that can be, which
it can run; one that is not admitted is admitted with it (R283, R284). -/
def sliceIssueEff (die cluster core : Nat) (d0 : Dev) : Dev :=
  if !d0.coreIssues die cluster core then d0
  else
    let key := coreKey die cluster core
    let x := d0.core key
    let all := (d0.insts.map (fun i => (d0, i))) ++ d0.admittable (dieHalf die)
    let cands := (d0.issueOrder (all.filter (fun q => q.1.issuable q.2 && q.2.half = dieHalf die))).filterMap
      (fun q => (q.1.work q.2).map (fun w => (q.1, w)))
    match cands.find? (fun q => (enginesFor q.2).any (fun e => x.takes e) && !q.1.namesParked q.2) with
    | none => d0
    | some (d, w) =>
      let es := (enginesFor w).filter (fun e => x.takes e)
      let e := at' es (d.pick es.length) 0
      let s := d.sliceOf w
      let first := w.x.issued = 0
      let late := first && decide (w.x.due < d.bell)
      let rung := match (d.ctx w.x.ctx).step? w.x.newer with | some r => if first then d.fixRung w r else w.x.rung | none => w.x.rung
      let d1 := (d.drawn.setCore key (x.put e s)).updInst w.x (fun i => { i with issued := s.hi, late := i.late || late, rung := rung })
      let d2 := if late then d1.updCtx w.x.ctx (fun c => { c with late := sat32 (c.late + 1) }) else d1
      (if (at' x.act e none).isNone then d2.loadChans w key else d2).atnCount w die cluster first

/-- SLICE_ISSUE -/
def execSliceIssue (die cluster core : Nat) (s : State) : Host.Outcome State Fault Refusal := onDev (sliceIssueEff die cluster core) s

/-! ## Slices on an engine -/

/-- The active slice of an engine. -/
def Dev.actSlice (d : Dev) (key e : Nat) : Option Slice := at' (d.core key).act e none
/-- Replace the active slice of an engine. -/
def Dev.setAct (d : Dev) (key e : Nat) (s : Option Slice) : Dev :=
  d.setCore key { d.core key with act := setAt (d.core key).act e s }
/-- Change the active slice of an engine. -/
def Dev.updAct (d : Dev) (key e : Nat) (f : Slice → Slice) : Dev :=
  match d.actSlice key e with | some s => d.setAct key e (some (f s)) | none => d

/-- The instance of a slice. -/
def Dev.sliceInst (d : Dev) (s : Slice) : Option Inst := d.inst? s.ctx s.newer s.task s.mb
/-- The work of a slice. -/
def Dev.sliceWork (d : Dev) (s : Slice) : Option Work := (d.sliceInst s).bind d.work

/-- The next slice becomes active (R105). -/
def Dev.nextSlice (d : Dev) (key e : Nat) : Dev :=
  let x := d.core key
  let d1 := d.setCore key { x with act := setAt x.act e (at' x.nxt e none), nxt := setAt x.nxt e none }
  match (d1.actSlice key e).bind d1.sliceWork with
  | some w => d1.loadChans w key
  | none => d1

/-- Foreign tiles of a requester leave every queue and array of its core. -/
def Core.noForeign (x : Core) (e : Nat) : Core :=
  { x with fq := x.fq.map (fun q => q.filter (fun t => t.requester ≠ e + 1))
           arr := x.arr.map (fun q => q.filter (fun t => t.requester ≠ e + 1)) }

/-- A slice leaves its engine before it ends: its attempt was abandoned, or its retry failed. -/
def Dev.dropSlice (d : Dev) (key e : Nat) : Dev := (d.setCore key ((d.core key).noForeign e)).nextSlice key e

/-- The next tile of a slice that no attempt has taken. -/
def Slice.nextTile (s : Slice) : Option Nat :=
  (List.range (s.hi - s.lo)).map (s.lo + ·) |>.find? (fun t =>
    !s.drained.contains t && !s.failed.any (fun f => f.1 = t) && !s.foreign.any (fun f => f.1 = t))

/-- Every tile of a slice has been written (R94). -/
def Slice.allWritten (s : Slice) : Bool := (List.range (s.hi - s.lo)).all (fun i => s.drained.contains (s.lo + i))

/-! ## Writing a tile or group -/

/-- An instance's first write: its stash items appear (R246, R250, R251). The answer says whether the task goes on. -/
def Dev.firstWrite (d : Dev) (w : Work) : Dev × Bool :=
  if w.x.written ≠ 0 ∨ w.x.started then (d, true)
  else
    let start := match (d.ctx w.x.ctx).step? w.x.newer with | some r => r.startBell | none => 0
    let outs := ((d.named w.g w.t w.x.mb).filter (fun z => z.2.1)).map (fun z => z.2.2)
    let r := d.stashWrite w.g w.x w.t start outs
    let d1 := r.1.updInst w.x (fun i => { i with started := true })
    match r.2 with
    | some .recompute => (d1.cause w.x.ctx w.x.newer St.stashExhausted clsStash (hubUnit w.x.half 7) w.x.task 0, false)
    | some .exhausted => (d1.cause w.x.ctx w.x.newer St.stashExhausted clsFixed (hubUnit w.x.half 7) w.x.task 0, false)
    | _ => (d1, true)

/-- A tile or group that passed is written: its pieces, its count, and the first poisoned line that its operands carried (R76,
R91, R254). -/
def Dev.writeOut (d : Dev) (w : Work) (unit tile : Nat) (ps : List Piece) (line : Option Nat) : Dev :=
  let r := d.firstWrite w
  if !r.2 then r.1
  else
    let d1 := (r.1.writePieces w tile ps).updInst w.x (fun i => { i with written := i.written + 1 })
    match line with
    | some l => d1.consumePoison w.x.ctx w.x.newer unit w.x.task l
    | none => d1

/-- One attempt at a tile as the engine judges it: what the tile's operands carry of poison, and whether the engine's part and
the lane's part pass (R90, R91, R101, R121, R125, R361). -/
structure TileEnd where
  w : Work
  run : TileRun
  poison : Option Nat × Bool
  part : Bool
  lane : Bool
deriving DecidableEq, Repr

/-- Both parts of an attempt pass. -/
def TileEnd.passes (q : TileEnd) : Bool := q.part && q.lane

/-- An attempt at a tile of an engine's active slice; a tile that reads poison is written without a check (R91). -/
def Dev.tileEnd (d : Dev) (key e tile : Nat) (f : TileFault) : Option TileEnd :=
  ((at' (d.core key).act e none).bind (fun s => (d.inst? s.ctx s.newer s.task s.mb).bind d.work)).map (fun w =>
    let dv := d.withWindows w.x
    let zA := d.chanZero w key 0
    let zB := d.chanZero w key 1
    let r := dv.tileRun w zA zB tile f
    let p := dv.tilePoison w tile
    { w := w, run := r, poison := p
      part := p.2 || (!(f.drain && !w.t.partial?) && dv.rowOk w zA zB tile f r && dv.accOk w tile f r)
      lane := p.2 || dv.laneOk w tile f r })

/-- A product tile that passed is written. -/
def Dev.writeTile (d : Dev) (q : TileEnd) (unit tile : Nat) (f : TileFault) : Dev :=
  let dv := d.withWindows q.w.x
  d.writeOut q.w unit tile ((dv.tilePieces q.w tile f q.run).map (fun p => { p with poison := q.poison.2 })) q.poison.1

/-- The descriptors that a group reads, whether it reads whole rows, and where it lies. -/
def Dev.groupSources (d : Dev) (w : Work) (g : Nat) : List Nat × Bool × Pos × Nat :=
  let src (i : Nat) : Pos × Nat := match d.rawTd w i with | some t => t.group g | none => (⟨0, 0, 0, 0⟩, 0)
  if w.t.op = opVu then
    let k := d.kernel (w.t.aux % 65536)
    (k.loads, k.passes, src k.shape)
  else if w.t.op = opCombine then ([0], false, src 1)
  else ([0], false, src 0)

/-- The poison that block c of a group reads (R76): the first line that ends the task, and whether there is any. -/
def Dev.blockPoison (d : Dev) (w : Work) (g c : Nat) : Option Nat × Bool :=
  let q := d.groupSources w g
  let p : Pos := { q.2.2.1 with d0 := q.2.2.1.d0 + 32 * c }
  let n := min 32 (q.2.2.2 - 32 * c)
  if w.t.op = opCombine then
    match d.inTd w 0 with
    | some b =>
      let l := (List.range b.dim2).findSome? (fun k => (List.range (2 * n)).findSome? (fun i =>
        d.elemPoison w.x.ctx w.x.mb b ⟨2 * p.d0 + i, p.d1, k, 0⟩))
      (if b.poisonOk then none else l, l.isSome)
    | none => (none, false)
  else d.groupPoison w q.1 q.2.1 p n

/-- A group of a VU, CONVERT or COMBINE task that passed is written, block by block poisoned where its sources are. A repeated
ladder conversion reports nothing (R148); a group's position word carries its lane (R277). -/
def Dev.writeGroup (d : Dev) (w : Work) (unit g : Nat) : Dev :=
  let dv := d.withWindows w.x
  let quiet (ps : List Piece) : List Piece :=
    if w.t.op = opConvert && w.t.ladder && w.t.recompute then
      ps.map (fun p => { p with t := { p.t with tracker := 0xFFFFFFFF }, out := { p.out with nf := none } })
    else ps
  let ps := if w.t.op = opVu then dv.vuPieces w g else if w.t.op = opCombine then dv.combinePieces w g else quiet (dv.convertPieces w g)
  let bad := [0, 1].map (dv.blockPoison w g)
  let d1 := d.writeOut w unit g (ps.map (fun p => { p with poison := (at' bad p.row (none, false)).2 })) (bad.findSome? (·.1))
  if w.t.op = opVu then d1.drawn else d1

/-! ## Failures (R36, R92, R122, R361) -/

/-- The unit of an engine of a core. -/
def engUnit (die cluster core e : Nat) : Nat := coreUnit die cluster core (e + 1)

/-- A check failure that a unit's attempt had: its record, its counter and its entry in the unit's history (R92, R107, R123,
R127, R366). -/
def Dev.unitFailed (d : Dev) (die : Nat) (reg? : Option Nat) (unit ctx : Nat) : Dev :=
  let d1 := d.checkRecord unit (some ctx) 0
  (match reg? with | some o => d1.rcAdd die o 1 | none => d1).enterEvent unit unit 2

/-- The unit whose mark an attempt that failed meets: the engine, or the lane where only its part failed (R92, R101). -/
def failUnit (die cluster core e : Nat) (part : Bool) : Nat := if part then coreUnit die cluster core 6 else engUnit die cluster core e

/-- The failures of an attempt on engine e: the lane's part and the engine's part. -/
def Dev.failCount (d : Dev) (die cluster core e : Nat) (part lane : Bool) (ctx : Nat) : Dev :=
  let d1 := if lane then d else d.unitFailed die (some (coreBlock cluster core 6 + 4)) (coreUnit die cluster core 6) ctx
  if part then d1 else d1.unitFailed die (if e < 3 then some (coreBlock cluster core (e + 1) + 8) else none) (engUnit die cluster core e) ctx

/-- The cluster level (R36): the slot and the slices of a failed core go to the cluster's spare at once. -/
def Dev.handSlices (d : Dev) (die cluster core spare slot : Nat) : Dev :=
  let x := d.core (coreKey die cluster core)
  let y := d.core (coreKey die cluster spare)
  let d1 := ((d.setCore (coreKey die cluster spare) { y with act := x.act, nxt := x.nxt, fq := x.fq, arr := x.arr }).setCore
    (coreKey die cluster core) { x with act := [none, none, none, none], nxt := [none, none, none, none], fq := [[], []], arr := [none, none] }).moveSlot
    die cluster slot spare
  match (d1.actSlice (coreKey die cluster spare) 0).bind d1.sliceWork with
  | some w => d1.loadChans w (coreKey die cluster spare)
  | none => d1

/-- The core level (R36): the slice is retried once on the same core, running the tiles that were not written. A second time
the core becomes suspect and the slice goes to the cluster's spare; where none is fit, the attempt is abandoned (R291, log
entry 58). -/
def Dev.coreLevel (d : Dev) (die cluster core e : Nat) : Dev :=
  let key := coreKey die cluster core
  let again (r : Bool) (s : Slice) : Slice := { s with retried := r, failed := [], foreign := [], refold := false }
  match d.actSlice key e with
  | none => d
  | some s =>
    if s.retried then
      let d1 := d.markSuspect (coreUnit die cluster core 0)
      match d1.goodSpare die cluster, d1.slotOf die cluster core with
      | some sp, some slot => ((d1.setCore key ((d1.core key).noForeign e)).updAct key e (again false)).handSlices die cluster core sp slot
      | _, _ => (d1.dropSlice key e).escalate s.ctx s.newer die cluster core s.task
    else (d.setCore key ((d.core key).noForeign e)).updAct key e (again true)

/-- A mismatch of the cluster's attention engine while a slice with bindings is fed: its record and counter, and the walk or
fold again; the second in one task marks it suspect and retries the slice (R228). -/
def Dev.walkFailed (d : Dev) (die cluster core e : Nat) (s : Slice) : Dev :=
  let u := coreUnit die cluster 15 7
  let d1 := (d.unitFailed die (some (coreBlock cluster 15 7 + 0xC)) u s.ctx).updInsts (fun i => i.is s.ctx s.newer s.task s.mb)
    (fun i => { i with atnFails := i.atnFails + 1 })
  match d.sliceInst s with
  | some x =>
    if x.atnFails = 0 then d1.updAct (coreKey die cluster core) e (fun s => { s with refold := true })
    else (d1.markSuspect u).coreLevel die cluster core e
  | none => d1

/-- Tiles of the core's engines that wait for a host are offered to it, while its queue has room (R123). -/
def Dev.offer (d : Dev) (key host : Nat) : Dev :=
  [0, 1, 2].foldl (fun d e =>
    match d.actSlice key e with
    | none => d
    | some s => s.foreign.foldl (fun d f =>
        let x := d.core key
        let q := at' x.fq (host - 1) []
        if f.2 = host && q.length < 4 && !q.any (fun t => t.requester = e + 1 && t.tile = f.1)
            && at' x.arr (host - 1) none ≠ some { requester := e + 1, tile := f.1 } then
          d.setCore key { x with fq := setAt x.fq (host - 1) (q ++ [{ requester := e + 1, tile := f.1 }]) }
        else d) d) d

/-- The oldest foreign tile of a host enters its array where that is free. -/
def Dev.intoArray (d : Dev) (key host : Nat) : Dev :=
  let x := d.core key
  match at' x.arr (host - 1) none, at' x.fq (host - 1) [] with
  | none, t :: r => d.setCore key { x with arr := setAt x.arr (host - 1) (some t), fq := setAt x.fq (host - 1) r }
  | _, _ => d

/-- A tile boundary of an engine: a B-engine takes its oldest foreign tile, and the tiles that found its queue full are
offered again (R123). -/
def Dev.boundary (d : Dev) (key e : Nat) : Dev :=
  if e = 1 ∨ e = 2 then ((d.intoArray key e).offer key e).intoArray key e else d

/-- No own tile is in an engine's array. -/
def Dev.rests (d : Dev) (key e : Nat) : Bool :=
  match d.actSlice key e with
  | none => true
  | some s => s.nextTile.isNone && s.failed.isEmpty

/-- Attempt 3: the tile goes to a B-engine of the same core that is not suspect; without one the core level acts (R92,
R101, R122). -/
def Dev.goForeign (d : Dev) (die cluster core e tile : Nat) : Dev :=
  let key := coreKey die cluster core
  let hosts := (if e = 0 then [1, 2] else [3 - e]).filter (fun h => !d.isSuspect (engUnit die cluster core h))
  match hosts with
  | [] => d.coreLevel die cluster core e
  | h :: _ =>
    let d1 := d.updAct key e (fun s => { s with failed := s.failed.filter (fun f => f.1 ≠ tile), foreign := s.foreign ++ [(tile, h)] })
    let d2 := (d1.rcAddHi die (coreBlock cluster core (e + 1) + 0x0C) 1).offer key h
    if d2.rests key h then d2.intoArray key h else d2

/-- Attempt 1 fails: attempt 2 follows, or attempt 3 at once where the unit is suspect. -/
def Dev.failFirst (d : Dev) (die cluster core e tile : Nat) (q : TileEnd) : Dev :=
  let d1 := d.failCount die cluster core e q.part q.lane q.w.x.ctx
  if d1.isSuspect (failUnit die cluster core e q.part) then d1.goForeign die cluster core e tile
  else (d1.updAct (coreKey die cluster core) e (fun s => { s with failed := s.failed ++ [(tile, e)] })).rcAddLo die
    (coreBlock cluster core (e + 1) + 0x0C) 1

/-- A slice of an attempt that no longer runs stops at a tile boundary (R140, R291). -/
def Dev.stopDrained (d : Dev) (key e : Nat) : Dev :=
  match d.actSlice key e with
  | some s => if d.attemptRuns s.ctx s.newer then d else d.dropSlice key e
  | none => d

/-- A tile of an engine's active slice passes: it is written and counted (R92, R107, R127). -/
def Dev.passTile (d : Dev) (die cluster core e unit tile : Nat) (f : TileFault) (q : TileEnd) : Dev :=
  let key := coreKey die cluster core
  (((d.writeTile q unit tile f).updAct key e (fun s => { s with
      drained := s.drained ++ [tile], failed := s.failed.filter (fun f => f.1 ≠ tile), foreign := s.foreign.filter (fun f => f.1 ≠ tile) })).rcAdd
    die (coreBlock cluster core (e + 1) + 4) 1).stopDrained key e

/-- An attempt at a tile of engine e's active slice ends: a mismatch of the attention engine leaves the tile where it is, and
otherwise `k` takes the judged attempt. -/
def Dev.attemptTile (d : Dev) (die cluster core e tile : Nat) (f : TileFault) (k : Dev → TileEnd → Dev) : Dev :=
  let key := coreKey die cluster core
  match d.actSlice key e with
  | none => d
  | some s =>
    if f.walk && s.bound then (d.walkFailed die cluster core e s).stopDrained key e
    else match d.tileEnd key e tile f with
      | none => d
      | some q => k (if s.refold then d.updAct key e (fun s => { s with refold := false }) else d) q

/-- The next tile of an engine's active slice ends attempt 1. -/
def Dev.drainTile (d : Dev) (die cluster core e tile : Nat) (f : TileFault) : Dev :=
  let key := coreKey die cluster core
  match d.actSlice key e with
  | none => d
  | some s =>
    if s.nextTile ≠ some tile ∨ !d.dieOn die then d
    else (d.attemptTile die cluster core e tile f (fun d q =>
      if q.passes then d.passTile die cluster core e (engUnit die cluster core e) tile f q
      else (d.failFirst die cluster core e tile q).stopDrained key e)).boundary key e

/-- F_TILE_DRAIN: an F tile ends, is checked and, when it passes, written (R84 to R102). -/
def fTileDrainEff (die cluster core tile : Nat) (f : TileFault) (d : Dev) : Dev := d.drainTile die cluster core 0 tile f

/-- F_TILE_DRAIN -/
def execFTileDrain (die cluster core tile : Nat) (f : TileFault) (s : State) : Host.Outcome State Fault Refusal :=
  onDev (fTileDrainEff die cluster core tile f) s

/-- A B-engine's array holds an own tile: no foreign tile is in it. -/
def Dev.ownArray (d : Dev) (key e : Nat) : Bool := e = 0 || (at' (d.core key).arr (e - 1) none).isNone

/-- B_TILE_DRAIN: a tile of a B-engine's own task ends; a foreign tile in the array or a tile that awaits attempt 2 comes
before it (R110, R121, R123). -/
def bTileDrainEff (die cluster core eng tile : Nat) (f : TileFault) (d : Dev) : Dev :=
  let key := coreKey die cluster core
  let waits := match d.actSlice key (eng + 1) with | some s => !s.failed.isEmpty | none => false
  if 1 < eng || !d.ownArray key (eng + 1) || waits then d else d.drainTile die cluster core (eng + 1) tile f

/-- B_TILE_DRAIN -/
def execBTileDrain (die cluster core eng tile : Nat) (f : TileFault) (s : State) : Host.Outcome State Fault Refusal :=
  onDev (bTileDrainEff die cluster core eng tile f) s

/-- Attempt 2 of a failed tile on its own engine; a failure marks the unit suspect and attempt 3 follows (R92, R101, R122). -/
def Dev.replayTile (d : Dev) (die cluster core e tile : Nat) (f : TileFault) : Dev :=
  let key := coreKey die cluster core
  (d.attemptTile die cluster core e tile f (fun d q =>
    if q.passes then d.passTile die cluster core e (engUnit die cluster core e) tile f q
    else (((d.failCount die cluster core e q.part q.lane q.w.x.ctx).markSuspect (failUnit die cluster core e q.part)).goForeign
      die cluster core e tile).stopDrained key e)).boundary key e

/-- TILE_REPLAY: attempt 2 of a failed tile, on the engine of the core that ran attempt 1. -/
def tileReplayEff (die cluster core tile : Nat) (f : TileFault) (d : Dev) : Dev :=
  let key := coreKey die cluster core
  let has (e : Nat) : Bool := match d.actSlice key e with
    | some s => s.failed.any (fun f => f.1 = tile) && d.ownArray key e
    | none => false
  match [0, 1, 2].find? has with
  | none => d
  | some e => if d.dieOn die then d.replayTile die cluster core e tile f else d

/-- TILE_REPLAY -/
def execTileReplay (die cluster core tile : Nat) (f : TileFault) (s : State) : Host.Outcome State Fault Refusal :=
  onDev (tileReplayEff die cluster core tile f) s

/-- A foreign tile ends on its host: it is written for its requester, or the failure is the host's and the requester's core
level acts (R93, R101, R123). -/
def Dev.foreignTile (d : Dev) (die cluster core eng : Nat) (t : ForeignTile) (f : TileFault) : Dev :=
  let key := coreKey die cluster core
  let e := t.requester - 1
  let off := coreBlock cluster core (eng + 2) + 0x18
  let x := d.core key
  let d0 := d.setCore key { x with arr := setAt x.arr eng none }
  match d0.actSlice key e with
  | none => d0.boundary key (eng + 1)
  | some s =>
    if f.walk && s.bound then (d.walkFailed die cluster core e s).stopDrained key e
    else
      (d0.attemptTile die cluster core e t.tile f (fun d q =>
        let d1 := if e = 0 then d.rcAddLo die off 1 else d.rcAddHi die off 1
        if q.passes then d1.passTile die cluster core e (engUnit die cluster core (eng + 1)) t.tile f q
        else ((d1.failCount die cluster core (eng + 1) false true q.w.x.ctx).coreLevel die cluster core e).stopDrained key e)).boundary
        key (eng + 1)

/-- FOREIGN_TILE_RUN: a host B-engine runs the foreign tile in its array. -/
def foreignTileRunEff (die cluster core eng : Nat) (f : TileFault) (d : Dev) : Dev :=
  let key := coreKey die cluster core
  if 1 < eng || !d.dieOn die then d
  else
    let d0 := if d.rests key (eng + 1) then d.intoArray key (eng + 1) else d
    match at' (d0.core key).arr eng none with
    | none => d0
    | some t => d0.foreignTile die cluster core eng t f

/-- FOREIGN_TILE_RUN -/
def execForeignTileRun (die cluster core eng : Nat) (f : TileFault) (s : State) : Host.Outcome State Fault Refusal :=
  onDev (foreignTileRunEff die cluster core eng f) s

/-- VU_GROUP_DONE: the next element group of the VU's slice ends. A mismatch replays the group; the second in one slice marks
the VU suspect and retries the slice at the core level (R277, R361). -/
def vuGroupDoneEff (die cluster core group fail : Nat) (d : Dev) : Dev :=
  let key := coreKey die cluster core
  match d.actSlice key 3 with
  | none => d
  | some s =>
    let todo := (List.range (s.hi - s.lo)).map (s.lo + ·) |>.find? (fun g => !s.drained.contains g)
    if todo ≠ some group ∨ 4 < fail ∨ fail = 2 ∨ !d.dieOn die then d
    else if fail = 4 then (if s.bound then (d.walkFailed die cluster core 3 s).stopDrained key 3 else d)
    else
      let u := engUnit die cluster core 3
      if fail = 0 then
        match d.sliceWork s with
        | none => d
        | some w => ((d.writeGroup w u group).updAct key 3 (fun s => { s with drained := s.drained ++ [group], refold := false })).stopDrained key 3
      else
        let d1 := d.failCount die cluster core 3 false true s.ctx
        if s.failed.isEmpty then (d1.updAct key 3 (fun s => { s with failed := [(group, 3)] })).stopDrained key 3
        else ((d1.markSuspect u).coreLevel die cluster core 3).stopDrained key 3

/-- VU_GROUP_DONE -/
def execVuGroupDone (die cluster core group fail : Nat) (s : State) : Host.Outcome State Fault Refusal :=
  onDev (vuGroupDoneEff die cluster core group fail) s

/-- SLICE_COMPLETE: an engine whose active slice has every tile written takes its next slice; the task's position word is
held in the engine where the task ends (R94, R96, R107, R127; log entry 67). -/
def sliceCompleteEff (die cluster core : Nat) (d : Dev) : Dev :=
  let key := coreKey die cluster core
  let ready (e : Nat) : Bool := match d.actSlice key e with | some s => s.allWritten | none => false
  match [0, 1, 2, 3].find? ready with
  | none => d
  | some e =>
    match (d.actSlice key e).bind d.sliceInst with
    | none => (d.nextSlice key e).leaveHeld die cluster core
    | some x =>
      let last := x.written = x.tiles && x.issued = x.tiles
      let d1 := if last then d.updInst x (fun i => { i with state := 2 }) else d
      let d2 := if last && x.nfPos ≠ 0 then d1.setCore key { d1.core key with nfPos := setAt (d1.core key).nfPos e x.nfPos } else d1
      (d2.nextSlice key e).leaveHeld die cluster core

/-- SLICE_COMPLETE -/
def execSliceComplete (die cluster core : Nat) (s : State) : Host.Outcome State Fault Refusal :=
  onDev (sliceCompleteEff die cluster core) s

end Sys2Proof.Machine
end

