-- ==== Sys2Proof/Machine/Complete.lean ====
section
/-! DEFINITION. The ends of instances and attempts: ladder conversions, copies, collectives, completion, drained attempts and
the step timeout (R140, R146 to R149, R249, R265, R290, R293, R330, R495). -/

namespace Sys2Proof.Machine

/-- FB_BUDGET of a context (R154). -/
def Dev.fbBudget (d : Dev) (c : Nat) : Nat := d.committed 16 (0x02100000 + c * 32) % 256

/-- The LADDER consumers of a conversion. -/
def Dev.ladderReaders (d : Dev) (w : Work) : Nat :=
  ((d.taskSuccs w.g w.t).filter (fun i =>
    let t := d.graphTask w.g i
    t.op = opFmul && t.ladder && !t.recompute && at' t.tds 0 0xFFFF = at' w.t.tds 1 0xFFFF)).length

/-- LADDER_CONVERT_DONE: a ladder conversion that has written everything records its rung; consumers above their start rung
count against the budget, which is tested (R146, R148, R149). -/
def ladderConvertDoneEff (ctx : Nat) (newer : Bool) (task mb : Nat) (d : Dev) : Dev :=
  match (d.inst? ctx newer task mb).bind d.work with
  | none => d
  | some w =>
    let run? := (d.ctx ctx).step? newer
    let known := match run? with | some r => r.rungs.any (fun q => q.1 = task && q.2.1 = mb) | none => true
    if w.x.state ≠ 2 || w.t.op ≠ opConvert || !w.t.ladder || known then d
    else
      let d1 := d.updStep ctx newer (fun r => { r with rungs := r.rungs ++ [(task, mb, w.x.rung)] })
      let start := match d.rawTd w 1 with | some y => startRung y.fmt | none => 3
      let n := if w.t.recompute || w.x.rung ≤ start then 0 else d.ladderReaders w
      let d2 := d1.updCtx ctx (fun x => { x with fbCount := x.fbCount + n })
      let x := d2.ctx ctx
      if d2.fbBudget ctx * x.ladderTotal < x.fbCount * 256 && !x.fbOver then
        let slot := match (d.rawTd w 1).bind (fun y => y.slot? w.x.half) with | some k => k | none => slotKey w.x.half 0xFFF
        (d2.updCtx ctx (fun x => { x with fbOver := true, missWord := if x.miss then x.missWord else missWordOf slot 5 })).cause ctx newer St.fallbackBudget clsScreen (hubUnit w.x.half 0xC) task 0
      else d2

/-- LADDER_CONVERT_DONE -/
def execLadderConvertDone (ctx : Nat) (newer : Bool) (task mb : Nat) (s : State) : Host.Outcome State Fault Refusal :=
  onDev (ladderConvertDoneEff ctx newer task mb) s

/-! ## COPY (R265, R495) -/

/-- A write as a COPY splits it at the lines of its source, with the poison of each (R33, R253). -/
def lineParts (src : Dev) (a b n : Nat) : List (Nat × List Byte × Bool) :=
  (List.range (if n = 0 then 0 else lineOf (a + n - 1) - lineOf a + 1)).map (fun i =>
    let lo := max a (64 * (lineOf a + i))
    let hi := min (a + n) (64 * (lineOf a + i) + 64)
    (b + (lo - a), src.mem.readBytes lo (hi - lo), (src.poisoned? lo (hi - lo)).isSome))

/-- The runs a COPY moves: each row, then the scales or zero points. -/
def copyRuns (s t : TD) : List (Nat × Nat × Nat) :=
  (List.range s.rows).map (fun r => (s.rowAddr (s.posOfRow r 0), t.rowAddr (t.posOfRow r 0), s.rowBytes))
  ++ (if s.scaleBase = 0 then [] else [(s.scaleBase, t.scaleBase, s.scaleBytes)])

/-- COPY_DONE: the destination takes the source's bytes with the poison of their lines, and nothing else; a copy consumes no
poison (R254, R265). -/
def copyDoneEff (ctx : Nat) (newer : Bool) (task mb : Nat) (d : Dev) : Dev :=
  match (d.inst? ctx newer task mb).bind d.work with
  | none => d
  | some w =>
    if w.x.op ≠ opCopy || w.x.state ≠ 1 || !d.inputsReady w.x || !d.attemptRuns ctx newer then d
    else
      let dv := d.withWindows w.x
      match dv.inTd w 0, d.outTd w 1 with
      | some s, some t =>
        let r := d.firstWrite w
        if !r.2 then r.1
        else
          let runs := copyRuns s t
          let parts := runs.flatMap (fun q => lineParts dv (xlate ctx mb q.1) q.2.1 q.2.2)
          let puts (bad : Bool) : List (Nat × List Byte) := t.outPuts ((parts.filter (fun p => p.2.2 = bad)).map (fun p => (p.1, p.2.1)))
          let d1 := (r.1.putOut w.x (puts false) false).putOut w.x (puts true) true
          let d2 := runs.foldl (fun (d : Dev) q => d.deepWrites w.x [(q.2.1, dv.mem.readBytes (xlate ctx mb q.1) q.2.2)]
            (dv.poisoned? (xlate ctx mb q.1) q.2.2).isSome) d1
          d2.updInst w.x (fun i => { i with state := 2 })
      | _, _ => d

/-- COPY_DONE -/
def execCopyDone (ctx : Nat) (newer : Bool) (task mb : Nat) (s : State) : Host.Outcome State Fault Refusal :=
  onDev (copyDoneEff ctx newer task mb) s

/-! ## Collectives -/

/-- COLLECTIVE_COMPLETE: an instance whose collective has its result and its verified digests has done its work (R295,
R330). -/
def collectiveCompleteEff (ctx : Nat) (newer : Bool) (task mb : Nat) (d : Dev) : Dev :=
  match d.inst? ctx newer task mb, (d.ctx ctx).step? newer with
  | some x, some r =>
    match d.coll? ctx (d.collSeq ctx newer task mb) r.gen with
    | some q =>
      if x.op = opCollective && x.state = 1 && q.result.isSome && q.failed.isNone then d.updInst x (fun i => { i with state := 2 })
      else d
    | none => d
  | _, _ => d

/-- COLLECTIVE_COMPLETE -/
def execCollectiveComplete (ctx : Nat) (newer : Bool) (task mb : Nat) (s : State) : Host.Outcome State Fault Refusal :=
  onDev (collectiveCompleteEff ctx newer task mb) s

/-! ## Completion (R290) -/

/-- The events of a gather's conversions go to the pool's slot, once for the task (R224). -/
def Dev.gatherReport (d : Dev) (w : Work) (b : GatherBind) : Dev :=
  let s := w.x.snapOf b.seqRec
  let row (k : Nat) : TD := d.pageRow s (b.keyStart + k) b.side
  if (row 0).fmt = b.fmt then d
  else
    let one (k : Nat) : Report :=
      let t := row k
      Report.sum ((List.range (ceilDiv b.colCount 32)).map (fun cb =>
        let xs := (List.range (min 32 (b.colCount - 32 * cb))).map (fun i =>
          some (d.elemValue w.x.ctx w.x.mb t ⟨b.colStart + 32 * cb + i, 0, 0, 0⟩))
        (blockOut { packedTd 0 b.fmt 32 1 1 1 with tscale := t.tscale } (fun _ => 0) (fun _ => false) ⟨0, 0, 0, 0⟩ xs).rep))
    let r := Report.sum ((List.range b.keyCount).map one)
    d.reportTo w.x.ctx w.x.newer w.x.half (row 0) { r with amax := 0, sq := 0, elems := 0 }

/-- An instance may complete: its work is done, its deep-tier requests have ended, what it sent to the other half is written
there, and a ladder conversion has recorded its rung (R25, R244; log entry 63). -/
def Dev.mayComplete (d : Dev) (w : Work) (run : StepRun) : Bool :=
  w.x.state = 2 && run.state = 2 && !d.deepWaits w.x && d.writesIn w.x
  && (!(w.t.op = opConvert && w.t.ladder) || run.rungs.any (fun q => q.1 = w.x.task && q.2.1 = w.x.mb))

/-- The first position of a flagged task reaches the Onsetter and the slots of its outputs (R96, R145). -/
def Dev.reportPos (d : Dev) (w : Work) : Dev := d.reportNf w.x.ctx w.x.nfAt w.x.task w.x.mb w.x.nfPos

/-- The zero points of an INT8Z operand as they lie in memory (R62). -/
def Dev.memZero (d : Dev) (w : Work) (k : Nat) : Nat → Int :=
  match d.inTd w k with
  | some t => fun ch => signed (d.ldX w.x.ctx w.x.mb (t.scaleBase + ch) 1) 8
  | none => fun _ => 0

/-- Every scope-0 instance of a micro-batch has completed. -/
def Dev.mbDone (d : Dev) (g : GraphHdr) (run : StepRun) (mb : Nat) : Bool :=
  (List.range g.taskCount).all (fun k => (d.graphTask g k).scope = 1 || run.done.contains (k, mb))

/-- The pin of a micro-batch goes back (R173). -/
def Dev.unpin (d : Dev) (c : Nat) (newer : Bool) (run : StepRun) (mb : Nat) : Dev :=
  match run.pins.find? (fun p => p.1 = mb) with
  | none => d
  | some p =>
    (d.updCtx c (fun x => { x with pins := setAt x.pins (p.2 % 2) (at' x.pins (p.2 % 2) 0 - 1) })).updStep c newer
      (fun r => { r with pins := r.pins.filter (fun q => q.1 ≠ mb) })

/-- INSTANCE_COMPLETE: what the instance holds is released, its events are reported, and the last one of an older step seals
the attempt (R96, R173, R217, R221, R249, R267, R269, R290). -/
def instanceCompleteEff (ctx : Nat) (newer : Bool) (task mb since : Nat) (d0 : Dev) : Dev :=
  let d := d0.noteReady ctx newer
  match (d.inst? ctx newer task mb).bind d.work, (d.ctx ctx).step? newer with
  | some w, some run =>
    if !d.mayComplete w run then d
    else
      let d1 := if w.t.op = opFmul then d.storeStats w (d.memZero w 0) (d.memZero w 1) else d
      let d2 := ((d.gatherBinds w.t).foldl (fun d b => d.gatherReport w b) d1).reportPos w
      let d3 := (d2.dropSnaps w.x).closeWindows w.x
      let d4 : Dev := { d3 with insts := d3.insts.filter (fun (i : Inst) => !i.is ctx newer task mb) }
      let d5 := d4.updStep ctx newer (fun r => { r with
        done := r.done ++ [(task, mb)], onceDone := if w.t.replay = 1 then r.onceDone ++ [(task, mb)] else r.onceDone })
      let run5 := ((d5.ctx ctx).step? newer).getD run
      let d7 := if d5.stageDone w.g run5 w.t.stage mb none then d5.releaseStage ctx newer mb w.t.stage else d5
      let d8 := if d7.mbDone w.g run5 mb then d7.unpin ctx newer run5 mb else d7
      let pools := ((d.appendBinds w.t).map (·.seqRec) ++ (d.gatherBinds w.t).map (·.seqRec)).map d.seqPool
      let d9 := (pools.foldl (fun d hp => d.cfgPool hp.1 hp.2) d8).reapFreeing
      let d10 := if w.t.op = opCollective then d9.postClip ctx newer else d9
      let d11 := (if w.t.op = opHub then d10.refreshHubSource w.x.half w.x.src else d10).noteReady ctx newer
      if newer then d11 else d11.sealStep ctx since
  | _, _ => d


/-! ## Attempts -/

/-- ATTEMPT_DRAINED: every task of an abandoned attempt has stopped (R140, R141, R292). -/
def attemptDrainedEff (ctx : Nat) (newer : Bool) (d : Dev) : Dev := d.drained ctx newer


/-- The timeout of a step in bells (R289). -/
def StepRun.limit (r : StepRun) : Nat := if r.p.timeout = 0 then 600000 else r.p.timeout

/-- STEP_TIMEOUT: a step that started has passed its timeout (R293). -/
def stepTimeoutEff (ctx : Nat) (newer : Bool) (d : Dev) : Dev :=
  match (d.ctx ctx).step? newer with
  | some r =>
    if r.attempts ≠ 0 ∧ r.firstBell + r.limit ≤ d.bell ∧ r.live then d.declare ctx newer St.stepTimeout clsTimeout none else d
  | none => d

/-- STEP_TIMEOUT -/
def execStepTimeout (ctx : Nat) (newer : Bool) (s : State) : Host.Outcome State Fault Refusal :=
  onDev (stepTimeoutEff ctx newer) s

end Sys2Proof.Machine
end

