-- ==== Sys2Proof/Machine/HubPorts.lean ====
section
/-! DEFINITION. What hub cores do to the device: their memory accesses, guarded bytes, the KV and task ports and the
doorbell registers (R219, R220, R233, R240, R281, R285, R434, R439 to R446). -/

namespace Sys2Proof.Machine

/-! ## Guarded bytes (R219, R281) -/

/-- The byte ranges of a resident graph: header, task table, successor array, TD table, binding tables and Tally
bindings. -/
def Dev.graphGuards (d : Dev) (image : Nat) : List (Nat × Nat) :=
  let g := d.readGraph image
  [(image, 128), (g.taskBase, 128 * g.taskCount), (g.succBase, 4 * g.succCount), (g.tdBase, 64 * (g.sharedTds + g.mbMax * g.mbTds))]
  ++ (List.range g.taskCount).flatMap (fun i =>
    let t := d.graphTask g i
    (if t.appends + t.gathers = 0 then [] else [(t.bindPtr, 32 * (t.appends + t.gathers))])
    ++ (if t.tallyPtr = 0 then [] else [(t.tallyPtr, 64)]))

/-- The guard that a write meets: the record type and the status of its refusal, none where it meets none. -/
def Dev.guard? (d : Dev) (a n : Nat) : Option (Nat × Status) :=
  if meets d.kvGuards a n then some (Rt.kv, St.ptGeneration)
  else if d.ctxs.any (fun p => p.2.graphs.any (fun g => meets (d.graphGuards g.image) a n)) then some (Rt.step, St.graphBusy)
  else none

/-- The record of a refused write into guarded bytes. -/
def Dev.guardRecord (d : Dev) (g : Nat × Status) (unit a : Nat) (ctx : Option Nat) : Dev :=
  d.record { type := g.1, unit := unit, status := g.2, addr := a, ctx := ctx }

/-! ## Accesses of a hub core (R434) -/

/-- The blocks of a hub die's control space that the manual documents, below the committed views. -/
def hubListed (off : Nat) : Bool :=
  let inside (lo n : Nat) : Bool := decide (lo ≤ off) && decide (off < lo + n)
  inside 0x00020000 0x100 || inside 0x00030000 0x20 || inside 0x02000000 0x100000 || inside 0x02100000 0x100
  || inside 0x03000000 0x200 || inside 0x03001000 0x10 || inside 0x03002000 0x4000 || inside 0x04000000 0x100
  || inside 0x04010000 0xC00 || inside 0x05000000 0x4000 || inside 0x05010000 0xC00 || inside 0x06000000 0x200
  || inside 0x07000000 0x200 || off = 0x07001000 || inside 0x08000000 0x200 || inside 0x08010000 0x300
  || inside 0x09000000 0x20 || inside 0x09001000 0x300 || inside 0x09010000 0x8000 || inside 0x09020000 0x8000
  || inside 0x09030000 0x100 || inside 0x09040000 0x100 || inside 0x0A000000 0x20 || inside 0x0B000000 0x40
  || inside 0x0C000000 0x10 || inside 0x0C001000 0x800 || inside 0x0D000000 0x400000 || inside 0x0E000000 0x40
  || inside 0x0F000000 0x58 || inside 0x0F010000 0x4000 || inside 0x0F020000 0x340 || inside 0x0F030000 0x80
  || inside 0x10000000 0x40

/-- A hub core's own ports are the only ones of their kind it reaches (R201, R303). -/
def portOwned (core off : Nat) : Bool :=
  if 0x04010000 ≤ off ∧ off < 0x04010C00 then (off - 0x04010000) / 64 = core
  else if 0x05010000 ≤ off ∧ off < 0x05010C00 then (off - 0x05010000) / 64 = core
  else if 0x08010000 ≤ off ∧ off < 0x08010300 then (off - 0x08010000) / 16 = core
  else true

/-- A hub core reaches a register of control space (R44, R434). -/
def Dev.hubReaches (d : Dev) (half core die off : Nat) : Bool :=
  d.dieOn die && dieHalf die = half &&
  (if die = 16 ∨ die = 17 then
    portOwned core off && (hubListed off || (decide (0x80000000 ≤ off) && hubListed (off - 0x80000000)))
   else decide (die < 16) && decide (0x01000000 ≤ off) && decide (off < 0x01400000))

/-- An access of a hub core at a DPA passes R434; `kind` 0 an instruction fetch, 1 a load, 2 a store. A load of a
poisoned line is refused (R254), a store into guarded bytes as well (R219, R281). -/
def Dev.hubMay (d : Dev) (half core dpa kind : Nat) : Bool :=
  if 2 ^ 52 ≤ dpa || !d.dpaValid dpa then false
  else
    let own : Bool := match d.hubCtx half core with | some c => d.ctxOwns c dpa | none => false
    let mem : Bool := own && (kind = 2 || (d.poisoned? dpa 1).isNone) && (kind ≠ 2 || (d.guard? dpa 1).isNone)
    match tierOf dpa with
    | 0 => halfOf dpa = half && mem
    | 8 => mem
    | 0xF => d.hubReaches half core (bits dpa 37 32) (dpa % 2 ^ 32)
    | _ => false

/-- The RISC-V cause of an access fault of a kind of access. -/
def faultOf (kind : Nat) : Nat := if kind = 0 then faultFetch else if kind = 1 then faultLoad else faultStore

/-- HUB_ACCESS_FAULT: an access that R434 refuses raises an access fault and moves nothing; an access that passes is not
this event. A store into guarded bytes is recorded too (R219, R281). -/
def hubAccessFaultEff (half core dpa kind : Nat) (d : Dev) : Dev :=
  if !d.halfOn half || 48 ≤ core || d.hubMay half core dpa kind then d
  else
    let d1 := match (if kind = 2 then d.guard? dpa 1 else none) with
      | some g => d.guardRecord g (hubUnitIx half 0 core) dpa (d.hubCtx half core)
      | none => d
    d1.hubTrap half core (faultOf kind) dpa

/-- HUB_ACCESS_FAULT -/
def execHubAccessFault (half core dpa kind : Nat) (s : State) : Host.Outcome State Fault Refusal :=
  onDev (hubAccessFaultEff half core dpa kind) s

/-- An extent of a context's HBM allocation is evicted. -/
def Dev.extEvicted (d : Dev) (dpa : Nat) : Bool := tierOf dpa = 0 && (d.extent (dpa / 2 ^ 21)).evicted

/-- GUARDED_STORE: a store of a hub core or of the host into guarded bytes is dropped and recorded, and traps a hub core; a
hub core's store that meets no guard and passes R434 is written, unless its extent is evicted, where the core stalls; in the
deep tier it is a request of the core's, written once that is answered (R244). -/
def guardedStoreEff (w : Writer) (dpa : Nat) (data : List Byte) (d : Dev) : Dev :=
  match w with
  | .hub half core =>
    if !d.halfOn half || 48 ≤ core || data.isEmpty then d
    else match d.guard? dpa data.length with
      | some g => (d.guardRecord g (hubUnitIx half 0 core) dpa (d.hubCtx half core)).hubTrap half core faultStore dpa
      | none =>
        if !d.hubMay half core dpa 2 || !d.hubMay half core (dpa + data.length - 1) 2 || tierOf dpa = 0xF then
          d.hubTrap half core faultStore dpa
        else if d.extEvicted dpa then d
        else if tierOf dpa = 8 then
          d.deepAsk { id := 0, half := half, kind := 5, ctx := 8, newer := false, task := core, mb := 0, target := dpa, data := data } dpa true data
        else d.writeMem dpa data
  | _ =>
    match d.guard? dpa data.length with
    | some g => d.guardRecord g 0xFFFF dpa none
    | none => d

/-- GUARDED_STORE -/
def execGuardedStore (w : Writer) (dpa : Nat) (data : List Byte) (s : State) : Host.Outcome State Fault Refusal :=
  onDev (guardedStoreEff w dpa data) s

/-- The device itself moves one extent away, its copy answered as `ok` says: for an access that stalls a hub core until its
fetch has ended. -/
def Dev.makeRoom (d : Dev) (half : Nat) (ok : Bool) : Dev × Bool :=
  if 0 < d.freeHbm half then (d, true)
  else match d.extVictim half none with
    | none => (d, false)
    | some v =>
      let r := d.evictExt .device v.1
      let d1 := { r.1 with deep := r.1.deep.filter (fun (q : DeepReq) => q.id ≠ d.nextDeep) }
      (if r.2 then d1.evictExtEnd v.1 ok else r.1, r.2 && ok)

/-- HUB_EVICTED_ACCESS: a hub core's access to an evicted extent of its context stalls the core while the page mover fetches the
extent, an eviction making room for it where none is free; where the fetch fails the access raises the access fault of its kind,
0 an instruction fetch, 1 a load, 2 a store, and the core receives no data (R240). `deepOk` is how its deep requests end. -/
def hubEvictedAccessEff (half core dpa kind : Nat) (deepOk : Bool) (d : Dev) : Dev :=
  let e := dpa / 2 ^ 21
  let fault (d : Dev) : Dev := d.hubTrap half core (faultOf kind) dpa
  if !d.halfOn half || 48 ≤ core || halfOf dpa ≠ half || !d.extEvicted dpa || 2 < kind then d
  else if (d.extent e).moving = 2 then d
  else match d.hubCtx half core with
    | none => fault d
    | some c =>
      if !d.ctxOwns c dpa then fault d
      else
        let r := d.makeRoom half deepOk
        if !r.2 then fault r.1
        else
          let id := r.1.nextDeep
          let d1 := r.1.fetchExts .device 6 [e]
          let d2 : Dev := { d1 with deep := d1.deep.filter (fun (q : DeepReq) => q.id ≠ id) }
          if deepOk then d2.fetchExt e [] false else fault (d2.fetchExtFail e)

/-- HUB_EVICTED_ACCESS -/
def execHubEvictedAccess (half core : Nat) (access : HubAccess) (deepOk : Bool) (s : State) : Host.Outcome State Fault Refusal :=
  onDev (hubEvictedAccessEff half core access.dpa access.kind deepOk) s

/-! ## The KV port (R218, R220, R222, R233) -/

/-- A port operation has acted: its outcome waits for KV_PORT_OP_DONE. -/
def Dev.kvPortEnd (d : Dev) (half core : Nat) (st : Status) (free : Bool) (gen : Nat) : Dev :=
  d.setHub (hubKey half core) { d.hub (hubKey half core) with kvBusy := true, kvWait := 0, kvNext := some (st, free, gen) }

/-- An operation with a place in the order of arrival waits: for the end of another one on its record or behind one that arrived
earlier (R208), or for an entry of its half's retired list (R221). -/
def Dev.seqWaits (d : Dev) (a since : Nat) (retires : Bool) : Bool :=
  (d.seqRec a).lock || d.seqBehind a since || (retires && d.retiredFull (halfOf a) && !(d.holdersOf a (d.seqRec a).ptPtr).isEmpty)

/-- The port's operation acts where it need not wait: a swap (1) or a set (2). It acts only on an open sequence of the
context that the core runs for. -/
def Dev.kvPortRun (d : Dev) (half core op since : Nat) : Dev :=
  let a := d.kvPortSeq half core
  let x := d.hub (hubKey half core)
  let mine : Bool := d.seqs.contains a && halfOf a = half &&
    (match d.hubCtx half core with | some c => d.ld (a + 0x1E) 2 % 8 = c | none => false)
  if !mine then d.kvPortEnd half core St.kvInvalid false 0
  else if d.seqWaits a since (op = 1) then d.setHub (hubKey half core) { x with kvBusy := true, kvWait := op, kvSince := since }
  else if op = 1 then
    let db := d.kvPortReg half core 0x24
    let r := d.kvSwap a (d.kvPortReg half core 8 + d.kvPortReg half core 0xC % 2 ^ 20 * 2 ^ 32) (d.kvPortReg half core 0x10)
      (d.kvPortReg half core 0x14) (if bit db 12 then some (db % 4096) else none)
    r.2.2.kvPortEnd half core r.1 r.2.1 (r.2.2.seqRec a).gen
  else
    let r := d.kvSet a (d.kvPortReg half core 8) (d.kvPortReg half core 0xC) (d.kvPortReg half core 0x14)
    r.2.kvPortEnd half core r.1 false (r.2.seqRec a).gen

/-- A write of ATN_PORT_OP: ignored while BUSY; of a core with no context, DONE with KV_INVALID and no effect (R233). -/
def Dev.kvPortStart (d : Dev) (half core op : Nat) : Dev :=
  let x := d.hub (hubKey half core)
  if !d.halfOn half || 48 ≤ core || x.kvBusy then d
  else match d.hubCtx half core with
    | none => d.setHub (hubKey half core) { x with kvDone := true, kvOldFree := false, kvStatus := St.kvInvalid }
    | some _ =>
      { d.setHub (hubKey half core) { x with kvDone := false } with nextOrder := d.nextOrder + 1 }.kvPortRun half core op d.nextOrder

/-- KV_PORT_SWAP -/
def execKvPortSwap (half core : Nat) (s : State) : Host.Outcome State Fault Refusal := onDev (fun d => d.kvPortStart half core 1) s
/-- KV_PORT_SET -/
def execKvPortSet (half core : Nat) (s : State) : Host.Outcome State Fault Refusal := onDev (fun d => d.kvPortStart half core 2) s

/-- The port operations that wait are tried again, in the order of their cores; the order of arrival decides between them. -/
def Dev.retryPorts (d : Dev) : Dev :=
  (d.hubs.filter (fun p => p.2.kvWait ≠ 0)).foldl (fun d p => d.kvPortRun (p.1 / 64) (p.1 % 64) p.2.kvWait p.2.kvSince) d

/-- KV_PORT_OP_DONE: an operation that waited is tried again; one that has acted completes with DONE, its status and the
generation (R222, R233). -/
def kvPortOpDoneEff (half core : Nat) (d : Dev) : Dev :=
  let k := hubKey half core
  let d1 := if (d.hub k).kvWait = 0 then d else d.kvPortRun half core (d.hub k).kvWait (d.hub k).kvSince
  let x := d1.hub k
  match x.kvNext with
  | none => d1
  | some (st, free, gen) =>
    d1.setHub k { x with kvBusy := false, kvDone := true, kvOldFree := free, kvStatus := st, kvResult := word gen, kvNext := none }


/-! ## The task port (R285, R303) -/

/-- HUB_DONE_WRITE: a write of ONS_HUB_DONE completes the instance that the core holds (0) or ends it with
HUB_TASK_FAILED; it is ignored where none is presented, and after the attempt has been abandoned it only ends the hold. -/
def hubDoneWriteEff (half core : Nat) (value : Word) (d : Dev) : Dev :=
  let k := hubKey half core
  let x := d.hub k
  match x.holds with
  | none => d
  | some tok =>
    let d1 := d.setHub k { x with holds := none }
    match d1.insts.find? (fun i => i.op = opHub && i.token = tok && i.started && i.state = 1) with
    | none => d1
    | some i =>
      if !d1.attemptRuns i.ctx i.newer then d1
      else if value = 0 then d1.updInst i (fun j => { j with state := 2 })
      else d1.cause i.ctx i.newer St.hubTaskFailed clsTask (hubUnitIx half 0 core) value.toNat 0

/-- HUB_DONE_WRITE -/
def execHubDoneWrite (half core : Nat) (value : Word) (s : State) : Host.Outcome State Fault Refusal :=
  onDev (hubDoneWriteEff half core value) s

/-! ## The doorbell registers (R438 to R440, R446, R449) -/

/-- A write of one of the doorbell controller's source addresses of a half: a number above 11 bits is ignored, a hub core of
the other half takes an access fault (R44), and a writer that does not own the source is ignored and counted (R438). -/
def Dev.dbcWrite (d : Dev) (w : Writer) (half : Nat) (value : Word) (act : Nat → Dev → Dev) (off : Nat) : Dev :=
  match w with
  | .hub h c =>
    if h ≠ half ∨ !d.halfOn half then
      (if d.halfOn h then d.hubTrap h c faultStore (ctlDpa (hubDie half) (0x0F000000 + off)) else d)
    else if 4096 ≤ value.toNat then d
    else if d.mayRing w half value.toNat then act value.toNat d else d.dbcRefuse half
  | .headframe _ => if d.halfOn half && value.toNat < 4096 then act value.toNat d else d
  | _ => d

/-- Change a source's state. -/
def Dev.updSource (d : Dev) (half s : Nat) (f : Source → Source) : Dev :=
  d.setSource (srcKey half s) (f (d.source (srcKey half s)))

/-- DBC_DOORBELL: the source is rung (R439). -/
def dbcDoorbellEff (w : Writer) (half : Nat) (value : Word) (d : Dev) : Dev := d.dbcWrite w half value (fun s d => d.ring! half s) 0x00
/-- DBC_MASK_SET: the source is masked. -/
def dbcMaskSetEff (w : Writer) (half : Nat) (value : Word) (d : Dev) : Dev :=
  d.dbcWrite w half value (fun s d => d.updSource half s (fun x => { x with masked := true })) 0x04
/-- DBC_MASK_CLR: the source is unmasked. -/
def dbcMaskClrEff (w : Writer) (half : Nat) (value : Word) (d : Dev) : Dev :=
  d.dbcWrite w half value (fun s d => d.updSource half s (fun x => { x with masked := false })) 0x08
/-- DBC_PEND_SET: the source is rung; ignored for a HUB task's source while an instance waits, which leaves it pending
(R439, R440). -/
def dbcPendSetEff (w : Writer) (half : Nat) (value : Word) (d : Dev) : Dev := d.dbcWrite w half value (fun s d => d.ring! half s) 0x0C
/-- DBC_PEND_CLR: the pending bit is cleared; ignored for a HUB task's source while an instance waits (R440). -/
def dbcPendClrEff (w : Writer) (half : Nat) (value : Word) (d : Dev) : Dev :=
  d.dbcWrite w half value (fun s d =>
    if (d.hubWaiting half s).isEmpty then d.updSource half s (fun x => { x with pending := false }) else d) 0x10
/-- DBC_EOI: the writing target's handler ends (R446). -/
def dbcEoiEff (half target : Nat) (value : Word) (d : Dev) : Dev :=
  if !d.halfOn half || 52 ≤ target || 4096 ≤ value.toNat then d else d.eoi half target value.toNat
/-- DOORBELL_DISPATCH: one dispatch cycle (R443). -/
def doorbellDispatchEff (half : Nat) (d : Dev) : Dev := if d.halfOn half then d.dispatch half else d

/-- DBC_DOORBELL -/
def execDbcDoorbell (w : Writer) (half : Nat) (value : Word) (s : State) : Host.Outcome State Fault Refusal :=
  onDev (fun d => d.byWriter w (hubDie half) 0x0F000000 value (dbcDoorbellEff w half value)) s
/-- DBC_MASK_SET -/
def execDbcMaskSet (w : Writer) (half : Nat) (value : Word) (s : State) : Host.Outcome State Fault Refusal :=
  onDev (fun d => d.byWriter w (hubDie half) 0x0F000004 value (dbcMaskSetEff w half value)) s
/-- DBC_MASK_CLR -/
def execDbcMaskClr (w : Writer) (half : Nat) (value : Word) (s : State) : Host.Outcome State Fault Refusal :=
  onDev (fun d => d.byWriter w (hubDie half) 0x0F000008 value (dbcMaskClrEff w half value)) s
/-- DBC_PEND_SET -/
def execDbcPendSet (w : Writer) (half : Nat) (value : Word) (s : State) : Host.Outcome State Fault Refusal :=
  onDev (fun d => d.byWriter w (hubDie half) 0x0F00000C value (dbcPendSetEff w half value)) s
/-- DBC_PEND_CLR -/
def execDbcPendClr (w : Writer) (half : Nat) (value : Word) (s : State) : Host.Outcome State Fault Refusal :=
  onDev (fun d => d.byWriter w (hubDie half) 0x0F000010 value (dbcPendClrEff w half value)) s
/-- DBC_EOI -/
def execDbcEoi (half target : Nat) (value : Word) (s : State) : Host.Outcome State Fault Refusal :=
  onDev (dbcEoiEff half target value) s
/-- DOORBELL_DISPATCH -/
def execDoorbellDispatch (half : Nat) (s : State) : Host.Outcome State Fault Refusal := onDev (doorbellDispatchEff half) s

end Sys2Proof.Machine
end

