-- ==== Sys2Proof/Machine/Bar0.lean ====
section
/-! DEFINITION. The host interface's registers: BAR0, the ring sets and the event ring as the driver sets them up, MSI-X,
completions, the BAR2 window, orphaning, and the reset of the interface (R387 to R400, R407). -/

namespace Sys2Proof.Machine

/-! ## MSI-X (R400) -/

/-- A write of a word of the MSI-X table; a vector unmasked while pending fires. -/
def Dev.msixWrite (d : Dev) (ix : Nat) (value : Word) : Dev :=
  let d1 : Dev := { d with host := { d.host with msix := d.host.msix.put 0 ix value } }
  let v := ix / 4
  let pba := (d.host.msix.get 0 pbaKey).toNat
  if ix % 4 = 3 && !bit value.toNat 0 && bit pba v then
    Dev.emit { d1 with host := { d1.host with msix := d1.host.msix.put 0 pbaKey (word (pba - 2 ^ v)) } } (.msix v)
  else d1

/-! ## Host states (R394) -/

/-- Some ring set holds a session. -/
def Dev.anySession (d : Dev) : Bool := (List.range 4).any (fun s => (d.ring s).session)

/-- Some open context is orphaned. -/
def Dev.anyOrphan (d : Dev) : Bool := (List.range 8).any (fun c => (d.ctx c).isOpen && (d.ctx c).orphaned)

/-- The host state that fits once a session ends or a context leaves: READY where neither a session nor an orphaned context
is left, ORPHANED where only orphaned contexts are (R394, R409). -/
def Dev.settleHost (d : Dev) : Dev :=
  if d.host.state < 5 ∨ d.anySession then d
  else if d.anyOrphan then d.hostState 7
  else Dev.hostState { d with host := { d.host with orphanCause := 0, orphanUs := 0 } } 5

/-! ## Completions (R399) -/

/-- The entries of a ring. -/
def Ring.size (r : Ring) : Nat := 2 ^ (r.sizeLog.toNat % 16)

/-- The 32 bytes of a completion entry. -/
def Completion.bytes (c : Completion) (phase : Bool) : List Byte :=
  leBytes 4 c.tag.toNat ++ leBytes 2 c.status.toNat ++ leBytes 2 (flag phase 0 + flag c.rescanned 1)
  ++ leBytes 2 c.index ++ leBytes 2 0 ++ (List.range 5).flatMap (fun i => leBytes 4 (at' c.words i 0).toNat)

/-- Completions that wait are written while the driver has consumed a slot for them (R399). -/
def Dev.flushRing (s : Nat) : Nat → Dev → Dev
  | 0, d => d
  | n + 1, d =>
    let r := d.ring s
    match r.queue with
    | [] => d
    | c :: rest =>
      if !r.enabled || r.size ≤ r.cplOut then d
      else
        let d1 := d.storeHost (r.cplBase.toNat + 32 * r.cplTail) (c.bytes r.phase)
        let tail := (r.cplTail + 1) % r.size
        let d2 := d1.setRing s { r with
          queue := rest, cplTail := tail, phase := if tail = 0 then !r.phase else r.phase, cplOut := r.cplOut + 1 }
        Dev.flushRing s n (d2.fire (2 + s))

/-- A completion is posted on a ring set. -/
def Dev.postCpl (d : Dev) (s : Nat) (c : Completion) : Dev :=
  let r := d.ring s
  Dev.flushRing s (r.queue.length + 1) (d.setRing s { r with queue := r.queue ++ [c] })

/-! ## Ring and event-ring control (R396, R399) -/

/-- A write of HIF_RING_CTL: ENABLE with a misaligned base or n outside 4 to 12 sets CONFIG_ERR and leaves the ring disabled;
enabling starts both rings at index 0 with PHASE 1. -/
def Dev.ringCtl (d : Dev) (s : Nat) (value : Word) : Dev :=
  let r := d.ring s
  let on := bit value.toNat 0
  let bad := r.cmdBase.toNat % 4096 ≠ 0 || r.cplBase.toNat % 4096 ≠ 0 || decide (r.sizeLog.toNat % 16 < 4) || decide (12 < r.sizeLog.toNat % 16)
  if !on then d.setRing s { r with ctl := 0, enabled := false, configErr := false }
  else if bad then d.setRing s { r with ctl := 1, enabled := false, configErr := true }
  else if r.enabled then d
  else
    Dev.flushRing s r.queue.length (d.setRing s { r with
      ctl := 1, enabled := true, configErr := false, cmdHead := 0, cplTail := 0, phase := true, cplOut := 0 })

/-- A write of HIF_EVT_CTL. -/
def Dev.evtCtl (d : Dev) (value : Word) : Dev :=
  let e := d.host.evt
  let n := e.size.toNat % 32
  let bad := e.base.toNat % 4096 ≠ 0 || decide (n < 6) || decide (16 < n) || e.shadow.toNat % 8 ≠ 0
  let set (e : EvtRing) : Dev := { d with host := { d.host with evt := e } }
  if !bit value.toNat 0 then set { e with ctl := 0, enabled := false, configErr := false }
  else if bad then set { e with ctl := 1, enabled := false, configErr := true }
  else if e.enabled then d
  else set { e with ctl := 1, enabled := true, configErr := false, tail := 0 }

/-- Half of a 64-bit register replaced by a word. -/
def halfWord (x : DWord) (hi : Bool) (v : Word) : DWord :=
  if hi then BitVec.ofNat 64 (x.toNat % 2 ^ 32 + v.toNat * 2 ^ 32) else BitVec.ofNat 64 (x.toNat / 2 ^ 32 * 2 ^ 32 + v.toNat)

/-- A write of a ring set's register. -/
def Dev.ringWrite (d : Dev) (s o : Nat) (v : Word) : Dev :=
  let r := d.ring s
  match o with
  | 0x00 => d.setRing s { r with cmdBase := halfWord r.cmdBase false v }
  | 0x04 => d.setRing s { r with cmdBase := halfWord r.cmdBase true v }
  | 0x08 => d.setRing s { r with cplBase := halfWord r.cplBase false v }
  | 0x0C => d.setRing s { r with cplBase := halfWord r.cplBase true v }
  | 0x10 => d.setRing s { r with sizeLog := word (v.toNat % 16) }
  | 0x14 => d.ringCtl s v
  | 0x18 => d.setRing s { r with cmdTail := v }
  | 0x20 =>
    let used := (v.toNat + r.size - r.cplHead.toNat % r.size) % r.size
    let all := used = 0 && v ≠ r.cplHead
    Dev.flushRing s r.queue.length
      (d.setRing s { r with cplHead := v, cplOut := if all then 0 else r.cplOut - min used r.cplOut })
  | _ => d

/-- A write of an event-ring register. -/
def Dev.evtWrite (d : Dev) (o : Nat) (v : Word) : Dev :=
  let e := d.host.evt
  let set (e : EvtRing) : Dev := { d with host := { d.host with evt := e } }
  match o with
  | 0x00 => set { e with base := halfWord e.base false v }
  | 0x04 => set { e with base := halfWord e.base true v }
  | 0x08 => set { e with size := word (v.toNat % 32) }
  | 0x0C => set { e with head := v }
  | 0x14 => set { e with shadow := halfWord e.shadow false v }
  | 0x18 => set { e with shadow := halfWord e.shadow true v }
  | 0x1C => d.evtCtl v
  | _ => d

/-! ## Loading states (R394) -/

/-- A bit of HIF_LOAD_CTL is set; it reads as set until the interface is reset (R9, R388). -/
def Dev.loadBit (d : Dev) (i : Nat) : Dev := { d with host := { d.host with loadCtl := d.host.loadCtl ||| word (2 ^ i) } }

/-- START: LOADING from UNLOADED or REJECTED. -/
def loadStartEff (d : Dev) : Dev :=
  if !d.host.linkUp then d else if d.host.state = 0 || d.host.state = 4 then (d.loadBit 0).hostState 1 else d.loadBit 0
/-- GO: VERIFYING from LOADING. -/
def loadGoEff (d : Dev) : Dev := if !d.host.linkUp then d else if d.host.state = 1 then (d.loadBit 1).hostState 2 else d.loadBit 1
/-- ABORT: UNLOADED from LOADING. -/
def loadAbortEff (d : Dev) : Dev := if !d.host.linkUp then d else if d.host.state = 1 then (d.loadBit 2).hostState 0 else d.loadBit 2

/-- A write of HIF_LOAD_CTL: each bit written as 1 acts, START first, then GO, then ABORT (log entry 65). -/
def Dev.loadWrite (d : Dev) (v : Word) : Dev :=
  let d1 := if bit v.toNat 0 then loadStartEff d else d
  let d2 := if bit v.toNat 1 then loadGoEff d1 else d1
  if bit v.toNat 2 then loadAbortEff d2 else d2

/-- LOAD_START -/
def execLoadStart (s : State) : Host.Outcome State Fault Refusal := onDev loadStartEff s
/-- LOAD_GO -/
def execLoadGo (s : State) : Host.Outcome State Fault Refusal := onDev loadGoEff s
/-- LOAD_ABORT -/
def execLoadAbort (s : State) : Host.Outcome State Fault Refusal := onDev loadAbortEff s

/-- HOST_HEARTBEAT_WRITE: any write is a heartbeat; in ORPHANED it is ignored until sess.hello (R394, R406). -/
def hostHeartbeatWriteEff (value : Word) (d : Dev) : Dev :=
  if !d.host.linkUp || d.host.state = 7 then d else { d with host := { d.host with heartbeat := value } }

/-- HOST_HEARTBEAT_WRITE -/
def execHostHeartbeatWrite (value : Word) (s : State) : Host.Outcome State Fault Refusal := onDev (hostHeartbeatWriteEff value) s

/-! ## BAR0 (R389) -/

/-- A host write of a BAR0 register. -/
def Dev.bar0Write (d : Dev) (off : Nat) (v : Word) : Dev :=
  let h := d.host
  if !h.linkUp || off % 4 ≠ 0 then d
  else if 0x100 ≤ off ∧ off < 0x200 then d.ringWrite ((off - 0x100) / 64) (off % 64) v
  else if 0x200 ≤ off ∧ off < 0x228 then d.evtWrite (off - 0x200) v
  else if 0xE000 ≤ off ∧ off < 0xE100 then d.msixWrite ((off - 0xE000) / 4) v
  else match off with
    | 0x18 => d.loadWrite v
    | 0x1C => { d with host := { h with imgBytes := v } }
    | 0x20 => { d with host := { h with cfgBytes := v } }
    | 0x24 => hostHeartbeatWriteEff v d
    | 0x3C => { d with host := { h with winBaseLo := word (v.toNat / 2 ^ 30 * 2 ^ 30) } }
    | 0x40 => { d with host := { h with winBaseHi := word (v.toNat % 2 ^ 20) } }
    | 0x44 => { d with host := { h with winCtl := word (v.toNat % 4) } }
    | _ => d

/-- A ring set's register words. -/
def Ring.word (r : Ring) (o : Nat) : Nat :=
  match o with
  | 0x00 => r.cmdBase.toNat % 2 ^ 32
  | 0x04 => r.cmdBase.toNat / 2 ^ 32
  | 0x08 => r.cplBase.toNat % 2 ^ 32
  | 0x0C => r.cplBase.toNat / 2 ^ 32
  | 0x10 => r.sizeLog.toNat
  | 0x14 => r.ctl.toNat
  | 0x18 => r.cmdTail.toNat
  | 0x1C => r.cmdHead
  | 0x20 => r.cplHead.toNat
  | 0x24 => flag r.enabled 0 + flag r.session 1 + flag r.configErr 2
  | _ => 0

/-- The event ring's register words. -/
def EvtRing.word (e : EvtRing) (o : Nat) : Nat :=
  match o with
  | 0x00 => e.base.toNat % 2 ^ 32
  | 0x04 => e.base.toNat / 2 ^ 32
  | 0x08 => e.size.toNat
  | 0x0C => e.head.toNat
  | 0x10 => e.tail
  | 0x14 => e.shadow.toNat % 2 ^ 32
  | 0x18 => e.shadow.toNat / 2 ^ 32
  | 0x1C => e.ctl.toNat + flag e.configErr 1
  | 0x20 => e.queue.length
  | 0x24 => sat32 e.dropped
  | _ => 0

/-- A read of a BAR0 register, without its side effect. -/
def Dev.bar0Read (d : Dev) (off : Nat) : Nat :=
  let h := d.host
  if 0x100 ≤ off ∧ off < 0x200 then (d.ring ((off - 0x100) / 64)).word (off % 64)
  else if 0x200 ≤ off ∧ off < 0x228 then h.evt.word (off - 0x200)
  else if 0xE000 ≤ off ∧ off < 0xE100 then (h.msix.get 0 ((off - 0xE000) / 4)).toNat
  else match off with
    | 0x00 => 0x4C40 + Config.stepping % 256 * 65536
    | 0x04 => Config.serial.toNat % 2 ^ 32
    | 0x08 => Config.serial.toNat / 2 ^ 32
    | 0x0C => h.fwVersion.toNat
    | 0x10 => h.state
    | 0x14 => h.bootResult % 256 + h.cfgStatus.toNat * 65536
    | 0x18 => h.loadCtl.toNat
    | 0x1C => h.imgBytes.toNat
    | 0x20 => h.cfgBytes.toNat
    | 0x24 => h.heartbeat.toNat
    | 0x28 => flag (h.state = 7) 0 + field h.orphanCause 3 1 + min (h.orphanUs / 1000000) 65535 * 65536
    | 0x2C => d.hltWord 0x20
    | 0x30 => d.bell % 2 ^ 32
    | 0x34 => h.bellHiLatch.toNat
    | 0x38 => d.pwr.cls.getD 0 % 4 + field d.pwr.coolId 2 2 + flag d.pwr.disagree 4
    | 0x3C => h.winBaseLo.toNat
    | 0x40 => h.winBaseHi.toNat
    | 0x44 => h.winCtl.toNat
    | 0x48 => d.rcGet 64 0x48
    | 0xF000 => (h.msix.get 0 pbaKey).toNat
    | _ => 0

/-- RING_ENABLE_WRITE -/
def execRingEnableWrite (set : Nat) (value : Word) (s : State) : Host.Outcome State Fault Refusal :=
  onDev (fun d => if set < 4 then d.bar0Write (0x100 + 64 * set + 0x14) value else d) s

/-- EVENT_RING_ENABLE_WRITE -/
def execEventRingEnableWrite (value : Word) (s : State) : Host.Outcome State Fault Refusal :=
  onDev (fun d => d.bar0Write 0x21C value) s

/-- CMD_TAIL_DOORBELL: the tail is written; the service then takes the entries, each as a command of its own (R396). -/
def execCmdTailDoorbell (set tail : Nat) (s : State) : Host.Outcome State Fault Refusal :=
  onDev (fun d => if set < 4 then d.bar0Write (0x100 + 64 * set + 0x18) (word tail) else d) s

/-- HIF_BELL_READ: a read of HIF_BELL_LO latches HIF_BELL_HI (R389). -/
def hifBellReadEff (d : Dev) : Dev :=
  if !d.host.linkUp then d
  else Dev.emit { d with host := { d.host with
    bellHiLatch := word (d.bell / 2 ^ 32 % 65536 + flag d.fab.locked 16) } } (.readValue (word d.bell))

/-- HIF_BELL_READ -/
def execHifBellRead (s : State) : Host.Outcome State Fault Refusal := onDev hifBellReadEff s

/-! ## Events to the host (R399) -/

/-- The event ring takes a record: enabled, a session open and a slot free. -/
def Dev.evtReady (d : Dev) : Bool :=
  let e := d.host.evt
  e.enabled && d.host.linkUp && d.anySession && (e.tail + 1) % 2 ^ (e.size.toNat % 32) ≠ e.head.toNat % 2 ^ (e.size.toNat % 32)

/-- One record goes out: the record, then the shadow tail. -/
def Dev.evtPut (d : Dev) (r : Record) : Dev :=
  let e := d.host.evt
  let tail := (e.tail + 1) % 2 ^ (e.size.toNat % 32)
  let d1 := (d.storeHost (e.base.toNat + 128 * e.tail) r.bytes).storeHost e.shadow.toNat (leBytes 4 tail)
  Dev.fire { d1 with host := { d1.host with evt := { d1.host.evt with tail := tail } } } 0

/-- EVENT_DELIVER: the oldest queued record is written; where records were lost, a HOST record with EVENTS_DROPPED and their
count goes first, and into the pit log and the management queues like any other. -/
def eventDeliverEff (d : Dev) : Dev :=
  if !d.evtReady then d
  else if d.host.evt.unreported ≠ 0 then
    let n := d.host.evt.unreported
    let old := d.host.evt.queue
    let d0 : Dev := { d with host := { d.host with evt := { d.host.evt with queue := [], unreported := 0 } } }
    let d1 := d0.record { type := Rt.host, status := St.eventsDropped, addr := n }
    match d1.host.evt.queue with
    | r :: more =>
      Dev.evtPut { d1 with host := { d1.host with evt := { d1.host.evt with queue := old ++ more } } } r
    | [] => { d1 with host := { d1.host with evt := { d1.host.evt with queue := old } } }
  else match d.host.evt.queue with
    | [] => d
    | r :: rest => Dev.evtPut { d with host := { d.host with evt := { d.host.evt with queue := rest } } } r

/-- EVENT_DELIVER -/
def execEventDeliver (s : State) : Host.Outcome State Fault Refusal := onDev eventDeliverEff s

/-! ## BAR2 (R390, R391) -/

/-- The DPA at BAR2 offset 0. -/
def Dev.winBase (d : Dev) : Nat := d.host.winBaseLo.toNat + d.host.winBaseHi.toNat * 2 ^ 32

/-- An open context's allocation holds a DPA. -/
def Dev.openOwns (d : Dev) (a : Nat) : Bool :=
  d.allocs.any (fun x => (d.ctx x.ctx).isOpen && decide (x.base ≤ a) && decide (a < x.base + x.extents * 2 ^ 21))

/-- A window access to n bytes at a DPA passes R391; before READY there are no allocations, and only the tier and R43 are
tested. -/
def Dev.winPass (d : Dev) (a n : Nat) : Bool :=
  let one (x : Nat) : Bool := (tierOf x = 0 || tierOf x = 8) && d.dpaValid x && (d.host.state < 5 || d.openOwns x)
  let b := d.winBase
  n ≠ 0 && one a && one (a + n - 1) && halfOf a = halfOf (a + n - 1)
  && (tierOf b ≠ 0 || (tierOf (b + 2 ^ 36 - 1) = 0 && halfOf b = halfOf (b + 2 ^ 36 - 1)))

/-- The offsets of the load staging area: an image of up to 16 MiB, then a base configuration of up to 4 MiB. -/
def stagingOk (off n : Nat) : Bool := decide (off + n ≤ 0x1400000)

/-- A refused window access is counted. -/
def Dev.winFault (d : Dev) : Dev := d.rcAdd 64 0x48 1

/-- BAR2_READ -/
def bar2ReadEff (off n : Nat) (d : Dev) : Dev :=
  let ones : List Byte := List.replicate n 0xFF#8
  if !d.host.linkUp || 2 ^ 36 < off + n then d
  else if d.host.state = 1 then
    d.emit (.bar2Data (some (if stagingOk off n then d.host.staging.readBytes off n else ones)))
  else if !bit d.host.winCtl.toNat 0 then d.emit (.bar2Data (some ones))
  else
    let a := d.winBase + off
    if !d.winPass a n then d.winFault.emit (.bar2Data (some ones))
    else if (d.poisoned? a n).isSome then d.emit (.bar2Data none)
    else d.emit (.bar2Data (some (d.mem.readBytes a n)))

/-- BAR2_READ -/
def execBar2Read (off bytes : Nat) (s : State) : Host.Outcome State Fault Refusal := onDev (bar2ReadEff off bytes) s

/-- BAR2_WRITE: a write into guarded bytes is dropped and recorded (R219, R281). -/
def bar2WriteEff (off : Nat) (data : List Byte) (d : Dev) : Dev :=
  let n := data.length
  if !d.host.linkUp || 2 ^ 36 < off + n then d
  else if d.host.state = 1 then
    if stagingOk off n then { d with host := { d.host with staging := d.host.staging.writeBytes off data } } else d
  else if !bit d.host.winCtl.toNat 0 || !bit d.host.winCtl.toNat 1 then d
  else
    let a := d.winBase + off
    if !d.winPass a n then d.winFault
    else match d.guard? a n with
      | some g => d.guardRecord g 0xFFFF a none
      | none => d.writeMem a data

/-- BAR2_WRITE -/
def execBar2Write (off : Nat) (data : List Byte) (s : State) : Host.Outcome State Fault Refusal := onDev (bar2WriteEff off data) s

/-! ## Orphaning (R407) and the reset of the host interface (R388) -/

/-- HOST_HEARTBEAT_LOST -/
def hostHeartbeatLostEff (d : Dev) : Dev := if d.host.state = 6 then d.orphanAll 1 else d

/-- HOST_HEARTBEAT_LOST -/
def execHostHeartbeatLost (s : State) : Host.Outcome State Fault Refusal := onDev hostHeartbeatLostEff s

/-- The lanes' width that the whole wavelengths carry (R387): 16, 8, 4 or 2, or 0 where none is whole. -/
def linkWidth (bad : List Nat) : Nat :=
  let ok (l : List Nat) : Bool := l.all (fun x => !bad.contains x)
  if ok [0, 1, 2, 3, 4, 5, 6, 7] then 16
  else if ok [0, 1, 2, 3] || ok [4, 5, 6, 7] then 8
  else if ok [0, 1] || ok [2, 3] || ok [4, 5] || ok [6, 7] then 4
  else if (List.range 8).any (fun x => !bad.contains x) then 2 else 0

/-- The link trains; wavelengths that recovered are taken back into it (R387). -/
def Dev.linkTrain (d : Dev) (bad : List Nat) : Dev :=
  let w := linkWidth bad
  let d1 : Dev := { d with host := { d.host with badLambdas := bad, width := w, linkUp := w ≠ 0 } }
  if w = 0 then d1 else d1.emit (.hostLink w)

/-- HOT_RESET: the interface is reset and the link retrains (R387, R388). -/
def execHotReset (s : State) : Host.Outcome State Fault Refusal :=
  onDev (fun d => if d.host.linkUp then (d.linkEvent 3).linkTrain d.host.badLambdas else d) s
/-- FLR: the interface is reset (R388). -/
def execFlr (s : State) : Host.Outcome State Fault Refusal :=
  onDev (fun d => if d.host.linkUp then d.linkEvent 4 else d) s
/-- HOST_LINK_DOWN: a link-down of more than 100 ms (R388). -/
def execHostLinkDown (s : State) : Host.Outcome State Fault Refusal :=
  onDev Dev.linkLost s

/-- HOST_WAVELENGTH_LOSS: the link retrains at the widest width left; with no wavelength whole it is down (R387). -/
def hostWavelengthLossEff (lam : Nat) (d : Dev) : Dev :=
  if 8 ≤ lam || d.host.badLambdas.contains lam then d
  else
    let bad := insertNat d.host.badLambdas lam
    if d.host.linkUp then d.linkTrain bad else { d with host := { d.host with badLambdas := bad } }

/-- HOST_WAVELENGTH_LOSS -/
def execHostWavelengthLoss (lam : Nat) (s : State) : Host.Outcome State Fault Refusal := onDev (hostWavelengthLossEff lam) s

end Sys2Proof.Machine
end

