-- ==== Sys2Proof/Machine/Parity.lean ====
section
/-! DEFINITION. The protected streams of a parity ring: their regions and units, the rows, the unit digests, and the parity that
this device holds (R341 to R343, R347, R351). -/

namespace Sys2Proof.Machine

/-- The bytes of a unit of a protected stream. -/
abbrev parityUnit : Nat := 65536

/-- A place in a half's HBM whose allocation carries PARITY for a context (R241). -/
def Dev.paritied (d : Dev) (c half a : Nat) : Bool :=
  halfOf a = half && d.allocs.any (fun x => x.ctx = c && x.parity && tierOf a = 0 && decide (x.base ≤ a) && decide (a < x.base + x.extents * 2 ^ 21))

/-- The regions of an update record in version slot s, and the state region that goes with it (R158, R159, R179, R341). -/
def Dev.recRegions (d : Dev) (c : Nat) (g : GraphHdr) (t : Task) (s : Nat) : List (Nat × Nat) :=
  let r := d.updRec c t.aux
  match d.gradTask g r.tensorId with
  | none => []
  | some (_, gt) => match d.taskTd g gt 0 0 with
    | none => []
    | some src =>
      let shape := (d.viewTd g r.tensorId 1).getD ((d.viewTd g r.tensorId 3).getD src)
      let i := d.collOfTask c gt
      let rg := i.range shape.elems i.rank
      let n := rg.2 - rg.1
      let q := d.regions g r shape
      let keep := [q.head] ++ (if r.round = 1 then [] else [q.tail]) ++ (if r.imgFmt = 0 then [] else [q.image]) ++ (if r.corr then [q.u, q.v] else [])
      let sizes := if r.prog = 3 then [n, n / max q.head.dim0 1, q.head.dim0] else List.replicate r.stateN n
      let base := if s = (d.ctx c).curSlot % 2 then (d.stateBases c r).1 else (d.stateBases c r).2
      keep.flatMap (fun t => (t.inSlot r s).runs) ++ [(base, 64 + (sizes.map (fun k => ceilDiv (k * r.stBytes) 64 * 64)).sum)]

/-- The update tasks of a context's resident graphs in a half, in record order, one for each record. -/
def Dev.updTasks (d : Dev) (c half : Nat) : List (GraphHdr × Task) :=
  let all := (d.ctx c).graphs.flatMap (fun x =>
    let g := d.readGraph x.image
    ((List.range g.taskCount).map (fun k => (g, d.graphTask g k))).filter (fun p => p.2.op = opUpdate && p.2.half % 2 = half))
  (List.range (d.updTable c).2).filterMap (fun i => all.find? (fun p => p.2.aux = i))

/-- The regions of a half's stream: 0 and 1 the copies, with the snapshot area in West; 2 the other allocations that carry PARITY,
by increasing address (R341). -/
def Dev.streamRegions (d : Dev) (c half s : Nat) : List (Nat × Nat) :=
  let copy (s : Nat) : List (Nat × Nat) :=
    let a := at' (d.ctx c).relief.snap s 0
    let area : List (Nat × Nat) := (d.allocs.filter (fun (x : Alloc) => x.ctx = c && x.base = a && a ≠ 0)).map (fun x => (x.base, x.extents * 2 ^ 21))
    (area ++ (d.updTasks c half).flatMap (fun (p : GraphHdr × Task) => d.recRegions c p.1 p.2 s)).filter (fun r => d.paritied c half r.1)
  if s < 2 then copy s
  else
    let used := copy 0 ++ copy 1
    let rest := d.allocs.filter (fun x => x.ctx = c && x.parity && tierOf x.base = 0 && halfOf x.base = half
      && !used.any (fun r => decide (x.base ≤ r.1) && decide (r.1 < x.base + x.extents * 2 ^ 21)))
    rest.foldl (fun l x => l.takeWhile (fun q => q.1 ≤ x.base) ++ (x.base, x.extents * 2 ^ 21) :: l.dropWhile (fun q => q.1 ≤ x.base)) []

/-- The units of a stream, each as its address and how many of its bytes are the region's: a region is padded to whole units. -/
def Dev.streamUnits (d : Dev) (c half s : Nat) : List (Nat × Nat) :=
  (d.streamRegions c half s).flatMap (fun r => (List.range (ceilDiv r.2 parityUnit)).map (fun i => (r.1 + i * parityUnit, min parityUnit (r.2 - i * parityUnit))))

/-- The bytes of unit i of a stream; a missing unit is zero (R341). -/
def Dev.unitBytes (d : Dev) (c half s i : Nat) : List Byte :=
  match (d.streamUnits c half s)[i]? with
  | some u => d.mem.readBytes u.1 u.2 ++ List.replicate (parityUnit - u.2) 0
  | none => List.replicate parityUnit 0

/-- h(j) of R342. -/
def holderOf (n j : Nat) : Nat := j % n
/-- unit_of of R342. -/
def dataUnitOf (n k j : Nat) : Nat := j - (j + n - 1 - k) / n
/-- U rounded up to a multiple of n − 1 (R341). -/
def unitsUp (n u : Nat) : Nat := ceilDiv u (n - 1) * (n - 1)
/-- R, the rows of a stream of U units (R342). -/
def streamRows (n u : Nat) : Nat := u * n / (n - 1)

/-- The number of a half's stream among the six. -/
def streamIx (half s : Nat) : Nat := half * 3 + s

/-- The digest of a unit of member k (R342): its 32-bit words in blocks of 32. -/
def unitDigest (seed epoch k : Nat) (data : List Byte) : Nat :=
  digest seed (0xFFFFFD * 256 + k) epoch 0 ((chunksOf 4 data).map (fun b => (leValue b : Int)))

/-- Where this device keeps the parity of a row that it holds: its parity unit j ÷ n of the stream (R342). -/
def parityKey (n half s j : Nat) : Nat := (streamIx half s * 2 ^ 32 + j / n) * parityUnit

/-- A row that this device holds is written, the parity and the digests of its data units (R342, R343). -/
def Dev.holdRow (d : Dev) (c : Nat) (w : ParityRow) : Dev :=
  let r := (d.ctx c).relief
  let u := at' r.units (streamIx w.half w.stream) 0
  if w.half < 2 ∧ w.stream < 3 ∧ w.row < streamRows r.n u ∧ holderOf r.n w.row = r.position then
    d.updCtx c (fun x => { x with relief := { x.relief with
      parity := x.relief.parity.writeBytes (parityKey r.n w.half w.stream w.row) (w.data.take parityUnit)
      digests := (x.relief.digests.filter (fun q => !(q.1 = streamIx w.half w.stream * 2 ^ 32 + w.row))) ++
        [(streamIx w.half w.stream * 2 ^ 32 + w.row, w.digests)] } })
  else d

/-- What this device gives to the chain of a row (R342, R343, R347): the parity where it holds the row, otherwise its data unit
with the unit's digest. -/
def Dev.rowTerm (d : Dev) (c half s j : Nat) : ParityRow :=
  let r := (d.ctx c).relief
  if holderOf r.n j = r.position then
    { half := half, stream := s, row := j, data := r.parity.readBytes (parityKey r.n half s j) parityUnit
      digests := ((r.digests.find? (fun q => q.1 = streamIx half s * 2 ^ 32 + j)).map (·.2)).getD [], poison := false }
  else
    let i := dataUnitOf r.n r.position j
    let data := d.unitBytes c half s i
    { half := half, stream := s, row := j, data := data, digests := [unitDigest (d.seedOf c) r.epoch r.position data]
      poison := match (d.streamUnits c half s)[i]? with | some u => (d.poisoned? u.1 u.2).isSome | none => false }

/-- The terms of the rows of a half's stream that a test picks go out. -/
def Dev.sendRows (d : Dev) (c half s : Nat) (pick : Nat → Bool) : Dev :=
  let r := (d.ctx c).relief
  ((List.range (streamRows r.n (at' r.units (streamIx half s) 0))).filter pick).foldl (fun d j => d.emit (.parityTerm c (d.rowTerm c half s j))) d

/-- The streams' unit counts before an upkeep has told those of the other members: this device's own. -/
def Dev.ownUnits (d : Dev) (c : Nat) : Dev :=
  let us := (List.range 6).map (fun i => unitsUp (d.ctx c).relief.n (d.streamUnits c (i / 3) (i % 3)).length)
  d.updCtx c (fun x => { x with relief := { x.relief with units := us } })

/-- The upkeep of a commit in this device (R341, R343): U of each stream from the largest unit count in the ring, the data units of
the current copy and the static stream to their rows, and the rows that it holds. -/
def Dev.upkeep (d : Dev) (c step : Nat) (counts : List Nat) (rows : List ParityRow) : Dev :=
  let n := (d.ctx c).relief.n
  let us := (List.range 6).map (fun i => unitsUp n (max (at' counts i 0) (d.streamUnits c (i / 3) (i % 3)).length))
  let d1 := d.updCtx c (fun x => { x with relief := { x.relief with units := us, epoch := step } })
  let r := (d1.ctx c).relief
  let todo := if r.firstUpkeep then [(d.ctx c).curSlot % 2, 2] else [0, 1, 2]
  let d2 := ([0, 1].flatMap (fun h => todo.map (fun s => (h, s)))).foldl (fun d p =>
    d.sendRows c p.1 p.2 (fun j => holderOf r.n j ≠ r.position)) d1
  rows.foldl (fun d w => d.holdRow c w) d2

/-- A survivor gives its term of every row to the chains that rebuild a member's units and its parity (R347, R351). -/
def Dev.rebuildFor (d : Dev) (c : Nat) : Dev :=
  ([0, 1].flatMap (fun h => [0, 1, 2].map (fun s => (h, s)))).foldl (fun d p => d.sendRows c p.1 p.2 (fun _ => true)) d

end Sys2Proof.Machine
end

