-- ==== Sys2Proof/Machine/Mailbox.lean ====
section
/-! DEFINITION. How the mailbox service takes a command entry, checks it and answers it (R396 to R405, R422, R492). -/

namespace Sys2Proof.Machine

/-- What a command's action answers: the device, its status and result words; `waits` where it has not finished and
tries again later, with a note for that moment; `silent` where the action has written its completion itself. -/
structure Reply where
  dev : Dev
  status : Status := 0
  words : List Nat := []
  waits : Bool := false
  note : Nat := 0
  silent : Bool := false
deriving DecidableEq, Repr

/-- An action that ended with a status and changed nothing. -/
def Dev.refuse (d : Dev) (st : Status) : Reply := { dev := d, status := st }
/-- An action that ended well. -/
def Dev.done (d : Dev) (ws : List Nat) : Reply := { dev := d, words := ws }
/-- An action that waits. -/
def Dev.wait (d : Dev) (note : Nat) : Reply := { dev := d, waits := true, note := note }

/-- What check 5 of R398 asks of the context field: none, a context of the session, or an orphaned one. -/
inductive CtxRule where
  | none
  | owned
  | adopt
deriving DecidableEq, Repr

/-- What the shared checks need to know of a command: whether its payload holds a value that its table does not list,
whether R405 marks it idempotent, its context rule, whether it is sess.hello, and whether only a session that owns no
context may send it (R404). -/
structure CmdKind where
  bad : Bool := false
  idem : Bool := false
  ctx : CtxRule := .none
  hello : Bool := false
  free : Bool := false
deriving DecidableEq, Repr

/-- The mailbox service takes entries: the device is at READY or beyond, and the service runs. -/
def Dev.mailboxUp (d : Dev) : Bool := decide (5 ≤ d.host.state) && at' d.fw.svc 5 0 = 0 && !d.fw.handing

/-- The service may take the entry now: its ring is enabled, no command of its ring set that waits names the same context,
and an entry with FENCE has no earlier command left (R398). -/
def Dev.takes (d : Dev) (h : Hdr) : Bool :=
  let busy := d.host.inflight.filter (fun x => x.h.set = h.set && !x.discard)
  d.mailboxUp && decide (h.set < 4) && (d.ring h.set).enabled && (!h.fence || busy.isEmpty)
  && busy.all (fun x => h.ctx = 0xFFFF || x.h.ctx ≠ h.ctx)

/-- The entry is taken: the head moves past it. -/
def Dev.take (d : Dev) (h : Hdr) : Dev :=
  let r := d.ring h.set
  d.setRing h.set { r with cmdHead := (h.index + 1) % r.size }

/-- A session owns a context. -/
def Dev.ownsCtx (d : Dev) (set : Nat) : Bool := (List.range 8).any (fun c => (d.ctx c).isOpen && decide ((d.ctx c).owner = some set))

/-- The context field of an entry fails check 5. -/
def Dev.ctxFail (d : Dev) (h : Hdr) (r : CtxRule) : Option Status :=
  match r with
  | .none => if h.ctx = 0xFFFF then none else some St.ctxInvalid
  | .owned =>
    let x := d.ctx h.ctx
    if 8 ≤ h.ctx ∨ ¬ x.isOpen then some St.ctxInvalid
    else if x.orphaned then some St.orphaned
    else if x.owner = some h.set then none else some St.ctxInvalid
  | .adopt =>
    let x := d.ctx h.ctx
    if h.ctx < 8 ∧ x.isOpen ∧ x.orphaned ∧ ¬ x.closing then none else some St.ctxInvalid

/-- The first check of R398 after the opcode's that an entry fails, then R404's. -/
def Dev.entryFail (d : Dev) (h : Hdr) (k : CmdKind) : Option Status :=
  if h.rsvd || k.bad then some St.reservedNonzero
  else if h.idem && !k.idem then some St.cmdFlags
  else if !k.hello && !(d.ring h.set).session then some St.sessionState
  else match d.ctxFail h k.ctx with
    | some st => some st
    | none => if k.free && d.ownsCtx h.set then some St.sessionState else none

/-- A command completes: its completion goes to its ring set. -/
def Dev.answer (d : Dev) (h : Hdr) (rescanned : Bool) (st : Status) (ws : List Nat) : Dev :=
  d.postCpl h.set { tag := h.tag, status := st, rescanned := rescanned, index := h.index, words := ws.map word }

/-- A command joins those that wait, at the end of the order of arrival (R208, R399). -/
def Dev.enqueue (d : Dev) (h : Hdr) (cmd : Instr) (note : Nat) : Dev :=
  { d with
    nextOrder := d.nextOrder + 1
    host := { d.host with
      inflight := d.host.inflight ++ [{ id := d.host.nextId, h := h, cmd := cmd, note := note, since := d.nextOrder }]
      nextId := d.host.nextId + 1 } }

/-- A command's first turn: taken, checked, and its action run; a command that waits enters the in-flight table. -/
def Dev.serve (d : Dev) (h : Hdr) (cmd : Instr) (k : CmdKind) (act : Dev → Reply) : Dev :=
  if !d.takes h then d
  else
    let d1 := d.take h
    match d1.entryFail h k with
    | some st => d1.answer h false st []
    | none =>
      let r := act d1
      if r.silent then r.dev
      else if r.waits then
        r.dev.enqueue h cmd r.note
      else r.dev.answer h false r.status r.words

/-- A command that waits has another turn: it completes unless it waits on. -/
def Dev.again (d : Dev) (x : Inflight) (act : Dev → Reply) : Dev :=
  if !d.host.inflight.contains x then d
  else
    let r := act d
    if r.waits then r.dev
    else
      let d1 : Dev := { r.dev with host := { r.dev.host with inflight := r.dev.host.inflight.filter (fun y => y.id ≠ x.id) } }
      if x.discard || r.silent then d1 else d1.answer x.h x.rescanned r.status r.words

/-! ## An opcode that names no command (R16) -/

/-- The opcodes of R405. -/
def assignedOpcode (n : Nat) : Bool :=
  (0x0001 ≤ n && n ≤ 0x0005) || (0x0101 ≤ n && n ≤ 0x0105) || (0x0201 ≤ n && n ≤ 0x0206) || (0x0301 ≤ n && n ≤ 0x0305)
  || (0x0401 ≤ n && n ≤ 0x0405) || (0x0501 ≤ n && n ≤ 0x0505) || (0x0510 ≤ n && n ≤ 0x0513) || (0x0601 ≤ n && n ≤ 0x0606)
  || (0x0701 ≤ n && n ≤ 0x0704) || (0x0801 ≤ n && n ≤ 0x0803)

/-- OPCODE_INVALID: an entry whose opcode R405 does not list completes with that status and has no other effect. -/
def opcodeInvalidEff (h : Hdr) (opcode : Nat) (d : Dev) : Dev :=
  if assignedOpcode opcode || !d.takes h then d else (d.take h).answer h false St.opcodeInvalid []

/-- OPCODE_INVALID -/
def execOpcodeInvalid (h : Hdr) (opcode : Nat) (s : State) : Host.Outcome State Fault Refusal := onDev (opcodeInvalidEff h opcode) s

end Sys2Proof.Machine
end

