-- ==== Sys2Proof/Machine/Graph.lean ====
section
/-! DEFINITION. Graph load and its checks, and the graph and step commands (R242, R264 to R269, R278 to R281, R287 to
R290, R293, R300). -/

namespace Sys2Proof.Machine

/-! ## The checks of graph.load (R279) -/

/-- The tasks of a graph with their indices. -/
def Dev.tasks (d : Dev) (g : GraphHdr) : List (Nat × Task) := (List.range g.taskCount).map (fun i => (i, d.graphTask g i))

/-- The context's allocations hold a table of n bytes at an address. -/
def Dev.tableOwned (d : Dev) (c a n : Nat) : Bool := n = 0 || (d.ctxOwns c a && d.ctxOwns c (a + n - 1))

/-- Counts and table sizes of a header (R278, R280). -/
def Dev.headerLimit (d : Dev) (c image : Nat) (g : GraphHdr) : Bool :=
  image % 64 ≠ 0 || !d.tableOwned c image 128
  || g.taskCount = 0 || decide (65536 < g.taskCount) || decide (32768 < g.sharedTds) || decide (32768 < g.mbTds)
  || g.mbMax = 0 || decide (256 < g.mbMax)
  || g.taskBase % 64 ≠ 0 || !d.tableOwned c g.taskBase (128 * g.taskCount)
  || !d.tableOwned c g.succBase (4 * g.succCount)
  || g.tdBase % 64 ≠ 0 || !d.tableOwned c g.tdBase (64 * (g.sharedTds + g.mbMax * g.mbTds))

/-- A TD index lies in its table (R266). -/
def GraphHdr.tdIndexOk (g : GraphHdr) (ix : Nat) : Bool :=
  ix = 0xFFFF || (if ix < 0x8000 then decide (ix < g.sharedTds) else decide (ix - 0x8000 < g.mbTds))

/-- Check 1: counts, sizes, successor and TD indices, stages (R278, R280). -/
def Dev.limitBad (d : Dev) (c image : Nat) (g : GraphHdr) : Bool :=
  d.headerLimit c image g || decide (64 ≤ (d.ctx c).graphs.length)
  || (d.tasks g).any (fun p =>
    decide (g.succCount < p.2.succIndex + p.2.succCount) || (d.taskSuccs g p.2).any (fun k => decide (g.taskCount ≤ k))
    || p.2.tds.any (fun ix => !g.tdIndexOk ix) || decide (16 ≤ p.2.stage)
    || (d.isClassA && (decide (8 ≤ p.2.stage) || p.2.half ≠ 0)))

/-- Some of n bytes is not zero. -/
def Dev.anySet (d : Dev) (a n : Nat) : Bool := (d.mem.readBytes a n).any (· ≠ 0)

/-- Reserved parts of an operation's aux field (R265, R321). -/
def Task.auxReserved (t : Task) : Bool :=
  if t.op = opFmul ∨ t.op = opBmul ∨ t.op = opConvert ∨ t.op = opCombine ∨ t.op = opCopy then t.aux ≠ 0
  else if t.op = opHub then 4096 ≤ t.aux
  else if t.op = opCollective then 5 < t.aux % 16 || 2 < bits t.aux 7 4 || bits t.aux 31 31 ≠ 0 || bits t.aux 63 56 ≠ 0
  else false

/-- Check 2: reserved fields and codes of the image (R8, R264, R265, R278). -/
def Dev.imageReserved (d : Dev) (image : Nat) (g : GraphHdr) : Bool :=
  2 < g.stashPolicy || d.anySet (image + 0x0B) 1 || d.anySet (image + 0x0E) 2 || d.anySet (image + 0x24) 4 || d.anySet (image + 0x40) 64
  || (d.tasks g).any (fun p =>
    let t := p.2
    t.op = 0 || 9 < t.op || 256 ≤ t.flags || 1 < t.half || 1 < t.scope || 1 < t.replay || 2048 ≤ t.bindCount
    || 64 < t.appends || 8 < t.gathers || d.anySet (g.taskBase + 128 * p.1 + 0x44) 60 || t.auxReserved)
  || (List.range (g.sharedTds + g.mbMax * g.mbTds)).any (fun i => (d.readTd (g.tdBase + 64 * i)).reserved)

/-- The td positions that an operation's table row gives (R265); a VU task's are those its kernel names. -/
def Dev.rolesBad (d : Dev) (t : Task) : Bool :=
  let has (k : Nat) : Bool := at' t.tds k 0xFFFF ≠ 0xFFFF
  if t.op = opVu then
    let k := d.kernel (t.aux % 65536)
    decide (d.kernels ≤ t.aux % 65536) || !has k.shape
  else (List.range 6).any (fun k => has k && !((d.roles t).any (fun r => r.1 = k)))

/-- Two runs of bytes share one. -/
def runsMeet (a b : Nat × Nat) : Bool := decide (a.1 < b.1 + b.2) && decide (b.1 < a.1 + a.2)

/-- A task writes into what another writes (R269): a tensor that both name by its id, or bytes that both name, in any micro-batch; two
micro-batches have stash spaces of their own (R245). -/
def Dev.writesInto (d : Dev) (g : GraphHdr) (t u : Task) : Bool :=
  let outs (t : Task) (m : Nat) : List TD := ((d.named g t m).filter (fun q => q.2.1)).map (fun q => q.2.2)
  let mbs (t : Task) : List Nat := if t.scope = 1 then [0] else List.range g.mbMax
  (mbs t).any (fun m => (mbs u).any (fun k => (outs t m).any (fun a => (outs u k).any (fun b =>
    (decide (a.tensorId ≠ 0) && decide (a.tensorId = b.tensorId))
    || ((m = k || decide (tierOf a.base ≠ 1)) && a.runs.any (fun r => b.runs.any (runsMeet r)))))))

/-- A task's flags, scope, stage and replay class break R264 to R269 or R286. -/
def Dev.taskInvalid (d : Dev) (c : Nat) (g : GraphHdr) (i : Nat) (t : Task) : Bool :=
  t.half ≠ (if t.stage < 8 then 0 else 1)
  || (t.forward && t.backward) || (t.recompute && !t.forward)
  || (t.scope = 1 && t.tds.any (fun ix => decide (0x8000 ≤ ix) && decide (ix ≠ 0xFFFF)))
  || (t.replay = 1 && (!(t.op = opHub || t.op = opCopy)
      || (d.taskPreds g i).any (fun k => (d.graphTask g k).replay = 0)
      || (d.tasks g).any (fun p => p.1 ≠ i && d.writesInto g t p.2)))
  || (t.partial? && (!(t.op = opFmul || t.op = opBmul) || t.acc || t.ladder || t.appends + t.gathers ≠ 0
      || at' t.tds 3 0xFFFF ≠ 0xFFFF || at' t.tds 4 0xFFFF ≠ 0xFFFF))
  || at' g.window t.stage 0 = 0
  || (t.op = opHub && srcCtx (t.aux % 4096) ≠ some c)
  || d.rolesBad t

/-- A COLLECTIVE task breaks R322 or R323. -/
def Dev.collInvalid (d : Dev) (c : Nat) (g : GraphHdr) (i : Nat) (t : Task) : Bool :=
  t.op = opCollective &&
  (decide (0xFE0000 ≤ auxColl t.aux)
   || (d.tasks g).any (fun p => p.1 ≠ i && p.2.op = opCollective && auxColl p.2.aux = auxColl t.aux)
   || ((d.ctx c).groups.get [] (auxGroup t.aux)).countP (fun m => decide (m % 32768 = memberOf (d.ctx c).logical t.half)) ≠ 1)

/-- Check 3. -/
def Dev.graphInvalid (d : Dev) (c : Nat) (g : GraphHdr) : Bool :=
  (d.tasks g).any (fun p => d.taskInvalid c g p.1 p.2 || d.collInvalid c g p.1 p.2)

/-- The members of the sets that R113 orders: the tasks that write one tensor where any of them has ACC, in task order. -/
def Dev.accSets (d : Dev) (g : GraphHdr) : List (List Nat) :=
  let ids := (((d.tasks g).flatMap (fun p => if p.2.acc then (d.writtenIds g p.2 0) else [])).dedup).filter (· ≠ 0)
  ids.map (fun id => ((d.tasks g).filter (fun p => (d.writtenIds g p.2 0).contains id)).map (·.1))

/-- The instances of a graph over its first micro-batches, as (task, micro-batch); two show every cycle, since only a
scope-1 task and the ACC order join micro-batches. -/
def Dev.nodes (d : Dev) (g : GraphHdr) : List (Nat × Nat) :=
  (d.tasks g).flatMap (fun p => if p.2.scope = 1 then [(p.1, 0)] else (List.range (min g.mbMax 2)).map (fun m => (p.1, m)))

/-- Consecutive elements of a list. -/
def links {α : Type} (l : List α) : List (α × α) := l.zip l.tail

/-- The edges between instances: those of R267 and the ACC order of R113. -/
def Dev.edges (d : Dev) (g : GraphHdr) : List ((Nat × Nat) × (Nat × Nat)) :=
  let ns := d.nodes g
  let scope (i : Nat) : Nat := (d.graphTask g i).scope
  let own := (d.tasks g).flatMap (fun p => (d.taskSuccs g p.2).flatMap (fun k =>
    (ns.filter (fun n => n.1 = p.1)).flatMap (fun n => (ns.filter (fun m => m.1 = k && (scope p.1 = 1 || scope k = 1 || m.2 = n.2))).map
      (fun m => (n, m)))))
  let acc := (d.accSets g).flatMap (fun s =>
    links ((List.range (min g.mbMax 2)).flatMap (fun m => (s.filter (fun i => ns.contains (i, m))).map (fun i => (i, m)))))
  own ++ acc

/-- What is left of a set of nodes once those that no remaining edge enters are taken out again and again. -/
def peel (es : List ((Nat × Nat) × (Nat × Nat))) : Nat → List (Nat × Nat) → List (Nat × Nat)
  | 0, ns => ns
  | n + 1, ns =>
    let rest := ns.filter (fun x => es.any (fun e => e.2 = x && ns.contains e.1))
    if rest.length = ns.length then ns else peel es n rest

/-- Check 4: predecessor counts, and a cycle (R113, R279). -/
def Dev.cyclic (d : Dev) (g : GraphHdr) : Bool :=
  let into := (d.tasks g).flatMap (fun p => d.taskSuccs g p.2)
  (d.tasks g).any (fun p => into.countP (· = p.1) ≠ p.2.predCount)
  || !(peel (d.edges g) ((d.nodes g).length + 1) (d.nodes g)).isEmpty

/-- Check 5: a hint that the tier of the base does not allow (R242). -/
def TD.hintBad (t : TD) : Bool :=
  let tier := tierOf t.base
  match t.hint with
  | 1 => tier ≠ 1
  | 2 | 3 => tier ≠ 0
  | 4 => tier ≠ 8
  | 5 => tier ≠ 0 && tier ≠ 8
  | 6 => tier ≠ 2
  | 7 => tier ≠ 0 && tier ≠ 1
  | _ => false

/-- Check 5 over the TD table. -/
def Dev.hintsBad (d : Dev) (g : GraphHdr) : Bool :=
  (List.range (g.sharedTds + g.mbMax * g.mbTds)).any (fun i => (d.readTd (g.tdBase + 64 * i)).hintBad)

/-- A successor of a ladder conversion that reads its target as operand A breaks R146. -/
def Dev.ladderReaderBad (d : Dev) (c : Nat) (g : GraphHdr) (u : Task) (m : Nat) : Bool :=
  !(u.op = opFmul && u.ladder && u.forward)
  || (match d.taskTd g u m 1 with
      | some b => !(bit b.flags 3) || !((d.updRecs c).any (fun r => r.tensorId = b.tensorId))
      | none => true)

/-- A buffer is sized for BF16: every stride of a dimension above 1 leaves room for a BF16 row (R146, log entry 56). -/
def TD.holdsBf16 (y : TD) : Bool :=
  [(y.dim1, y.stride1), (y.dim2, y.stride2), (y.dim3, y.stride3)].all (fun q => decide (q.1 ≤ 1) || decide (2 * y.dim0 ≤ 64 * q.2))

/-- A conversion with LADDER breaks R146 or R148. -/
def Dev.ladderConvBadAt (d : Dev) (c : Nat) (g : GraphHdr) (t : Task) (m : Nat) : Bool :=
  match d.taskTd g t m 0, d.taskTd g t m 1 with
  | some s, some y =>
    let readers := ((d.taskSuccs g t).map (d.graphTask g)).filter (fun u => at' u.tds 0 0xFFFF = at' t.tds 1 0xFFFF)
    !(s.fmt = 8 || s.fmt = 0xA) || !(y.fmt = 1 || y.fmt = 2 || y.fmt = 4)
    || !y.holdsBf16
    || readers.isEmpty || readers.any (fun u => d.ladderReaderBad c g u m)
    || (t.recompute && ((d.tasks g).filter (fun p => p.2.op = opConvert && p.2.ladder && !p.2.recompute &&
        (match d.taskTd g p.2 m 1 with | some z => decide (z.tensorId = y.tensorId) | none => false))).length ≠ 1)
  | _, _ => true

/-- A ladder conversion breaks the rules of R146 or R148 in some micro-batch. -/
def Dev.ladderConvBad (d : Dev) (c : Nat) (g : GraphHdr) (t : Task) : Bool :=
  (List.range (if t.scope = 1 then 1 else max 1 g.mbMax)).any (d.ladderConvBadAt c g t)

/-- A product with LADDER reads what a ladder conversion before it writes. -/
def Dev.ladderUseBad (d : Dev) (g : GraphHdr) (i : Nat) (t : Task) : Bool :=
  !((d.taskPreds g i).any (fun k =>
    let p := d.graphTask g k
    p.op = opConvert && p.ladder && at' p.tds 1 0xFFFF = at' t.tds 0 0xFFFF))

/-- Check 6: ladder structure (R146, R148). -/
def Dev.ladderBad (d : Dev) (c : Nat) (g : GraphHdr) : Bool :=
  (d.tasks g).any (fun p => p.2.ladder &&
    (if p.2.op = opConvert then d.ladderConvBad c g p.2
     else if p.2.op = opFmul then d.ladderUseBad g p.1 p.2 else true))

/-- Check 7: the update records, then version views and image slots (R164). -/
def Dev.recordsFail (d : Dev) (c : Nat) (g : GraphHdr) : Option Status :=
  let ups := (d.tasks g).filter (fun p => p.2.op = opUpdate)
  match ups.findSome? (fun p => d.recordFail c g p.1) with
  | some st => some st
  | none =>
    let tds := (List.range (g.sharedTds + g.mbMax * g.mbTds)).map (fun i => d.readTd (g.tdBase + 64 * i))
    if tds.any (d.viewBad c) then some St.graphInvalid
    else if (d.tasks g).any (fun p => p.2.op ≠ opUpdate && (List.range (max 1 g.mbMax)).any (fun m =>
        (d.named g p.2 m).any (fun q => q.2.1 && d.imgSlotBad c g p.2.half q.2.2))) then some St.trackerInvalid
    else none

/-- What R143 compares of two graphs: trainable tensors, tracker slots, collectives in order. -/
def Dev.formKey (d : Dev) (g : GraphHdr) : List Nat × List Nat × List Nat :=
  let tds := (List.range (g.sharedTds + g.mbMax * g.mbTds)).map (fun i => d.readTd (g.tdBase + 64 * i))
  (((tds.filter (fun t => bit t.flags 3)).map (·.tensorId)).dedup.mergeSort (· ≤ ·),
   ((tds.filter (fun t => t.tracker ≠ 0xFFFFFFFF)).map (·.tracker)).dedup.mergeSort (· ≤ ·),
   ((d.tasks g).filter (fun p => p.2.op = opCollective)).map (fun p => p.2.aux))

/-- The wide form's forward products run at MXFP8_E4M3 or BF16 (R143). -/
def Dev.wideFormats (d : Dev) (w : GraphHdr) : Bool :=
  let ok (f : Nat) : Bool := f = 4 || f = 8
  (d.tasks w).all (fun p => !(p.2.forward && (p.2.op = opFmul || p.2.op = opBmul)) ||
    ((d.gatherBinds p.2).all (fun b => ok b.fmt) && (List.range (max 1 w.mbMax)).all (fun m =>
      [0, 1].all (fun k => match d.taskTd w p.2 m k with
        | some t => ok t.fmt
        | none => true))))

/-- Check 8: the linked graphs. -/
def Dev.formsBad (d : Dev) (c : Nat) (g : GraphHdr) : Bool :=
  let there (x : Nat) : Bool := x = 0xFF || ((d.ctx c).graph? x).isSome
  !there g.wide || !there g.recompute
  || (match (if g.wide = 0xFF then none else d.stepGraph c g.wide) with
      | some w => !d.wideFormats w || d.formKey w ≠ d.formKey g
      | none => false)

/-- The status with which graph.load refuses an image, none where it loads (R279). -/
def Dev.graphFail (d : Dev) (c image : Nat) : Option Status :=
  let g := d.readGraph image
  if d.headerLimit c image g then some St.graphLimit
  else if d.limitBad c image g then some St.graphLimit
  else if d.imageReserved image g then some St.reservedNonzero
  else if d.graphInvalid c g then some St.graphInvalid
  else if d.cyclic g then some St.graphCycle
  else if d.hintsBad g then some St.hintMismatch
  else if d.ladderBad c g then some St.shapeMismatch
  else match d.recordsFail c g with
    | some st => some st
    | none => if d.formsBad c g then some St.graphInvalid else none

/-! ## graph.load and graph.unload -/

/-- The lowest graph id of a context that no resident graph has. -/
def Ctx.freeGraph (x : Ctx) : Nat := ((List.range 64).find? (fun i => (x.graph? i).isNone)).getD 0

/-- graph.load: the graph becomes resident, and the sources of its HUB tasks follow their instances (R279, R440). -/
def Dev.graphLoad (d : Dev) (c image : Nat) : Reply :=
  match d.graphFail c image with
  | some st => d.refuse st
  | none =>
    let gid := (d.ctx c).freeGraph
    (d.updCtx c (fun x => { x with graphs := x.graphs ++ [{ gid := gid, image := image }] })).done [gid]

/-- A step of a context holds a graph: it is the step's, or a form the step may run (R281). -/
def Dev.graphHeld (d : Dev) (c gid : Nat) : Bool :=
  (d.ctx c).anyStep (fun r => r.p.graph = gid)
  || (d.ctx c).graphs.any (fun g => g.gid ≠ gid &&
      (decide ((d.readGraph g.image).wide = gid) || decide ((d.readGraph g.image).recompute = gid)))

/-- graph.unload: the guard is lifted and the id is free (R281); an id that names no resident graph is refused. -/
def Dev.graphUnload (d : Dev) (c gid : Nat) : Reply :=
  if ((d.ctx c).graph? gid).isNone then d.refuse St.graphInvalid
  else if d.graphHeld c gid then d.refuse St.graphBusy
  else (d.updCtx c (fun x => { x with graphs := x.graphs.filter (fun g => g.gid ≠ gid) })).done []

/-! ## Steps (R289, R290, R293, R300) -/

/-- SEQ's bounds: at most 4 stages of the device used, and at most 8 micro-batches (R287). -/
def Dev.seqFits (d : Dev) (g : GraphHdr) (mbs : Nat) : Bool :=
  decide ((((d.tasks g).map (fun p => p.2.stage)).dedup).length ≤ 4) && decide (mbs ≤ 8)

/-- The step parameters as the step carries them: the schedule that DEFAULT selects. -/
def Dev.stepParams (d : Dev) (g : GraphHdr) (p : StepParams) : StepParams :=
  { p with schedule := if p.schedule = 0 then (if d.seqFits g p.mbCount then 1 else 2) else p.schedule }

/-- A submit repeats a step already loaded, running or committed, with the same parameters (R300). -/
def Dev.sameStep (d : Dev) (c : Nat) (p : StepParams) : Bool := (d.ctx c).submits.contains p

/-- step.submit: a step is loaded (R289, R290, R300). -/
def Dev.stepSubmit (d : Dev) (c : Nat) (p : StepParams) : Reply :=
  let x := d.ctx c
  if d.sameStep c p then d.done [p.step]
  else if x.relief.state = 5 then d.refuse St.reliefFailed
  else match d.stepGraph c p.graph with
    | none => d.refuse St.graphInvalid
    | some g =>
      let q := d.stepParams g p
      let ahead := if x.older.isSome then 1 else 0
      if 3 < p.schedule then d.refuse St.scheduleInvalid
      else if p.mbCount = 0 ∨ g.mbMax < p.mbCount then d.refuse St.graphLimit
      else if p.schedule = 1 ∧ ¬ d.seqFits g p.mbCount then d.refuse St.scheduleInvalid
      else if x.newer.isSome ∨ p.step ≠ (x.stepCnt + 1 + ahead) % 2 ^ 32 then d.refuse St.stepState
      else
        let r : StepRun := { p := q, startBell := if p.startBell = 0 then d.bell + 1 else p.startBell }
        (d.updCtx c (fun x =>
          let x := { x with submits := x.submits ++ [p] }
          if x.older.isSome then { x with newer := some r } else { x with older := some r })).done [p.step]

/-- step.abort ends once its step has ended, and answers with the status with which it did (R293, R300). -/
def Dev.stepAbortAgain (d : Dev) (c step : Nat) : Reply :=
  let x := d.ctx c
  if x.anyStep (fun r => r.p.step = step) then d.wait 1
  else match x.lastEnded.find? (fun e => e.1 = step) with
    | some e => d.done [e.2.toNat]
    | none => d.refuse St.stepState

/-- step.abort (R290, R293): a loaded step ends at once; a step in an attempt, or sealing with its vote not posted, takes the cause and
ends through the abandon exchange. -/
def Dev.stepAbort (d : Dev) (c step : Nat) : Reply :=
  let x := d.ctx c
  let act (newer : Bool) (r : StepRun) : Reply :=
    if r.state = 1 then (d.endStep c newer St.stepAborted).stepAbortAgain c step
    else if r.state = 4 ∨ (r.state = 3 ∧ r.voted) then d.refuse St.stepState
    else (d.declare c newer St.stepAborted clsAbort none).stepAbortAgain c step
  match x.older, x.newer with
  | some r, n =>
    if r.p.step = step then act false r
    else match n with
      | some q => if q.p.step = step then act true q else d.refuse St.stepState
      | none => d.refuse St.stepState
  | none, _ => d.refuse St.stepState

/-- step.query: ONS_CTX_STATE, step counter, last status, replays used. -/
def Dev.stepQuery (d : Dev) (c : Nat) : Reply :=
  d.done [d.onsWord c 0x04, (d.ctx c).stepCnt, (d.ctx c).lastStatus.toNat, (((d.ctx c).older).map (fun r => r.replays)).getD 0]

end Sys2Proof.Machine
end

