-- ==== Sys2Proof/Machine/MemCmds.lean ====
section
/-! DEFINITION. What the memory and KV commands of the mailbox do (R218 to R221, R229, R237 to R241, R493). -/

namespace Sys2Proof.Machine

/-- The low and high word of a 64-bit result. -/
def twoWords (n : Nat) : List Nat := [n % 2 ^ 32, n / 2 ^ 32]

/-! ## Memory (R241, R493) -/

/-- A command's answer, or its wait. -/
def MemRes.reply (r : MemRes) (ws : Nat → List Nat) : Reply :=
  match r with
  | .ends st v d => if st = St.ok then d.done (ws v) else d.refuse st
  | .waits d => d.wait 0

/-- mem.alloc; `note` is the status of an eviction of its that has failed. -/
def Dev.memAllocCmd (d : Dev) (c bytes half hint flags id note : Nat) : Reply :=
  if note ≠ 0 then d.refuse St.hbmExhausted else (d.memAlloc (.cmd c id) c bytes half hint (bit flags 0)).reply twoWords

/-- mem.free -/
def Dev.memFreeCmd (d : Dev) (c dpa : Nat) : Reply :=
  match d.allocsAt c dpa with
  | [] => d.refuse St.allocInvalid
  | l => (l.foldl Dev.memFree d).done []

/-- Allocations take a hint. -/
def Dev.setHint (d : Dev) (l : List Alloc) (hint : Nat) : Dev :=
  { d with allocs := d.allocs.map (fun (a : Alloc) => if l.contains a then { a with hint := hint } else a) }

/-- The evicted extents of allocations. -/
def Dev.goneExts (d : Dev) (l : List Alloc) : List Nat := (l.flatMap Alloc.exts).filter (fun e => (d.extent e).evicted)

/-- mem.hint with HBM_PINNED on extents that are evicted: they are fetched first, in HBM extents that are free or made free
(R239 to R241). A fetch that fails ends the command with the status of the failure, which is then its note. -/
def Dev.hintPin (d : Dev) (c : Nat) (l : List Alloc) (id note : Nat) : Reply :=
  let gone := d.goneExts l
  if gone.isEmpty then (d.setHint l 2).done []
  else if note ≠ 0 then d.refuse (BitVec.ofNat 16 note)
  else
    let r := d.fetchFor (.cmd c id) 6 gone
    if r.2 = .fail then r.1.refuse St.hbmExhausted else r.1.wait 0

/-- mem.hint with DEEP: the resident extents move to the deep tier at once; a held extent moves once it is held no more. -/
def Dev.hintDeep (d : Dev) (c : Nat) (l : List Alloc) (id note : Nat) : Reply :=
  let here := (l.flatMap Alloc.exts).filter (fun e => !(d.extent e).evicted && !d.fixedExt e)
  let rest := here.filter (fun e => (d.extent e).moving = 0)
  if here.isEmpty then (d.setHint l 4).done []
  else if note ≠ 0 then d.refuse (BitVec.ofNat 16 note)
  else if here.any d.heldExt then d.wait 0
  else if d.deepLeft c < rest.length then d.refuse St.quotaExceeded
  else if d.deepFree.length < rest.length then d.refuse St.hbmExhausted
  else (rest.foldl (fun d e => (d.evictExt (.cmd c id) e).1) d).wait 0

/-- mem.hint. An allocation in the deep tier keeps DEEP, the one hint that its tier has (R242). -/
def Dev.memHintCmd (d : Dev) (c dpa hint id note : Nat) : Reply :=
  match d.allocsAt c dpa with
  | [] => d.refuse St.allocInvalid
  | a :: l =>
    if tierOf a.base = 8 then (if hint = 4 then d.done [] else d.refuse St.hintMismatch)
    else if hint = 2 then d.hintPin c (a :: l) id note
    else if hint = 3 then (d.setHint (a :: l) 3).done []
    else if hint = 4 then d.hintDeep c (a :: l) id note
    else d.refuse St.hintMismatch

/-- A session may set and read a context's quotas (R241): its own, or every open one where it owns none. -/
def Dev.mayQuota (d : Dev) (set c : Nat) : Bool :=
  c < 8 && (d.ctx c).isOpen && (decide ((d.ctx c).owner = some set) || !d.ownsCtx set)

/-- mem.quota; `note` is the status of an eviction of its that has failed. -/
def Dev.memQuotaCmd (d : Dev) (set c half hbm deep id note : Nat) : Reply :=
  if !d.mayQuota set c then d.refuse St.ctxInvalid
  else if note ≠ 0 then d.refuse St.quotaExceeded
  else (d.memQuota (.cmd c id) c (if half = 2 then [0, 1] else [half]) hbm deep).reply (fun _ => [])

/-- mem.query: HBM used in each half, deep used, evicted extents. -/
def Dev.memQueryCmd (d : Dev) (set c : Nat) : Reply :=
  if !d.mayQuota set c then d.refuse St.ctxInvalid
  else d.done [d.hbmUsed c 0, d.hbmUsed c 1, d.deepUsed c,
    (((d.ctxExtents c false 0) ++ (d.ctxExtents c false 1)).filter (fun e => (d.extent e.2).evicted)).length]

/-- mem.assign: the result is how many numbers were assigned or released. -/
def Dev.memAssignCmd (d : Dev) (c kind op half first count : Nat) : Reply :=
  let r := d.memAssign c kind op half first count
  if r.1 = St.ok then r.2.done [count] else d.refuse r.1

/-! ## KV (R229) -/

/-- A record that a command names is an open one of the commanding context. -/
def Dev.seqMine (d : Dev) (c a : Nat) : Bool := d.seqs.contains a && (d.seqRec a).ctx = c

/-- The guarded bytes that a new record would write name a status (R219, R281). -/
def Dev.createGuard (d : Dev) (c a : Nat) : Option Reply :=
  (d.guard? a 64).map (fun g => (d.guardRecord g 0xFFFF a (some c)).refuse g.2)

/-- A record that kv.create may not make (R207, R208, R493): its alignment and place, its pool, its table and its counts. -/
def Dev.createBad (d : Dev) (c a pt stats pool hq : Nat) : Bool :=
  let half := halfOf a
  a % 64 ≠ 0 || tierOf a ≠ 0 || !d.ctxOwns c a || pt % 64 ≠ 0 || !d.ctxOwns c pt || stats % 64 ≠ 0
  || 256 ≤ pool || decide ((d.pool (poolKey half pool)).owner ≠ some c) || hq = 0 || 256 < hq
  || decide (65536 ≤ (d.seqs.filter (fun s => halfOf s = half)).length)

/-- kv.create: the record is written and guarded, and its table becomes current. -/
def Dev.kvCreateCmd (d : Dev) (c a pt stats entries initLen pool hq flags : Nat) : Reply :=
  let half := halfOf a
  if d.seqs.contains a then d.refuse St.kvInvalid
  else match d.createGuard c a with
    | some r => r
    | none =>
      if d.createBad c a pt stats pool hq then d.refuse St.kvInvalid
      else match d.checkTable half pool pt entries none with
        | 0 =>
          if 16 * entries < initLen then d.refuse St.ptCapacity
          else
            let r : SeqRec := {
              ptPtr := pt, gen := 0, ptEntries := entries, committedLen := initLen, provLen := initLen, pool := pool,
              flags := 1 + flag (bit flags 1) 1, hq := hq, ctx := c, statsPtr := stats, lastBell := 0, walks := 0 }
            let d1 := (d.putSeq a r).shareTable half pool pt entries
            Dev.done { d1 with seqs := insertNat d1.seqs a } [0]
        | st => d.refuse st

/-- kv.swap: it waits behind another operation on the record, and for an entry of the list of retired tables. -/
def Dev.kvSwapCmd (d : Dev) (c a pt entries expGen since : Nat) : Reply :=
  if !d.seqMine c a then d.refuse St.kvInvalid
  else if d.seqWaits a since true then d.wait 0
  else if !d.ctxOwns c pt then d.refuse St.kvInvalid
  else
    let r := d.kvSwap a pt entries expGen none
    if r.1 = St.ok then r.2.2.done [(r.2.2.seqRec a).gen, flag r.2.1 0] else d.refuse r.1

/-- kv.set -/
def Dev.kvSetCmd (d : Dev) (c a index e expGen since : Nat) : Reply :=
  if !d.seqMine c a then d.refuse St.kvInvalid
  else if d.seqWaits a since false then d.wait 0
  else
    let r := d.kvSet a index e expGen
    if r.1 = St.ok then r.2.done [(r.2.seqRec a).gen] else d.refuse r.1

/-- kv.release -/
def Dev.kvReleaseCmd (d : Dev) (c a expGen since : Nat) : Reply :=
  if !d.seqMine c a then d.refuse St.kvInvalid
  else if d.seqWaits a since true then d.wait 0
  else
    let r := d.kvRelease a expGen
    if r.1 = St.ok then r.2.2.done [flag r.2.1 0] else d.refuse r.1

/-- kv.query: gen, committed length, provisional length, walks. -/
def Dev.kvQueryCmd (d : Dev) (c a : Nat) : Reply :=
  if !d.seqMine c a then d.refuse St.kvInvalid
  else
    let r := d.seqRec a
    d.done [r.gen, r.committedLen, r.provLen, r.walks]

end Sys2Proof.Machine
end

