-- ==== Sys2Proof/Machine/Session.lean ====
section
/-! DEFINITION. Sessions and contexts: what the session and context commands do, closing a context, leaving a job, and the
device reset (R331, R333, R354 to R356, R394, R401, R402, R407 to R411). -/

namespace Sys2Proof.Machine

/-! ## Closing a context (R402, R442, R448, R493) -/

/-- What a context holds is freed: allocations, slots, pools, sequences and tables, graphs; the context is closed. -/
def Dev.closeCtx (d : Dev) (c : Nat) : Dev :=
  let poolMine (half p : Nat) : Bool := decide ((d.pool (poolKey half p)).owner = some c)
  let live := (d.seqs.filter (fun a => (d.seqRec a).ctx = c)).map (fun a =>
      let r := d.seqRec a
      (halfOf a, r.pool, r.ptPtr, r.ptEntries))
    ++ (d.retired.filter (fun r => poolMine r.half r.pool)).map (fun r => (r.half, r.pool, r.table, r.entries))
  let d0 := live.foldl (fun d t => d.unshareTable t.1 t.2.1 t.2.2.1 t.2.2.2) d
  let d1 := (d0.allocs.filter (fun a => a.ctx = c)).foldl (fun d a => d.dropAlloc a) d0
  { d1 with
    ctxs := d1.ctxs.erase c
    slots := d1.slots.filter (fun (p : Nat × Slot) => p.2.owner ≠ some c)
    pools := d1.pools.filter (fun (p : Nat × Pool) => p.2.owner ≠ some c)
    seqs := d1.seqs.filter (fun a => (d.seqRec a).ctx ≠ c)
    retired := d1.retired.filter (fun (r : RetiredTable) => !poolMine r.half r.pool)
    deep := d1.deep.filter (fun (q : DeepReq) => q.ctx ≠ c) }

/-- A context starts to close: its sources are masked (R448), and a bound one leaves its job (R333). -/
def Dev.startClose (d : Dev) (c : Nat) : Dev :=
  ((d.leaveJob c).maskSources c).updCtx c (fun x => { x with closing := true })

/-- A closing context can close: it is bound no more, no step is left, and no handler of it runs. -/
def Dev.mayClose (d : Dev) (c : Nat) : Bool :=
  let x := d.ctx c
  x.closing && !x.bound && x.older.isNone && !d.handlerRuns c

/-- The contexts that can close do; a step that has not started does not keep one open. The host state follows (R394, R409). -/
def Dev.reapClosing (d : Dev) : Dev :=
  let d1 := upto 8 (fun c d =>
    let x := d.ctx c
    let d1 := match x.older with
      | some r => if x.closing && !x.bound && r.state = 1 then d.endStep c false St.stepAborted else d
      | none => d
    if d1.mayClose c then d1.closeCtx c else d1) d
  if d1.ctxs = d.ctxs then d else d1.settleHost

/-- A context is bound to its job no more; with the last one the device is JOINED again, or its leave is complete (R331). -/
def Dev.unbind (d : Dev) (c : Nat) : Dev :=
  let d1 := d.updCtx c (fun x => { x with bound := false, leaving := false, job := 0, logical := 0, groups := [], relief := {} })
  if (List.range 8).any (fun k => (d1.ctx k).bound) then d1
  else if d1.fab.state = 5 then { d1 with fab := { d1.fab with state := 3 } }
  else if d1.fab.state = 6 then d1.detach
  else d1

/-! ## Device reset (R388, R394, R419) -/

/-- A device reset: UNLOADED, with every register, context, session and engine as at power-up. What it leaves alone are
memory and its poison, the pit log, the units' histories, the bell count and the times, power and cooling, the host link and
what waits for the host, and what the firmware's MRAM keeps (R365, R377, R399, R428). -/
def Dev.deviceReset (d : Dev) : Dev :=
  let f := d.fw
  let d1 : Dev := {
    bell := d.bell, opUs := d.opUs, cycles := d.cycles, free := d.free, out := d.out, mem := d.mem, hostMem := d.hostMem
    poison := d.poison, clusters := d.clusters, log := d.log
    pwr := { d.pwr with telPeriod := 0, telBuf := 0, telIndex := 0, telDue := false, telCount := 0 }
    rw := d.rw.filter (fun (p : Nat × Word) => p.1 % 2 ^ 32 = 0x10000014)
    health := { d.health with canaries := [], parked := [none, none] }
    host := { linkUp := d.host.linkUp, badLambdas := d.host.badLambdas, width := d.host.width, state := d.host.state
              evt := { queue := d.host.evt.queue, dropped := d.host.evt.dropped, unreported := d.host.evt.unreported } }
    fab := { phys := 0, ports := d.fab.ports.map (fun (p : Nat × Port) => (p.1, p.2.down)), heartbeats := d.fab.heartbeats, hbState := d.fab.hbState }
    fw := { subs := f.subs, minSvn := f.minSvn, restarts := f.restarts, restartTimes := f.restartTimes, lastRestart := f.lastRestart
            absentMax := f.absentMax
            complexes := f.complexes.map (fun (x : Complex) => { out := x.out, tookOver := x.tookOver }) } }
  d1.hwLimits.hostState 0

/-! ## Sessions (R401, R408, R409, R411) -/

/-- sess.hello: version 1 is the only one; a grace of 0 keeps the device's. -/
def Dev.sessHello (d : Dev) (set verMin verMax grace : Nat) : Reply :=
  if 1 < verMin ∨ verMax < 1 then d.refuse St.versionUnsupported
  else if (d.ring set).session then d.refuse St.sessionState
  else if grace ≠ 0 ∧ (grace < 5 ∨ 600 < grace) then d.refuse St.reservedNonzero
  else
    let d1 := d.setRing set { d.ring set with session := true }
    let d2 : Dev := { d1 with host := { d1.host with grace := if grace = 0 then d1.host.grace else grace } }
    (d2.hostState 6).done [1, set, d2.host.fwVersion.toNat]

/-- A session ends. -/
def Dev.endSession (d : Dev) (set : Nat) : Dev := (d.setRing set { d.ring set with session := false }).settleHost

/-- The contexts a session owns. -/
def Dev.sessionCtxs (d : Dev) (set : Nat) : List Nat :=
  (List.range 8).filter (fun c => (d.ctx c).isOpen && decide ((d.ctx c).owner = some set))

/-- The contexts of a session start to close. -/
def Dev.leaveSession (d : Dev) (set : Nat) : Dev := (d.sessionCtxs set).foldl Dev.startClose d

/-- sess.bye: CLOSE, HANDOVER or LEAVE. A handed-over context is orphaned with the device's grace and the commands of the
session that wait lose their completions (R407). The result is how many contexts were affected. -/
def Dev.sessBye (d : Dev) (set mode : Nat) : Reply :=
  let l := d.sessionCtxs set
  if mode = 0 then
    if l.isEmpty then (d.endSession set).done [0] else d.refuse St.ctxBusy
  else if mode = 1 then
    let d1 := l.foldl Dev.orphanCtx d
    let d2 : Dev := { d1 with host := { d1.host with
      inflight := d1.host.inflight.map (fun (x : Inflight) => if x.h.set = set then { x with discard := true } else x) } }
    if l.isEmpty then (d2.endSession set).done [0]
    else (Dev.record (((d2.startGrace 5).endSession set).stick Sticky.orphaned) { type := Rt.host, status := St.orphaned }).done [l.length]
  else
    let d1 := (d.leaveSession set).reapClosing
    if (d1.sessionCtxs set).isEmpty then (d1.endSession set).done [l.length] else d1.wait l.length

/-- sess.bye with LEAVE ends once the last context of the session is closed. -/
def Dev.sessByeAgain (d : Dev) (set note : Nat) : Reply :=
  if (d.sessionCtxs set).isEmpty then (d.endSession set).done [note] else d.wait note

/-- sess.adopt: the context moves into the session when the token is its own. -/
def Dev.sessAdopt (d : Dev) (set c : Nat) (token : Word) : Reply :=
  if (d.ctx c).token ≠ token then d.refuse St.adoptToken
  else
    let d1 := d.updCtx c (fun x => { x with orphaned := false, owner := some set })
    let d2 : Dev := if d1.anyOrphan then d1 else Dev.fire { d1 with host := { d1.host with orphanCause := 0, orphanUs := 0 } } 1
    d2.done [d2.onsWord c 0x04, (d2.ctx c).stepCnt]

/-- Some context is bound to a job. -/
def Dev.anyBound (d : Dev) : Bool := (List.range 8).any (fun c => (d.ctx c).bound)

/-- sess.reset: level 0 closes the session's contexts, then ends it; level 1 resets the device once its completion is written,
with force after it has left every job. -/
def Dev.sessReset (d : Dev) (h : Hdr) (level force : Nat) : Reply :=
  let set := h.set
  if level = 0 then
    if (d.sessionCtxs set).any (fun c => (d.ctx c).older.isSome) then d.refuse St.ctxBusy
    else
      let d1 := (d.leaveSession set).reapClosing
      if (d1.sessionCtxs set).isEmpty then (d1.endSession set).done [] else d1.wait 0
  else if !d.anyBound then { dev := (d.answer h false St.ok []).deviceReset, silent := true }
  else if force = 1 then d.leaveAll.wait 0
  else d.refuse St.ctxBusy

/-- sess.reset goes on: once the contexts are closed, or the jobs have been left. -/
def Dev.sessResetAgain (d : Dev) (x : Inflight) (level : Nat) : Reply :=
  let set := x.h.set
  if level = 0 then
    if (d.sessionCtxs set).isEmpty then (d.endSession set).done [] else d.wait 0
  else if d.anyBound then d.wait 0
  else { dev := (if x.discard then d else d.answer x.h x.rescanned St.ok []).deviceReset, silent := true }

/-- The measurements that the responder's answers rest on (R412), as one message before a connection's first. -/
def Dev.measuredMsg (d : Dev) : List Byte := d.fw.measured.flatMap (leBytes 48)

/-- One SPDM request over the mailbox: the answer depends on the requests of its connection (R411). -/
def Dev.sessSpdm (d : Dev) (req reqBytes rsp rspMax : Nat) : Reply :=
  if reqBytes < 4 ∨ 4096 < reqBytes then d.refuse St.spdmTransport
  else
    let m := d.hostMem.readBytes req reqBytes
    let h := d.fw.spdmMbx ++ [m]
    let a := Config.spdmAnswer (d.measuredMsg :: h)
    let d1 : Dev := { d with fw := { d.fw with spdmMbx := h } }
    if rspMax < a.length ∨ 4096 < a.length then d1.refuse St.spdmTransport
    else (d1.storeHost rsp a).done [a.length]

/-! ## Contexts (R402) -/

/-- ctx.open: the lowest free context. -/
def Dev.ctxOpen (d : Dev) (set : Nat) : Reply :=
  match (List.range 8).find? (fun c => !(d.ctx c).isOpen) with
  | none => d.refuse St.ctxLimit
  | some c =>
    let t := Config.token d.free
    ((d.drawn.setCtx c { isOpen := true, owner := some set, token := t }).initSources c).done [c, t.toNat]

/-- ctx.close: refused while a step is left. -/
def Dev.ctxClose (d : Dev) (c : Nat) : Reply :=
  if (d.ctx c).older.isSome then d.refuse St.ctxBusy
  else
    let d1 := d.startClose c
    if d1.mayClose c then (d1.closeCtx c).settleHost.done [] else d1.wait 0

/-- ctx.close ends once the context is closed. -/
def Dev.ctxCloseAgain (d : Dev) (c : Nat) : Reply := if (d.ctx c).isOpen then d.wait 0 else d.done []

/-- The context stands at a step boundary: no step of it is under way. -/
def Dev.atBoundary (d : Dev) (c : Nat) : Bool := !(d.ctx c).anyStep (fun r => r.state ≠ 1)

/-- The snapshot goes to host memory, as much of it as the buffer takes. -/
def Dev.snapshotTo (d : Dev) (c buf room : Nat) : Reply :=
  let b := (d.snapshot c).take room
  (d.storeHost buf b).done [b.length]

/-- ctx.snapshot: at the next step boundary; the note is the step counter for which it waits to pass. -/
def Dev.ctxSnapshot (d : Dev) (c buf room : Nat) : Reply :=
  if d.atBoundary c then d.snapshotTo c buf room else d.wait (d.ctx c).stepCnt

/-- ctx.snapshot goes on. -/
def Dev.ctxSnapshotAgain (d : Dev) (c buf room note : Nat) : Reply :=
  if d.atBoundary c ∨ (d.ctx c).stepCnt ≠ note then d.snapshotTo c buf room else d.wait note

/-- ctx.query: owning ring set, ONS_CTX_STATE, step counter, FAB_RELIEF_STATE. -/
def Dev.ctxQuery (d : Dev) (set c : Nat) : Reply :=
  d.done [set, d.onsWord c 0x04, (d.ctx c).stepCnt, (d.ctx c).reliefWord 0]

/-! ## ctx.restore (R355, R402, R493) -/

/-- The slots (kind 4) or pools (kind 6) that a snapshot names in a half. -/
def snapNumbers (rd : Reader) (kind half : Nat) : List Nat :=
  match findSec rd kind half with
  | none => []
  | some (o, _) =>
    if kind = 4 then (List.range (rd (o + 8) 4)).map (fun i => rd (o + 12 + 96 * i) 4 % 4096)
    else (List.range (rd o 4)).map (fun i => rd (o + 8 + 52 * i) 4 % 256)

/-- An allocation of a snapshot cannot be made: its place is taken, outside the tier, or in a half without power. -/
def Dev.restoreClash (d : Dev) (a : Alloc) : Bool :=
  let top := a.base + a.extents * 2 ^ 21
  a.extents = 0 || a.base % 2 ^ 21 ≠ 0
  || (if tierOf a.base = 8 then decide (8 * 2 ^ 48 + deepCapacity * 2 ^ 21 < top)
      else tierOf a.base ≠ 0 || decide (halfOf a.base * 2 ^ 47 + hbmExtents * 2 ^ 21 < top) || !d.halfOn (halfOf a.base))
  || d.allocs.any (fun b => decide (b.base < top) && decide (a.base < b.base + b.extents * 2 ^ 21))

/-- A snapshot that the device can take: layout version 1, and within the bytes given. -/
def snapReadable (rd : Reader) (bytes : Nat) : Bool := 64 ≤ bytes && rd 0 2 = 1 && decide (snapBytes rd ≤ bytes)

/-- A number of a snapshot belongs to another context. -/
def Dev.restoreTaken (d : Dev) (rd : Reader) (c kind half : Nat) : Bool :=
  let ns := snapNumbers rd (if kind = 0 then 4 else 6) half
  !ns.isEmpty && (!d.halfOn half || ns.any (fun n => match d.ownerOf kind half n with | some o => o ≠ c | none => false))

/-- Phase 0: the context's allocations are freed and those of the snapshot recreated, with its slots and pools. -/
def Dev.restoreAllocs (d : Dev) (c : Nat) (rd : Reader) (bytes : Nat) : Reply :=
  if (d.ctx c).older.isSome then d.refuse St.ctxBusy
  else if !snapReadable rd bytes then d.refuse St.snapshotVersion
  else
    let x := d.ctx c
    let d0 := (d.closeCtx c).setCtx c { x with graphs := [], poisonCount := 0, repairs := [], restored := true }
    let l := snapAllocs rd c
    if l.any d0.restoreClash || [0, 1].any (fun h => d.restoreTaken rd c 0 h || d.restoreTaken rd c 1 h) then d.refuse St.allocInvalid
    else
      let d1 : Dev := { d0 with allocs := d0.allocs ++ l }
      let d2 := (l.flatMap Alloc.exts).foldl (fun (d : Dev) e => d.setExtent e { last := d.bell }) d1
      let o := ((findSec rd 2 0).map (·.1)).getD 0
      let d3 := if o = 0 then d2 else d2.updCtx c (fun x => { x with hbmQuota := [rd o 4, rd (o + 4) 4], deepQuota := rd (o + 8) 4 })
      let d4 := [0, 1].foldl (fun (d : Dev) h =>
        (snapNumbers rd 6 h).foldl (fun d n => d.assignOne c 1 h n)
          ((snapNumbers rd 4 h).foldl (fun d n => d.assignOne c 0 h n) d)) d3
      d4.done [l.length]

/-- The graphs of a snapshot are loaded under their ids; a check that fails names the status. -/
def Dev.restoreGraphs (d : Dev) (c : Nat) : List ResGraph → Status × Dev
  | [] => (St.ok, d)
  | g :: gs =>
    match d.graphFail c g.image with
    | some st => (st, d)
    | none => Dev.restoreGraphs (d.updCtx c (fun x => { x with graphs := x.graphs ++ [g] })) c gs

/-- The hub cores of a restored context start with no register state, at its restore source in each half (R356). -/
def Dev.startHubCode (d : Dev) (c half : Nat) : Dev :=
  let l := (List.range 48).filter (fun k => decide (d.hubCtx half k = some c))
  if l.isEmpty then d
  else
    (l.foldl (fun d k => d.setHub (hubKey half k) { d.hub (hubKey half k) with regs := {} }) d).ring! half (256 + 480 * c)

/-- Phase 1: the sections are written as committed state, the graphs loaded, and the context left IDLE and UNARMED. What
binds the context to a job stays as it was. -/
def Dev.restoreSections (d : Dev) (c : Nat) (rd : Reader) (bytes : Nat) : Reply :=
  let x := d.ctx c
  if !x.restored ∨ x.older.isSome then d.refuse St.ctxBusy
  else if !snapReadable rd bytes then d.refuse St.snapshotVersion
  else
    if [0, 1].any (fun h => d.halfOn h && d.kvSecGuarded rd h) then d.refuse St.ptGeneration else
    let d1 := [0, 1].foldl (fun (d : Dev) h =>
      if d.halfOn h then ((d.takeGroups rd c h).takeSlots rd c h).takeKv rd c h else d) d
    let d2 := ((d1.takeUpdate rd c).takeFabric rd c).updCtx c (fun y => { y with
      stepCnt := rd 4 4, commitBell := rd 8 8, bound := x.bound, job := x.job, logical := x.logical
      relief := {}, restored := false, lastSubmit := none, lastEnded := [], submits := [] })
    let r := d2.restoreGraphs c (snapGraphs rd)
    if r.1 ≠ St.ok then d.refuse r.1
    else
      let d3 := r.2.initSources c
      let d4 := upto 2 (fun h d => d.startHubCode c h) d3
      d4.done [(d4.ctx c).stepCnt]

/-- ctx.restore, from a snapshot in host memory. -/
def Dev.ctxRestore (d : Dev) (c buf bytes phase : Nat) : Reply :=
  let rd : Reader := fun o n => d.hostMem.readLE (buf + o) n
  if phase = 0 then d.restoreAllocs c rd bytes else d.restoreSections c rd bytes

/-! ## The end of the orphan grace (R409) -/

/-- ORPHAN_GRACE_EXPIRY: every context not adopted leaves its job and closes. -/
def orphanGraceExpiryEff (d : Dev) : Dev :=
  if d.host.orphanCause = 0 ∨ 0 < d.host.orphanUs then d
  else
    let l := (List.range 8).filter (fun c => (d.ctx c).isOpen && (d.ctx c).orphaned && !(d.ctx c).closing)
    (l.foldl Dev.startClose d).reapClosing.settleHost

/-- ORPHAN_GRACE_EXPIRY -/
def execOrphanGraceExpiry (s : State) : Host.Outcome State Fault Refusal := onDev orphanGraceExpiryEff s

end Sys2Proof.Machine
end

