-- ==== Sys2Proof/Machine/Relief.lean ====
section
/-! DEFINITION. Relief (chapter 12): parity rings, the agents that lead a relief, spares, the remap switch, the resume and
the roll-back (R340 to R357), with the relief commands and the events of the sequence. -/

namespace Sys2Proof.Machine

/-! ## Where the devices of a job are (R308, R309, R347) -/

/-- A physical id with coordinate k replaced. -/
def setCoord (phys k v : Nat) : Nat :=
  (if k = 0 then v else coordOf phys 0) + 16 * (if k = 1 then v else coordOf phys 1) + 256 * (if k = 2 then v else coordOf phys 2)
  + 2048 * (if k = 3 then v else coordOf phys 3)

/-- The torus neighbour of a device in a direction. -/
def neighbour (dims : List Nat) (phys k : Nat) (plus : Bool) : Nat :=
  let n := at' dims k 1
  setCoord phys k ((coordOf phys k + (if plus then 1 else n - 1)) % n)

/-- The torus neighbours of a device. -/
def neighbours (dims : List Nat) (phys : Nat) : List Nat :=
  (((List.range 4).flatMap (fun k => [neighbour dims phys k true, neighbour dims phys k false])).dedup).filter (· ≠ phys)

/-- The contexts of this device that a job holds. -/
def Dev.jobCtxs (d : Dev) (job : Nat) : List Nat :=
  (List.range 8).filter (fun c => (d.ctx c).isOpen && (d.ctx c).bound && decide ((d.ctx c).job = job))

/-- The contexts bound to a job of which a logical id is a member. -/
def Dev.memberCtxs (d : Dev) (l : Nat) : List Nat :=
  (List.range 8).filter (fun c => (d.ctx c).isOpen && (d.ctx c).bound && (d.jobOf c).contains l)

/-- The ids that a context's relief is about. -/
def Relief.subjects (r : Relief) : List Nat := r.subject.toList ++ r.others

/-- The lead agent for a logical id: the live torus neighbour that serves the job with the lowest physical id (R347). -/
def Dev.leadOf (d : Dev) (c l : Nat) : Option Nat :=
  match d.physOf l with
  | none => none
  | some p =>
    let out := l :: (d.ctx c).relief.subjects
    let live := (((d.jobOf c).filter (fun m => !out.contains m)).filterMap d.physOf).filter (fun q => !d.fab.silent.contains q)
    ((neighbours d.fab.dims p).filter (fun q => live.contains q)).foldl
      (fun b q => match b with | some x => some (min x q) | none => some q) none

/-- This device leads the relief of an id for its context c, the lowest of the job's here. -/
def Dev.leads (d : Dev) (c l : Nat) : Bool :=
  decide (d.leadOf c l = some d.fab.phys) && (d.jobCtxs (d.ctx c).job).head? = some c

/-! ## Failure of a relief (R352) -/

/-- Change a context's relief. -/
def Dev.updRelief (d : Dev) (c : Nat) (f : Relief → Relief) : Dev := d.updCtx c (fun x => { x with relief := f x.relief })

/-- A relief event of a context. -/
def Dev.reliefRecord (d : Dev) (c : Nat) (st : Status) (about : Nat) : Dev :=
  d.record { type := Rt.relief, status := st, opcode := about, ctx := some c }

/-- Beyond relief: RELIEF_FAILED, the steps end with it, and the context is LOST, IDLE at its last committed step. -/
def Dev.failRelief (d : Dev) (c about : Nat) : Dev :=
  let d1 := (d.stick Sticky.reliefFailed).reliefRecord c St.reliefFailed about
  ((d1.endStep c true St.reliefFailed).endStep c false St.reliefFailed).updRelief c (fun r =>
    { r with state := 5, subject := none, others := [], ready := [], spare := none, refused := [], lead := false, resume := 0 })

/-- The whole job is beyond relief. -/
def Dev.failJob (d : Dev) (c about : Nat) : Dev := (d.tellJob 10 c [about]).failRelief c about

/-! ## Rolling back one step (R350) -/

/-- The ring's upkeep of the last commit is pending, so that the protected epoch lies one step back. -/
def Dev.mustRollBack (d : Dev) (c l : Nat) : Bool :=
  let x := d.ctx c
  x.relief.inRing && x.relief.prot && x.relief.upkeep && x.relief.ring.contains l && decide (x.relief.epoch + 1 = x.stepCnt)

/-- The committed state of the context is taken from its snapshot area of the step before, and the step that had committed is
loaded again ahead of the one after it. -/
def Dev.rollBack (d : Dev) (c : Nat) : Dev :=
  let x := d.ctx c
  let area := at' x.relief.snap (1 - x.curSlot % 2) 0
  let rd : Reader := fun o n => d.ld (area + o) n
  match x.lastSubmit with
  | none => d.failRelief c x.stepCnt
  | some p =>
    if area = 0 ∨ ¬ snapReadable rd (2 ^ 32) ∨ rd 4 4 + 1 ≠ x.stepCnt then d.failRelief c x.stepCnt
    else
      let d1 := ((d.unstart c true).kvAbandon c false).dropWork c false
      let d2 := match x.older, x.newer with
        | some _, some n => d1.leaveStep c n St.stepAborted
        | _, _ => d1
      let d3 := [0, 1].foldl (fun (d : Dev) h =>
        if d.halfOn h then ((d.takeGroups rd c h).takeSlots rd c h).takeKv rd c h else d) d2
      let d4 := (d3.takeUpdate rd c).updCtx c (fun y => { y with
        stepCnt := rd 4 4, commitBell := rd 8 8, lastSubmit := none, older := some { p := p }
        newer := x.older.map (fun o => { p := o.p })
        relief := { y.relief with upkeep := false } })
      d4.reliefRecord c St.reliefRollback (rd 4 4)

/-! ## The relief notice (R347 step 1, R352, R353) -/

/-- A sealing attempt without a decision is abandoned with PEER all the same. -/
def Dev.unseal (d : Dev) (c : Nat) (st : Status) : Dev :=
  match (d.ctx c).older with
  | some r =>
    if r.state = 3 ∧ r.decision.isNone then
      ((d.updStep c false (fun r => { r with
        state := 5, draining := true, drained := false, voted := false, votes := [], peer := true
        causes := r.causes ++ [(st, clsPeer)] })).updCtx c (fun x => { x with cause := Nat.lor x.cause (2 ^ clsPeer) })).unstart c true
    else d
  | none => d

/-- The steps of a context are held for a relief: a running or sealing attempt without a decision is abandoned with PEER, one
that waits for a replay waits for the resume bell. -/
def Dev.holdSteps (d : Dev) (c : Nat) : Dev :=
  match (d.ctx c).older with
  | none => d
  | some r =>
    let d1 :=
      if r.state = 3 then d.unseal c St.reliefStarted
      else if r.state = 2 then d.declare c false St.reliefStarted clsPeer none
      else d
    let d2 := d1.updStep c false (fun r => if r.state = 1 ∨ r.state = 3 then r else { r with relieving := true })
    (d2.unstart c true).reduceAbandon c false

/-- A relief notice of an id reaches a context of the job. -/
def Dev.noticeCtx (d : Dev) (c l : Nat) : Dev :=
  let x := d.ctx c
  let r := x.relief
  if r.subjects.contains l ∨ r.state = 5 then d
  else
    let d1 := if x.logical = l then (d.updCtx c (fun x => { x with leaving := true })).settleLeaving else d
    let beyond : Bool :=
      r.state = 0 || (r.state = 1 && r.ring.contains l)
      || (r.ring.contains l && ((r.subjects ++ r.weak).any (fun m => m ≠ l && r.ring.contains m)))
    if beyond then d1.failRelief c l
    else if r.state = 3 then d1.updRelief c (fun r => { r with others := r.others ++ [l] })
    else
      let d2 := (d1.updRelief c (fun r => { r with
        state := 3, subject := some l, spare := none, refused := [], lead := false, resume := 0, ready := [] })).reliefRecord c
        St.reliefStarted l
      let d3 := d2.holdSteps c
      if d.mustRollBack c l then (d3.tellJob 11 c [r.epoch]).rollBack c else d3

/-! ## The lead agent (R347, R351) -/

/-- The spare that the lead claims now: the first that has not refused. -/
def Relief.claimed (r : Relief) : Option Nat := (r.spares.filter (fun p => !r.refused.contains p)).head?

/-- The lead claims the next spare; an exhausted list is beyond relief. -/
def Dev.claimNext (d : Dev) (c : Nat) : Dev :=
  let x := d.ctx c
  let l := x.relief.subject.getD 0
  match x.relief.claimed with
  | none => d.failJob c l
  | some p => d.emit (.notice 4 c p [d.fab.phys, x.job, l])

/-- A spare has refused, has not answered, or has failed. -/
def Dev.nextSpare (d : Dev) (c p : Nat) : Dev :=
  (d.updRelief c (fun r => { r with refused := insertNat r.refused p, spare := none })).claimNext c

/-- This device takes the lead and starts with the first spare of the list. -/
def Dev.takeLead (d : Dev) (c l : Nat) : Dev :=
  (d.updRelief c (fun r => { r with
    subject := some l, others := r.subjects.filter (· ≠ l), lead := true, refused := [], spare := none })).claimNext c

/-- What a device does on a failure of a member that it sees: as the lead it tells the job and claims a spare. A member under
relief already whose spare now holds its id has lost that spare (R351). -/
def Dev.startRelief (d : Dev) (l : Nat) : Dev :=
  (d.memberCtxs l).foldl (fun d c =>
    let x := d.ctx c
    let r := x.relief
    if x.logical = l ∨ r.state = 5 then d
    else if r.subjects.contains l then
      match r.spare with
      | some p => if r.lead ∧ r.subject = some l ∧ d.physOf l = some p ∧ r.resume = 0 then d.nextSpare c p else d
      | none => d
    else if !d.leads c l then d
    else
      let d1 := (d.jobCtxs x.job).foldl (fun d k => d.noticeCtx k l) (d.tellJob 1 c [l])
      let r1 := (d1.ctx c).relief
      if r1.state = 3 ∧ r1.subjects.contains l ∧ ¬ r1.lead then d1.takeLead c l else d1) d

/-- The members of a job that a physical device serves. -/
def Dev.membersAt (d : Dev) (phys : Nat) : List Nat :=
  ((List.range 8).flatMap (fun c => if (d.ctx c).bound then (d.jobOf c).filter (fun l => d.physOf l = some phys) else [])).dedup

/-- A neighbour is out: relief starts for everything it serves (R320, R347). -/
def Dev.deviceOut (d : Dev) (phys : Nat) : Dev := (d.membersAt phys).foldl (fun d l => d.startRelief l) d

/-! ## The switch and the resume (R309, R347 steps 3 to 6) -/

/-- REMAP_LEAD of a context. -/
def Dev.remapLead (d : Dev) (c : Nat) : Nat := d.committed 16 (0x09040018 + 32 * c) % 65536

/-- An id is staged for another device at a switch bell. -/
def Dev.stageRemap (d : Dev) (l phys bell : Nat) : Dev :=
  let base := if d.fab.switchPending then d.fab.remapStaged else d.fab.remap
  { d with fab := { d.fab with
      remapStaged := base.put 0 (l % 16384) (phys % 16384 + 16384), switchPending := true
      switchBell := if d.fab.switchPending then max d.fab.switchBell bell else bell } }

/-- A context's id has moved to a spare: its steps end with RELIEVED and it leaves the job. -/
def Dev.relieve (d : Dev) (c : Nat) : Dev :=
  let x := d.ctx c
  let d1 := ((d.endStep c true St.relieved).endStep c false St.relieved).stick Sticky.relieved
  let d2 := (d1.reliefRecord c St.relieved x.logical).unbind c
  if x.orphaned then d2.startClose c else d2

/-- The remap switch of a bell boundary: the staged table replaces the live one whole; an id that has moved is gone from its old
device, and the survivors of its ring rebuild its units (R309, R347). -/
def Dev.remapSwitch (d : Dev) : Dev :=
  if !d.fab.switchPending || d.bell < d.fab.switchBell then d
  else
    let d1 : Dev := { d with fab := { d.fab with remap := d.fab.remapStaged, switchPending := false } }
    ((List.range 8).filter (fun c => (d1.ctx c).bound && d1.physOf (d1.ctx c).logical ≠ some d1.fab.phys)).foldl Dev.relieve
      (((List.range 8).filter (fun c => (d1.ctx c).relief.state = 3 && (d1.ctx c).relief.subjects.any (fun l =>
        (d1.ctx c).relief.ring.contains l && d.physOf l ≠ d1.physOf l))).foldl Dev.rebuildFor d1)

/-- The resume bell of an id is known to a context; a lead with another id to relieve goes on to that one. -/
def Dev.nameResume (d : Dev) (c l bell : Nat) : Dev :=
  let r := (d.ctx c).relief
  if r.state ≠ 3 ∨ ¬ r.subjects.contains l ∨ r.ready.contains l then d
  else
    let d1 := d.updRelief c (fun r => { r with resume := max r.resume bell, ready := r.ready ++ [l] })
    match (if r.lead then r.subjects.find? (fun m => m ≠ l && !r.ready.contains m && d1.leads c m) else none) with
    | some m => d1.takeLead c m
    | none => d1

/-- A context's relief ends at its resume bell. -/
def Dev.resumeDue (d : Dev) (c : Nat) : Dev :=
  let r := (d.ctx c).relief
  if r.state ≠ 3 || d.bell < r.resume || !r.subjects.all (fun l => r.ready.contains l) then d
  else
    let mine := r.subjects.filter (fun l => r.ring.contains l)
    let d1 := r.subjects.foldl (fun d l => d.reliefRecord c St.reliefDone l) d
    let d2 := d1.updRelief c (fun r => { r with
      state := if mine.isEmpty then (if r.weak.isEmpty then (if r.prot then 2 else 1) else 4) else 4
      weak := (r.weak ++ mine).dedup, count := min (r.count + r.subjects.length) 0xFFFFFFFF, subject := none, others := []
      ready := [], spare := none, refused := [], lead := false, resume := 0 })
    (d2.updStep c false (fun s => { s with relieving := false })).updStep c true (fun s => { s with relieving := false })

/-! ## Events of the sequence -/

/-- RELIEF_NOTICE: every context of the job takes it. -/
def reliefNoticeEff (job l : Nat) (d : Dev) : Dev :=
  (d.jobCtxs job).foldl (fun d c =>
    let r := (d.ctx c).relief
    if !(d.jobOf c).contains l then d
    else match r.spare with
      | some p => if r.lead ∧ r.subject = some l ∧ r.resume = 0 then d.nextSpare c p else d.noticeCtx c l
      | none => d.noticeCtx c l) d

/-- LEAVE_NOTICE: the job relieves a device that leaves as it would a failed one (R333). -/
def leaveNoticeEff (job l : Nat) (d : Dev) : Dev :=
  if (d.jobCtxs job).any (fun c => (d.jobOf c).contains l) then d.startRelief l else d

/-- DIGEST_NOTICE: a notice that names this device is counted over 24 h of operation (R330). -/
def digestNoticeEff (src cseq : Nat) (d : Dev) : Dev :=
  let l := d.opTime :: d.fab.digestTimes.filter (fun t => decide (d.opTime < t + 86400))
  let d1 := (Dev.stick { d with fab := { d.fab with digestTimes := l } } Sticky.digestNamed).record
    { type := Rt.fabric, unit := hubUnit d.fwHalf 3, status := St.digestMismatch, opcode := src, addr := cseq }
  if l.length = 2 then d1.markSuspect (hubUnit d.fwHalf 3) else if l.length = 3 then d1.leaveAll else d1

/-- SPARE_CLAIM: a spare accepts the first claim since it was offered, and refuses every other; a failed device accepts none
(R26). -/
def spareClaimEff (lead job l : Nat) (d : Dev) : Dev :=
  if d.fab.state = 4 ∧ d.fab.claim.isNone ∧ ¬ d.health.failed then
    Dev.emit { d with fab := { d.fab with claim := some (lead, job * 16384 + l) } } (.notice 5 0 lead [d.fab.phys, 0])
  else d.emit (.notice 5 0 lead [d.fab.phys, St.spareTaken.toNat])

/-- SPARE_CLAIM_TIMEOUT: 5 ms without an answer. -/
def spareClaimTimeoutEff (c : Nat) (d : Dev) : Dev :=
  let r := (d.ctx c).relief
  match r.claimed with
  | some p => if r.lead ∧ r.state = 3 ∧ r.spare.isNone then d.nextSpare c p else d
  | none => d

/-- SPARE_CLAIM_ANSWER: on acceptance the lead names the switch bell; otherwise it claims the next spare. -/
def spareClaimAnswerEff (c phys : Nat) (accepted : Bool) (d : Dev) : Dev :=
  let x := d.ctx c
  let r := x.relief
  match r.subject with
  | none => d
  | some l =>
    if !r.lead || r.state ≠ 3 || r.claimed ≠ some phys then d
    else if !accepted then d.nextSpare c phys
    else if r.spare.isSome then d
    else
      let bell := d.bell + d.remapLead c
      let d1 := (d.updRelief c (fun r => { r with spare := some phys })).stageRemap l phys bell
      (d1.tellJob 6 c [l, phys, bell]).emit (.notice 6 c phys [l, phys, bell])

/-- SPARE_READY: the lead names a resume bell at least two bells ahead. -/
def spareReadyEff (c : Nat) (d : Dev) : Dev :=
  let x := d.ctx c
  let r := x.relief
  match r.subject, r.spare with
  | some l, some p =>
    if !r.lead || r.state ≠ 3 || r.ready.contains l || d.physOf l ≠ some p then d
    else
      let bell := d.bell + 2 + d.pick 9
      let d1 := (d.drawn.tellJob 8 c [l, bell]).emit (.notice 8 c p [l, bell])
      (d1.jobCtxs x.job).foldl (fun d k => d.nameResume k l bell) d1
  | _, _ => d

/-- RELIEF_LEAD_TIMEOUT: after 500 ms without progress the next live neighbour leads, with the same claim list. -/
def reliefLeadTimeoutEff (c newLead : Nat) (d : Dev) : Dev :=
  let r := (d.ctx c).relief
  match r.subject with
  | none => d
  | some l =>
    if r.state ≠ 3 ∨ r.ready.contains l then d
    else if newLead = d.fab.phys then d.takeLead c l
    else d.updRelief c (fun r => { r with lead := false })

/-- A snapshot in this device's memory becomes a context of the job under relief: opened, restored, and held until the
resume bell. It belongs to the lowest ring set with a session, and is an orphan where there is none. -/
def Dev.restoreSpare (d : Dev) (l dpa : Nat) (rows : List ParityRow) : Status × Dev :=
  let rd : Reader := fun o n => d.ld (dpa + o) n
  let set := (List.range 4).find? (fun s => (d.ring s).session)
  match (List.range 8).find? (fun c => !(d.ctx c).isOpen) with
  | none => (St.ctxLimit, d)
  | some c =>
    if !snapReadable rd (2 ^ 32) then (St.snapshotVersion, d)
    else
      let d1 := d.setCtx c { isOpen := true, owner := set, orphaned := set.isNone, token := Config.token d.free, gen := (d.ctx c).gen }
      let a := d1.drawn.restoreAllocs c rd (2 ^ 32)
      if a.status ≠ St.ok then (a.status, d)
      else
        let b := a.dev.restoreSections c rd (2 ^ 32)
        if b.status ≠ St.ok then (b.status, d)
        else
          let f := (b.dev.takeFabric rd c).ctx c
          let d2 := b.dev.updCtx c (fun x => { x with
            bound := true, job := f.job, logical := f.logical, groups := f.groups
            relief := { f.relief with state := 3, inRing := true, prot := true, epoch := snapEpoch rd, snap := snapAreas rd
                                      subject := some l } })
          (St.ok, rows.foldl (fun d w => d.holdRow c w) (d2.ownUnits c))

/-- Every rebuilt unit has the digest that its row's holder kept: under the job seed, the epoch and the position that the rebuilt
snapshot names (R342, R347, R354). -/
def Dev.unitsOk (d : Dev) (units : List RebuiltUnit) (dpa : Nat) : Bool :=
  let rd : Reader := fun o n => d.ld (dpa + o) n
  let k := match findSec rd 7 0 with | some (o, _) => rd (o + 8) 4 | none => 0
  units.all (fun u => u.digest = unitDigest (rd 0x10 8) (rd 4 4) k u.data)

/-- RELIEF_REBUILD_DONE: the spare has rebuilt the failed member's units; it restores its contexts and reports ready. A unit
that fails its digest is beyond relief; a snapshot that it cannot take makes the lead claim the next spare. -/
def reliefRebuildDoneEff (job l : Nat) (units : List RebuiltUnit) (rows : List ParityRow) (snapshots : List Nat) (d : Dev) : Dev :=
  match d.fab.claim with
  | none => d
  | some (lead, key) =>
    if d.fab.state ≠ 4 || key ≠ job * 16384 + l || d.physOf l ≠ some d.fab.phys then d
    else
      let free := units.foldl (fun d u => d.writeMem u.dpa (u.data.take parityUnit)) { d with fab := { d.fab with claim := none } }
      if units.any (·.poison) || !free.unitsOk units (snapshots.headD 0) then
        ((free.stick Sticky.reliefFailed).record { type := Rt.relief, status := St.reliefFailed, opcode := l }).emit (.notice 10 0 lead [l])
      else
        let r := snapshots.foldl (fun (x : Status × Dev) a => if x.1 = St.ok then x.2.restoreSpare l a rows else x) (St.ok, { free with fab := d.fab })
        if r.1 ≠ St.ok ∨ snapshots.isEmpty then free.emit (.notice 5 0 lead [d.fab.phys, r.1.toNat])
        else Dev.emit { r.2 with fab := { r.2.fab with state := 5, claim := none } } (.notice 7 0 lead [d.fab.phys, job, l])

/-- PARITY_UPKEEP_DONE: the upkeep of a commit has completed in the whole ring (R343, R344, R351, R353); the first one may
find that the members disagree (R340). -/
def parityUpkeepDoneEff (c step : Nat) (ringOk : Bool) (counts : List Nat) (rows : List ParityRow) (d : Dev) : Dev :=
  let x := d.ctx c
  let r := x.relief
  if !r.inRing || !r.upkeep then d
  else if !ringOk then
    if r.state ≠ 1 then d
    else
      let d1 := (d.allocs.filter (fun a => a.ctx = c && r.snap.contains a.base)).foldl (fun d a => d.dropAlloc a) d
      (d1.updRelief c (fun _ => {})).reliefRecord c St.ringInvalid 0
  else
    let both := r.firstUpkeep
    let d1 := (d.upkeep c step counts rows).updRelief c (fun r => { r with
      upkeep := false, waits := false, firstUpkeep := true, prot := r.prot || both })
    if r.state = 1 ∧ both then d1.updRelief c (fun r => { r with state := 2 })
    else if r.state = 4 then (d1.updRelief c (fun r => { r with state := 2, weak := [] })).reliefRecord c St.reprotected 0
    else d1

/-! ## The relief commands (R357) -/

/-- relief.arm: the ring and spare tables are read from device memory, and the two snapshot areas allocated, for which it
waits as mem.alloc does. -/
def Dev.reliefArm (d : Dev) (c ring spares snapExtents id note : Nat) : Reply :=
  let x := d.ctx c
  let n := d.ld ring 1
  let position := d.ld (ring + 1) 1
  let ids := (List.range n).map (fun i => d.ld (ring + 8 + 2 * i) 2)
  let count := d.ld spares 2
  let sp := (List.range count).map (fun i => d.ld (spares + 8 + 2 * i) 2)
  if x.relief.state ≠ 0 then d.refuse St.fabState
  else if !d.dpaValid ring || !d.dpaValid spares then d.refuse St.dpaInvalid
  else if n < 3 ∨ 8 < n ∨ d.ld (ring + 2) 6 ≠ 0 ∨ d.ld (spares + 2) 6 ≠ 0 ∨ ¬ ids.Nodup ∨ sp.any (fun p => decide (16384 ≤ p))
      ∨ ids[position]? ≠ some x.logical ∨ ¬ x.bound ∨ ids.any (fun l => !(d.jobOf c).contains l) then d.refuse St.ringInvalid
  else
    let area (d : Dev) : MemRes := d.memAlloc (.cmd c id) c (snapExtents * 2 ^ 21) 0 2 true
    if note ≠ 0 then d.refuse St.hbmExhausted
    else match area d with
      | .waits d1 => d1.wait 0
      | .ends st a d1 =>
        if st ≠ St.ok then d.refuse st
        else match area d1 with
          | .waits d2 => ({ d2 with allocs := d2.allocs.filter (fun x => x.base ≠ a) } : Dev).wait 0
          | .ends st b d2 =>
            if st ≠ St.ok then d.refuse st
            else
              let d3 := d2.updRelief c (fun _ => {
                state := 1, n := n, position := position, ring := ids, spares := sp, snap := [a, b], inRing := true, epoch := 0 })
              (d3.ownUnits c).done []

/-- relief.spare: offered from JOINED, withdrawn while no claim is served. -/
def Dev.reliefSpare (d : Dev) (offer : Nat) : Reply :=
  let f := d.fab
  if f.state ≠ 3 ∧ f.state ≠ 4 then d.refuse St.fabState
  else if offer = 1 then Dev.done (if f.state = 4 then d else { d with fab := { f with state := 4, claim := none } }) []
  else if f.claim.isSome then d.refuse St.fabState
  else Dev.done { d with fab := { f with state := 3 } } []

/-- relief.start: the lead starts at once, any other device tells the job's agents; the command waits for the spare. The note
is the device that serves the id now. -/
def Dev.reliefStart (d : Dev) (c l : Nat) : Reply :=
  if !(d.ctx c).bound || !(d.jobOf c).contains l || l = (d.ctx c).logical then d.refuse St.fabState
  else if (d.ctx c).relief.state = 5 then d.refuse St.reliefFailed
  else
    let note := (d.physOf l).getD 0
    let d1 := if d.leads c l then d.startRelief l else d.tellJob 2 c [l]
    if (d1.ctx c).relief.state = 5 then d1.refuse St.reliefFailed else d1.wait note

/-- relief.start ends once the spare is known. -/
def Dev.reliefStartAgain (d : Dev) (c l note : Nat) : Reply :=
  let r := (d.ctx c).relief
  if r.state = 5 then d.refuse St.reliefFailed
  else match r.spare with
    | some p => if r.lead ∧ r.subject = some l then d.done [p] else d.wait note
    | none => match d.physOf l with
      | some p => if p ≠ note then d.done [p] else d.wait note
      | none => d.wait note

/-- relief.query. -/
def Dev.reliefQuery (d : Dev) (c : Nat) : Reply :=
  let x := d.ctx c
  d.done [x.reliefWord 0, x.relief.epoch, x.reliefWord 0x10]

/-! ## The rows -/

/-- RELIEF_NOTICE -/
def execReliefNotice (job logical : Nat) (s : State) : Host.Outcome State Fault Refusal := onDev (reliefNoticeEff job logical) s
/-- LEAVE_NOTICE -/
def execLeaveNotice (job logical : Nat) (s : State) : Host.Outcome State Fault Refusal := onDev (leaveNoticeEff job logical) s
/-- DIGEST_NOTICE -/
def execDigestNotice (src cseq : Nat) (s : State) : Host.Outcome State Fault Refusal := onDev (digestNoticeEff src cseq) s
/-- SPARE_CLAIM -/
def execSpareClaim (lead job logical : Nat) (s : State) : Host.Outcome State Fault Refusal := onDev (spareClaimEff lead job logical) s
/-- RELIEF_REBUILD_DONE -/
def execReliefRebuildDone (job logical : Nat) (rebuilt : Rebuilt) (snapshots : List Nat) (s : State) :
    Host.Outcome State Fault Refusal :=
  onDev (reliefRebuildDoneEff job logical rebuilt.units rebuilt.rows snapshots) s
/-- SPARE_READY -/
def execSpareReady (ctx : Nat) (s : State) : Host.Outcome State Fault Refusal := onDev (spareReadyEff ctx) s
/-- RELIEF_LEAD_TIMEOUT -/
def execReliefLeadTimeout (ctx newLead : Nat) (s : State) : Host.Outcome State Fault Refusal := onDev (reliefLeadTimeoutEff ctx newLead) s
/-- PARITY_UPKEEP_DONE -/
def execParityUpkeepDone (ctx step : Nat) (upkeep : Upkeep) (s : State) :
    Host.Outcome State Fault Refusal :=
  onDev (parityUpkeepDoneEff ctx step upkeep.ringOk upkeep.counts upkeep.rows) s

end Sys2Proof.Machine
end

