-- ==== Sys2Proof/Machine/Member.lean ====
section
/-! DEFINITION. Fabric membership and the bell (R307, R314 to R320, R323, R331 to R333): the fabric commands, the states of
a join and a leave, beats and heartbeats. -/

namespace Sys2Proof.Machine

/-! ## Ports of the torus (R304, R308, R315, R331) -/

/-- The Ulusil ports of the powered planes that have not retired. -/
def Dev.planePorts (d : Dev) : List Nat :=
  (List.range 48).filter (fun p => isUlusil p && d.halfOn (portHalf p) && decide ((d.port p).state ≠ 3))

/-- The direction of a torus port: plus or minus. -/
def portPlus (p : Nat) : Bool := decide (p % 24 % 4 < 2)

/-- The device that a torus port faces under the coordinates of the join. -/
def Dev.implied (d : Dev) (p : Nat) : Nat := neighbour d.fab.dims d.fab.phys (p % 24 / 4) (portPlus p)

/-- The parent of a device in the tree from a timekeeper, with the dimension and direction in which the parent lies: the
tree follows dimension order, X first, so that the last dimension in which they differ holds the parent link. -/
def parentOf (dims : List Nat) (tk phys : Nat) : Option (Nat × Nat × Bool) :=
  (([3, 2, 1, 0] : List Nat).find? (fun k => coordOf tk k ≠ coordOf phys k)).map (fun k =>
    let n := at' dims k 1
    let plus : Bool := decide ((coordOf phys k + n - coordOf tk k) % n ≤ (coordOf tk k + n - coordOf phys k) % n)
    (neighbour dims phys k (!plus), k, !plus))

/-- The child links of this device in one plane's tree from a timekeeper: torus ports that are up. -/
def Dev.childPorts (d : Dev) (half tk : Nat) : List Nat :=
  ((List.range 16).map (fun p => half * 24 + p)).filter (fun p => d.portUp p && (match parentOf d.fab.dims tk (d.implied p) with
    | some (q, k, plus) => decide (q = d.fab.phys) && decide (k = p % 24 / 4) && decide (plus = !portPlus p)
    | none => false))

/-- BELL on every child link of one plane's tree. -/
def Dev.sendBell (d : Dev) (half tk hops : Nat) : Dev :=
  (d.childPorts half tk).foldl (fun d p => d.emit (.orderedSet p 0 [d.bell, hops, tk])) d

/-- A timekeeper starts the beat on the West tree, and on the East plane's second one where that plane has power (R315). -/
def Dev.startBeat (d : Dev) : Dev :=
  let d1 := d.sendBell 0 d.fab.phys 0
  if d.halfOn 1 then d1.sendBell 1 d.fab.phys 0 else d1

/-- The heartbeat state (R307): failed and leaving, then degraded (R306, R369). -/
def Dev.hbWord (d : Dev) : Nat :=
  let s := if 2 ≤ d.fab.hbState then d.fab.hbState else if d.causes ≠ 0 then 1 else 0
  s % 4 + d.fab.phys % 16384 * 4 + d.fab.heartbeats % 65536 * 65536

/-- HEARTBEAT on every Ulusil link, once per bell. -/
def Dev.sendHeartbeats (d : Dev) : Dev :=
  let w := d.hbWord
  let ps := d.planePorts.filter (fun p => decide (1 ≤ (d.port p).state))
  let d1 := ps.foldl (fun d p => d.emit (.orderedSet p 1 [w])) d
  { d1 with fab := { d1.fab with heartbeats := (d1.fab.heartbeats + 1) % 65536 } }

/-! ## The fabric commands (R332) -/

/-- The parameters of a join. -/
structure JoinParams where
  fabric : Nat
  phys : Nat
  dims : List Nat
  period : Nat
  tk1 : Nat
  tk2 : Nat
deriving DecidableEq, Repr

/-- The parameters the device joined with. -/
def Fabric.params (f : Fabric) : JoinParams :=
  { fabric := f.fabric, phys := f.phys, dims := f.dims, period := f.period, tk1 := f.tk1, tk2 := f.tk2 }

/-- The values of a join lie in their ranges (R308, R315). -/
def JoinParams.ok (p : JoinParams) : Bool :=
  p.dims.all (fun n => decide (1 ≤ n)) && decide (at' p.dims 0 1 ≤ 16) && decide (at' p.dims 1 1 ≤ 16) && decide (at' p.dims 2 1 ≤ 8)
  && decide (at' p.dims 3 1 ≤ 8) && decide (5 ≤ p.period) && decide (p.period ≤ 100)
  && physValid p.dims p.phys && physValid p.dims p.tk1 && physValid p.dims p.tk2

/-- The bell number as result words. -/
def Dev.bellWords (d : Dev) : List Nat := [d.bell % 2 ^ 32, d.bell / 2 ^ 32 % 65536]

/-- The class a fabric runs in is the device's (R314). -/
def Dev.classIs (d : Dev) (cls : Nat) : Bool := decide (d.pwr.cls.getD 0 = cls)

/-- fab.join: TRAINING from DETACHED; repeated with the same parameters it answers for the join that stands. -/
def Dev.fabJoin (d : Dev) (p : JoinParams) (cls : Nat) : Reply :=
  let f := d.fab
  if f.state ≠ 0 then
    if f.params = p then (if 3 ≤ f.state then d.done d.bellWords else d.wait 0) else d.refuse St.fabState
  else if !p.ok then d.refuse St.reservedNonzero
  else if !d.classIs cls then d.refuse St.fabClass
  else
    let d1 := d.planePorts.foldl (fun d q => d.setPort q { d.port q with state := 1 }) d
    Dev.wait { d1 with fab := { d1.fab with
      state := 1, fabric := p.fabric, phys := p.phys, dims := p.dims, period := p.period, tk1 := p.tk1, tk2 := p.tk2 } } 0

/-- fab.join ends at JOINED, or back at DETACHED. -/
def Dev.fabJoinAgain (d : Dev) : Reply :=
  if 3 ≤ d.fab.state then d.done d.bellWords else if d.fab.state = 0 then d.refuse St.fabJoin else d.wait 0

/-- The contexts bound to a job. -/
def Dev.boundCtxs (d : Dev) : List Nat := (List.range 8).filter (fun c => (d.ctx c).bound)

/-- fab.leave: an orderly leave of every job, then DETACHED. The note is how many jobs are left. -/
def Dev.fabLeave (d : Dev) : Reply :=
  if d.fab.state = 0 then d.refuse St.fabState
  else
    let n := ((d.boundCtxs.map (fun c => (d.ctx c).job)).dedup).length
    let d1 := d.leaveAll
    if d1.boundCtxs.isEmpty then d1.detach.done [n] else d1.wait n

/-- fab.leave ends at DETACHED. -/
def Dev.fabLeaveAgain (d : Dev) (note : Nat) : Reply := if d.fab.state = 0 then d.done [note] else d.wait note

/-- A group table of device memory (R323); none where it is malformed. -/
def Dev.groupTable (d : Dev) (a : Nat) : Option (List Nat) :=
  let n := d.ld a 2
  let l := (List.range n).map (fun i => d.ld (a + 8 + 2 * i) 2)
  if n = 0 ∨ 16384 < n ∨ d.ld (a + 2) 6 ≠ 0 ∨ l.any (fun m => decide (32768 ≤ m)) then none else some l

/-- Strictly rising. -/
def rising : List Nat → Bool
  | a :: b :: l => decide (a < b) && rising (b :: l)
  | _ => true

/-- fab.bind: the context serves the job as a logical id; the live table maps that id here. -/
def Dev.fabBind (d : Dev) (c job logical group0 count : Nat) : Reply :=
  let f := d.fab
  if (f.state ≠ 3 ∧ f.state ≠ 5) ∨ (d.ctx c).bound ∨ d.health.failed then d.refuse St.fabState
  else if !d.dpaValid group0 then d.refuse St.dpaInvalid
  else match d.groupTable group0 with
    | none => d.refuse St.fabGroup
    | some l =>
      if l.length ≠ count ∨ ¬ rising l ∨ l.any (fun m => decide (16384 ≤ m)) ∨ ¬ l.contains logical then d.refuse St.fabGroup
      else
        let d1 := d.updCtx c (fun x => { x with bound := true, job := job, logical := logical, groups := x.groups.insert 0 l })
        Dev.done { d1 with fab := { d1.fab with state := 5, remap := f.remap.put 0 logical (f.phys + 16384) } } []

/-- A resident graph of a context names a group. -/
def Dev.groupNamed (d : Dev) (c group : Nat) : Bool :=
  (d.ctx c).graphs.any (fun g => match d.stepGraph c g.gid with
    | some h => (List.range h.taskCount).any (fun i => (d.graphTask h i).op = opCollective && auxGroup (d.graphTask h i).aux = group)
    | none => false)

/-- fab.group: group 1 to 255 of the context. -/
def Dev.fabGroup (d : Dev) (c group table : Nat) : Reply :=
  if d.fab.state = 0 then d.refuse St.fabState
  else if group = 0 then d.refuse St.fabGroup
  else if d.groupNamed c group then d.refuse St.graphBusy
  else if !d.dpaValid table then d.refuse St.dpaInvalid
  else match d.groupTable table with
    | none => d.refuse St.fabGroup
    | some l => (d.updCtx c (fun x => { x with groups := x.groups.insert group l })).done []

/-- fab.query. -/
def Dev.fabQuery (d : Dev) : Reply := d.done ([d.fabWord 0 4, d.fabWord 0 0] ++ d.bellWords)

/-! ## Joining (R331) -/

/-- Every torus direction of each powered plane has a port that has not retired, so that one can be up. -/
def Dev.canTrain (d : Dev) : Bool :=
  (List.range 2).all (fun h => !d.halfOn h || (List.range 8).all (fun k =>
    d.planePorts.any (fun p => isTorus p && decide (portHalf p = h) && decide (p % 24 / 2 = k))))

/-- TRAINING_COMPLETE: the links are up, and each torus port knows the device it faces. A plane that has lost a direction never
completes its training. -/
def trainingCompleteEff (d : Dev) : Dev :=
  if d.fab.state ≠ 1 || !d.canTrain then d
  else
    let d1 := (d.planePorts.filter (fun p => (d.port p).state = 1)).foldl (fun d p =>
      let x := d.port p
      let peer := if isTorus p then d.implied p else x.peer
      (d.setPort p { x with state := 2, hbOk := true, peer := peer, peerHalf := if isTorus p then portHalf p else x.peerHalf
                            delay := Config.delay d.free % 2 ^ 32 }).drawn) d
    { d1 with fab := { d1.fab with state := 2 } }

/-- A join that failed. -/
def Dev.joinFailed (d : Dev) : Dev := d.detach.record { type := Rt.fabric, status := St.fabJoin, opcode := d.fab.fabric }

/-- TRAINING_TIMEOUT: 10 s without training. -/
def trainingTimeoutEff (d : Dev) : Dev := if d.fab.state = 1 then d.joinFailed else d
/-- BELL_LOCK: the bell is locked. -/
def bellLockEff (d : Dev) : Dev :=
  if d.fab.state = 2 then { d with fab := { d.fab with state := 3, locked := true, missing := 0, timekeeper := d.fab.phys = d.fab.tk1 } }
  else d
/-- BELL_LOCK_TIMEOUT: no beat within 1 s. -/
def bellLockTimeoutEff (d : Dev) : Dev := if d.fab.state = 2 then d.joinFailed else d
/-- LEAVE_TIMEOUT: a leave ends after 2 s whether or not every job has relieved the device. -/
def leaveTimeoutEff (d : Dev) : Dev :=
  if d.fab.state = 6 then (d.boundCtxs.foldl Dev.relieve d).detach.reapClosing else d

/-! ## The bell (R315 to R317) -/

/-- BELL: the beat of the parent on the West tree is taken and passed on. A device that waits for the bell takes its number;
afterwards the number is counted at every boundary and never jumps. The East plane's tree only checks the first: its beats are
passed on and change nothing. The port of any other link, or a bad CRC, is ignored. -/
def bellEff (port num hops tk : Nat) (crcOk : Bool) (d : Dev) : Dev :=
  match parentOf d.fab.dims tk d.fab.phys with
  | none => d
  | some (_, k, plus) =>
    if !crcOk || d.fab.state < 2 || !isTorus port || !d.portUp port || port % 24 / 4 ≠ k || portPlus port ≠ plus
      || (tk ≠ d.fab.tk1 ∧ tk ≠ d.fab.tk2) then d
    else if portHalf port = 1 then d.sendBell 1 tk ((hops + 1) % 256)
    else
      let d1 : Dev := if d.fab.state = 2 then { d with bell := num % 2 ^ 48 } else d
      let d2 : Dev := { d1 with fab := { d1.fab with
        beat := true, missing := 0, holdover := false, hops := (hops + 1) % 256, phase := Config.phase d.free % 2 ^ 32
        timekeeper := false, secondary := false } }
      d2.drawn.sendBell 0 tk ((hops + 1) % 256)

/-- BELL_HOLDOVER: a beat of the parent is missing. -/
def bellHoldoverEff (d : Dev) : Dev :=
  let f := d.fab
  if !f.locked || f.holdover || f.timekeeper || f.secondary then d
  else
    let d1 : Dev := { d with fab := { f with holdover := true } }
    (upto 2 (fun h d => if d.halfOn h then d.rcAdd (hubDie h) 0x0A000018 1 else d) d1).record { type := Rt.fabric, status := St.bellHoldover }

/-- SECONDARY_TIMEKEEPER: after 8 periods without the primary's beats the secondary starts beats. -/
def secondaryTimekeeperEff (d : Dev) : Dev :=
  let f := d.fab
  if !f.locked || f.phys ≠ f.tk2 || f.timekeeper || f.secondary || f.missing < 8 then d
  else Dev.startBeat { d with fab := { f with secondary := true, holdover := false, hops := 0, missing := 0 } }

/-- BELL_LOST: 100 periods of holdover. -/
def bellLostEff (d : Dev) : Dev :=
  let f := d.fab
  if !f.locked || !f.holdover || f.missing < 100 then d
  else
    let d1 : Dev := { d with fab := { f with locked := false } }
    let d2 := (d1.stick Sticky.bellLost).record { type := Rt.fabric, status := St.bellLost }
    if f.state = 3 ∨ f.state = 4 then d2.detach else d2.leaveAll

/-- The fabric's part of a bell boundary: a timekeeper beats; any other device counts the beats it misses. -/
def Dev.beatDue (d : Dev) : Dev :=
  let f := d.fab
  if f.state < 3 then d
  else if f.timekeeper || f.secondary then d.startBeat
  else { d with fab := { f with beat := false, missing := if f.beat then 0 else f.missing + 1 } }

/-! ## Heartbeats (R307, R320) -/

/-- HEARTBEAT: the watch of the link is refreshed; coordinates that a join does not imply end it; a state of failed or leaving
starts relief. -/
def heartbeatEff (port : Nat) (w : Word) (peerHalf : Nat) (crcOk : Bool) (d : Dev) : Dev :=
  let phys := bits w.toNat 15 2
  let st := bits w.toNat 1 0
  if !crcOk || !isUlusil port || !d.halfOn (portHalf port) || (d.port port).state = 0 || (d.port port).state = 3 then d
  else if d.fab.state = 1 ∧ isTorus port ∧ phys ≠ d.implied port then d.joinFailed
  else
    let d1 := d.setPort port { d.port port with hbOk := true, peer := phys, peerHalf := peerHalf % 2 }
    let d2 : Dev := { d1 with fab := { d1.fab with silent := d1.fab.silent.filter (· ≠ phys) } }
    if 2 ≤ st ∧ isTorus port then d2.deviceOut phys else d2

/-- FAB_UNRESPONSIVE: a torus neighbour was silent for 2 s on every link. -/
def fabUnresponsiveEff (phys : Nat) (d : Dev) : Dev :=
  let ps := (List.range 48).filter (fun p => isTorus p && decide ((d.port p).state = 2) && decide ((d.port p).peer = phys))
  if ps.isEmpty then d
  else
    let d1 := ps.foldl (fun d p => d.setPort p { d.port p with hbOk := false }) d
    let d2 : Dev := { d1 with fab := { d1.fab with silent := insertNat d1.fab.silent phys } }
    (d2.record { type := Rt.fabric, status := St.fabUnresponsive, opcode := phys }).deviceOut phys

/-! ## The rows -/

/-- TRAINING_COMPLETE -/
def execTrainingComplete (s : State) : Host.Outcome State Fault Refusal := onDev trainingCompleteEff s
/-- BELL -/
def execBell (port num hops tk : Nat) (crcOk : Bool) (s : State) : Host.Outcome State Fault Refusal := onDev (bellEff port num hops tk crcOk) s
/-- BELL_HOLDOVER -/
def execBellHoldover (s : State) : Host.Outcome State Fault Refusal := onDev bellHoldoverEff s
/-- SECONDARY_TIMEKEEPER -/
def execSecondaryTimekeeper (s : State) : Host.Outcome State Fault Refusal := onDev secondaryTimekeeperEff s
/-- BELL_LOST -/
def execBellLost (s : State) : Host.Outcome State Fault Refusal := onDev bellLostEff s
/-- HEARTBEAT -/
def execHeartbeat (port : Nat) (word : Word) (peerHalf : Nat) (crcOk : Bool) (s : State) : Host.Outcome State Fault Refusal :=
  onDev (heartbeatEff port word peerHalf crcOk) s
/-- FAB_UNRESPONSIVE -/
def execFabUnresponsive (phys : Nat) (s : State) : Host.Outcome State Fault Refusal := onDev (fabUnresponsiveEff phys) s

end Sys2Proof.Machine
end

