-- ==== Sys2Proof/Machine/Links.lean ====
section
/-! DEFINITION. The Ulusil links and the packets that arrive on them (R305 to R313, R330), and the exchanges of a job (R290,
R292, R297). -/

namespace Sys2Proof.Machine

/-! ## Links (R305 to R307) -/

/-- A port carries traffic. -/
def Dev.linkOn (d : Dev) (p : Nat) : Bool := isUlusil p && d.portUp p

/-- The unacknowledged packets of a port. -/
def Dev.unsent (d : Dev) (p : Nat) : List (Nat × (Packet × List Byte)) := (d.port p).queued

/-- ACK. -/
def ackEff (port seq : Nat) (d : Dev) : Dev := if d.linkOn port then d.ackPort port (seq % 4096) else d
/-- NAK: the flit named has failed; on its eighth failing send the port retires. -/
def nakEff (port seq : Nat) (d : Dev) : Dev :=
  if !d.linkOn port then d
  else if flitDead (d.port port).replay (seq % 4096) then d.retirePort port
  else d.nakPort port (seq % 4096)
/-- CREDIT: cumulative counts per channel and lane, modulo 4,096. -/
def creditEff (port : Nat) (counts : List Nat) (d : Dev) : Dev :=
  if d.linkOn port && counts.length = 8 then
    Dev.pumpPort (d.setPort port { d.port port with creditsIn := counts.map (· % 4096) }) port
  else d
/-- FLIT_CRC_FAIL: the receiver counts the flit, discards it and every later one, and asks once for the flits from there on. -/
def flitCrcFailEff (port seq : Nat) (d : Dev) : Dev :=
  if !d.linkOn port then d
  else
    let x := d.port port
    let d1 := d.rcAdd (hubDie (portHalf port)) (0x09001000 + port % 24 * 32 + 4) 1
    if x.discarding && seq % 4096 ≠ x.rxSeq then d1
    else (d1.setPort port { x with discarding := true, rxSeq := seq % 4096 }).emit (.orderedSet port 3 [seq % 4096])
/-- PORT_RETIRE. -/
def portRetireEff (port : Nat) (d : Dev) : Dev := d.retirePort port
/-- WAVELENGTH_FAIL. -/
def wavelengthFailEff (port lam : Nat) (d : Dev) : Dev := d.loseWavelength port lam

/-! ## Packets -/

/-- The flits of a packet have passed their CRC: they are acknowledged, and their credits go back (R306, R307). -/
def Dev.linkTake (d : Dev) (port : Nat) (k : Packet) : Dev :=
  let x := d.port port
  let n := max 1 (min 64 k.len)
  let s := (x.rxSeq + n) % 4096
  let ix := laneIx k
  let owed := setAt x.creditsOwed ix ((at' x.creditsOwed ix 0 + n) % 4096)
  ((d.setPort port { x with rxSeq := s, discarding := false, creditsOwed := owed }).emit
    (.orderedSet port 2 [(s + 4095) % 4096])).emit (.orderedSet port 4 owed)

/-- A packet of a type arrives on a port: the device, and whether it is delivered here. -/
def Dev.arrive (d : Dev) (port type : Nat) (k : Packet) (data : List Byte) : Dev × Bool :=
  if !d.linkOn port || (k.type ≠ type && !k.rsv) then (d, false) else (d.linkTake port k).receivePacket port k data

/-- The attempt of a context that runs under a generation. -/
def Dev.attemptOf (d : Dev) (c gen : Nat) : Option Bool :=
  [false, true].find? (fun b => match (d.ctx c).step? b with | some r => r.live && decide (r.gen = gen) | none => false)

/-- The context that a packet addresses, with the attempt of its generation; none where its receive path drops it (R310). -/
def Dev.receiver (d : Dev) (k : Packet) : Option (Nat × Bool) :=
  (d.ctxOfLogical k.ldst).bind (fun c => (d.attemptOf c k.gen).map (fun b => (c, b)))

/-- The key of a received transfer. -/
def rxKey (c half tag : Nat) : Nat := (c * 2 + half % 2) * 2 ^ 32 + tag % 2 ^ 32

/-- What a packet brings to the half it is for: data joins its transfer, poisoned where the packet is; a part of a collective is
received, and a poisoned one ends the instance that consumes it (R33, R254, R313). -/
def Dev.packetTo (d : Dev) (k : Packet) (c : Nat) (newer : Bool) (data : List Byte) (p : Part) : Dev :=
  if k.type = 0 then
    let key := rxKey c k.dstHalf k.tag
    let f := d.fab
    { d with fab := { f with
      rx := f.rx.insert key (f.rx.get [] key ++ data), rxPoison := if k.poison then insertNat f.rxPoison key else f.rxPoison } }
  else if k.poison then
    ((d.stick Sticky.poison).updCtx c (fun x => { x with poisonCount := x.poisonCount + 1 })).cause c newer St.poisonConsumed clsTask
      (hubUnit (k.dstHalf % 2) 3) (k.tag / 256) k.tag
  else d.takePart c k.gen k.tag (k.type = 3) p

/-- A packet that has crossed: the count of its bytes, and its bytes. -/
def Dev.packetIn (d : Dev) (k : Packet) (c : Nat) (newer : Bool) (m : XMsg) : Dev :=
  let data := (wordsBytes (m.words.drop 1)).take (at' m.words 0 0).toNat
  d.packetTo { k with poison := m.poison } c newer data (bytesPart data)

/-- A packet for the other half than the one it arrived in goes through the crosscut into a window that opens for it there, a
collective's in class 1 (R23, R313). -/
def Dev.packetAcross (d : Dev) (k : Packet) (c : Nat) (newer : Bool) (data : List Byte) : Dev :=
  let half := k.dstHalf % 2
  let num := d.xc.nextWindow
  let task := if k.type = 0 then 0xFFFF else (d.collTask c newer k.tag).getD 0xFFFF
  let w : Window := { half := half, num := num, gen := k.gen, ctx := c, newer := newer, task := task, mb := k.tag % 256, use := .packet k }
  ({ d with xc := { d.xc with nextWindow := num % 65535 + 1, windows := d.xc.windows ++ [w] } }).sendCrosscut (1 - half)
    (windowMsg (if k.type = 0 then 0 else 1) half num k.gen k.poison (word data.length :: bytesWords data))

/-- A packet for an attempt of this device reaches its half; nothing reaches a half that has no power. -/
def Dev.packetArrives (d : Dev) (port : Nat) (k : Packet) (data : List Byte) (p : Part) : Dev :=
  match d.receiver k with
  | none => d
  | some (c, newer) =>
    if k.dstHalf % 2 = portHalf port then d.packetTo k c newer data p
    else if d.halfOn (k.dstHalf % 2) then d.packetAcross k c newer data
    else d

/-- ULUSIL_WRITE_PACKET: the data joins its transfer, and a write acknowledgement goes back. -/
def ulusilWritePacketEff (port : Nat) (k : Packet) (data : List Byte) (d : Dev) : Dev :=
  let r := d.arrive port 0 k data
  if !r.2 || (r.1.receiver k).isNone || !(decide (k.dstHalf % 2 = portHalf port) || r.1.halfOn (k.dstHalf % 2)) then r.1
  else
    let a : Packet := {
      dst := k.src, dstHalf := k.srcHalf, src := r.1.fab.phys, srcHalf := portHalf port, ldst := k.ldst, vc := 1, type := 1, gen := k.gen
      tag := k.tag, len := 1, poison := false, express := false, lane := 0, ctx := ((r.1.receiver k).map (·.1)).getD 0, rsv := false }
    (r.1.packetArrives port k data (bytesPart data)).sendPacket (portHalf port) none a []

/-- WRITE_ACK_PACKET: taken from the link, or passed on. -/
def writeAckPacketEff (port : Nat) (k : Packet) (d : Dev) : Dev := (d.arrive port 1 k []).1
/-- CONTROL_PACKET. -/
def controlPacketEff (port : Nat) (k : Packet) (data : List Byte) (d : Dev) : Dev := (d.arrive port 4 k data).1

/-- COLLECTIVE_CONTRIBUTION: received, checked against its digest and reduced, or flagged late (R319, R326, R330). -/
def collectiveContributionEff (port : Nat) (k : Packet) (p : Part) (d : Dev) : Dev :=
  let r := d.arrive port 2 k (partBytes p)
  if r.2 then r.1.packetArrives port k (partBytes p) p else r.1
/-- COLLECTIVE_RESULT: received, checked against its digest and written (R326, R330). -/
def collectiveResultEff (port : Nat) (k : Packet) (p : Part) (d : Dev) : Dev :=
  let r := d.arrive port 3 k (partBytes p)
  if r.2 then r.1.packetArrives port k (partBytes p) p else r.1

/-- What the management channel tells the devices of a job, as the model lays it out: kind, job, and three 64-bit values. A
switch names an id, its new device and the switch bell; a resume an id and the resume bell; a failed relief the id; a
roll-back the epoch. -/
def Dev.manage (d : Dev) (data : List Byte) : Dev :=
  let f (o n : Nat) : Nat := leValue ((data.drop o).take n)
  let kind := f 0 1
  let cs := d.jobCtxs (f 4 4)
  let a := f 8 8
  if kind = 6 then d.stageRemap a (f 16 8) (f 24 8)
  else if kind = 8 then cs.foldl (fun d c => d.nameResume c a (f 16 8)) d
  else if kind = 10 then cs.foldl (fun d c => d.failRelief c a) d
  else if kind = 11 then cs.foldl (fun d c => if (d.ctx c).stepCnt = a + 1 ∧ (d.ctx c).relief.state = 3 then d.rollBack c else d) d
  else d

/-- MANAGEMENT_PACKET. -/
def managementPacketEff (port : Nat) (k : Packet) (data : List Byte) (d : Dev) : Dev :=
  let r := d.arrive port 5 k data
  if r.2 then r.1.manage data else r.1

/-! ## The exchanges of a job (R290, R292, R297) -/

/-- The step that an abandon exchange is about: the older one, or the newer once the seal of the older is decided. -/
def Dev.exchanged (d : Dev) (c : Nat) : Bool :=
  match (d.ctx c).older with
  | some r => r.state = 3 && (match r.decision with | some dec => decide (dec.kind ≠ 2) | none => false)
  | none => false

/-- ABANDON_NOTICE: admission stops and the attempt drains, with PEER; an attempt that seals without a decision joins. -/
def abandonNoticeEff (c src : Nat) (d : Dev) : Dev :=
  if !(d.ctx c).bound || !(d.jobOf c).contains src then d
  else
    let b := d.exchanged c
    match (d.ctx c).step? b with
    | some r =>
      if r.state = 3 then d.unseal c St.ok
      else if r.state = 2 ∨ r.state = 6 then d.declare c b St.ok clsPeer none
      else d
    | none => d

/-- ABANDON_VOTE: kept at the root, which decides once every live device has voted. -/
def abandonVoteEff (c src : Nat) (v : Vote) (d : Dev) : Dev :=
  if !(d.ctx c).bound || !(d.jobOf c).contains src then d
  else
    let b := d.exchanged c
    match (d.ctx c).step? b with
    | some r =>
      if r.state = 5 then (d.updStep c b (fun r => { r with votes := r.votes.filter (fun x => x.1 ≠ src) ++ [(src, v)] })).reduceAbandon c b
      else d
    | none => d

/-- ABANDON_DECISION. -/
def abandonDecisionEff (c : Nat) (dec : Decision) (d : Dev) : Dev :=
  if (d.ctx c).bound then d.applyAbandon c (d.exchanged c) dec else d

/-- SEAL_VOTE: kept at the root, before or after it seals itself. -/
def sealVoteEff (c src : Nat) (v : Vote) (since : Nat) (d : Dev) : Dev :=
  if !(d.ctx c).bound || !(d.jobOf c).contains src then d
  else match (d.ctx c).older with
    | some r =>
      if r.state = 2 ∨ r.state = 3 then
        (d.updStep c false (fun r => { r with votes := r.votes.filter (fun x => x.1 ≠ src) ++ [(src, v)] })).reduceSeal c since
      else d
    | none => d

/-- SEAL_DECISION: armed for its bell, or applied at once where that has passed. -/
def sealDecisionEff (c : Nat) (dec : Decision) (d : Dev) : Dev := if (d.ctx c).bound then d.applySeal c dec else d

/-! ## The rows -/

/-- ACK -/
def execAck (port seq : Nat) (s : State) : Host.Outcome State Fault Refusal := onDev (ackEff port seq) s
/-- NAK -/
def execNak (port seq : Nat) (s : State) : Host.Outcome State Fault Refusal := onDev (nakEff port seq) s
/-- CREDIT -/
def execCredit (port : Nat) (counts : List Nat) (s : State) : Host.Outcome State Fault Refusal := onDev (creditEff port counts) s
/-- FLIT_CRC_FAIL -/
def execFlitCrcFail (port seq : Nat) (s : State) : Host.Outcome State Fault Refusal := onDev (flitCrcFailEff port seq) s
/-- PORT_RETIRE -/
def execPortRetire (port : Nat) (s : State) : Host.Outcome State Fault Refusal := onDev (portRetireEff port) s
/-- WAVELENGTH_FAIL -/
def execWavelengthFail (port lam : Nat) (s : State) : Host.Outcome State Fault Refusal := onDev (wavelengthFailEff port lam) s
/-- ULUSIL_WRITE_PACKET -/
def execUlusilWritePacket (port : Nat) (p : Packet) (data : List Byte) (s : State) : Host.Outcome State Fault Refusal :=
  onDev (ulusilWritePacketEff port p data) s
/-- WRITE_ACK_PACKET -/
def execWriteAckPacket (port : Nat) (p : Packet) (s : State) : Host.Outcome State Fault Refusal := onDev (writeAckPacketEff port p) s
/-- COLLECTIVE_CONTRIBUTION -/
def execCollectiveContribution (port : Nat) (p : Packet) (part : Part) (s : State) : Host.Outcome State Fault Refusal :=
  onDev (collectiveContributionEff port p part) s
/-- COLLECTIVE_RESULT -/
def execCollectiveResult (port : Nat) (p : Packet) (part : Part) (s : State) : Host.Outcome State Fault Refusal :=
  onDev (collectiveResultEff port p part) s
/-- CONTROL_PACKET -/
def execControlPacket (port : Nat) (p : Packet) (data : List Byte) (s : State) : Host.Outcome State Fault Refusal :=
  onDev (controlPacketEff port p data) s
/-- MANAGEMENT_PACKET -/
def execManagementPacket (port : Nat) (p : Packet) (data : List Byte) (s : State) : Host.Outcome State Fault Refusal :=
  onDev (managementPacketEff port p data) s
/-- ABANDON_NOTICE -/
def execAbandonNotice (ctx src : Nat) (s : State) : Host.Outcome State Fault Refusal := onDev (abandonNoticeEff ctx src) s
/-- ABANDON_VOTE -/
def execAbandonVote (ctx src : Nat) (v : Vote) (s : State) : Host.Outcome State Fault Refusal := onDev (abandonVoteEff ctx src v) s
/-- ABANDON_DECISION -/
def execAbandonDecision (ctx : Nat) (dec : Decision) (s : State) : Host.Outcome State Fault Refusal := onDev (abandonDecisionEff ctx dec) s
/-- SEAL_VOTE -/
def execSealVote (ctx src : Nat) (v : Vote) (since : Nat) (s : State) : Host.Outcome State Fault Refusal :=
  onDev (sealVoteEff ctx src v since) s
/-- SEAL_DECISION -/
def execSealDecision (ctx : Nat) (dec : Decision) (s : State) : Host.Outcome State Fault Refusal := onDev (sealDecisionEff ctx dec) s

end Sys2Proof.Machine
end

