-- ==== Sys2Proof/Machine/RegWrite.lean ====
section
/-! DEFINITION. Register reads with a side effect and register writes: by whom, and what each does (R8, R9, R44, R153, R373,
R434, R450 to R453, R459). -/

namespace Sys2Proof.Machine

/-! ## Reads that change something -/

/-- RC_COUNTER_READ: the count is returned and cleared (R9). -/
def rcCounterReadEff (die off : Nat) (d : Dev) : Dev :=
  if !isRc die off || (die ≠ 64 && !d.dieOn die) || (die = 64 && !d.host.linkUp) then d
  else (d.rcPut die off 0).emit (.readValue (word (d.rcGet die off)))

/-- RC_COUNTER_READ -/
def execRcCounterRead (die off : Nat) (s : State) : Host.Outcome State Fault Refusal := onDev (rcCounterReadEff die off) s

/-- BEL_NOW_READ: a read of BEL_NOW_LO latches BEL_NOW_HI and BEL_SINCE of that hub die (R339). -/
def belNowReadEff (die since : Nat) (d : Dev) : Dev :=
  if (die ≠ 16 ∧ die ≠ 17) ∨ !d.dieOn die then d
  else ((d.rwPut die 0x0A000004 0 (d.bell / 2 ^ 32 % 65536)).rwPut die 0x0A000014 0 (since % 2 ^ 32)).emit (.readValue (word d.bell))

/-- BEL_NOW_READ -/
def execBelNowRead (die since : Nat) (s : State) : Host.Outcome State Fault Refusal := onDev (belNowReadEff die since) s

/-! ## Sticky bits (R373) -/

/-- Clear the named bits of sticky register `index`. -/
def Dev.stickyClear (d : Dev) (index : Nat) (value : Word) : Dev :=
  let w := at' d.health.sticky index 0
  { d with health := { d.health with sticky := setAt d.health.sticky index (w &&& ~~~value) } }

/-- STICKY_CLEAR_WRITE: only the Headframe clears sticky bits; hub-core writes are ignored. -/
def stickyClearWriteEff (w : Writer) (index : Nat) (value : Word) (d : Dev) : Dev :=
  match w with
  | .headframe _ => if index < 4 && d.halfOn 0 then d.stickyClear index value else d
  | _ => d

/-- STICKY_CLEAR_WRITE -/
def execStickyClearWrite (w : Writer) (index : Nat) (value : Word) (s : State) : Host.Outcome State Fault Refusal :=
  onDev (fun d => d.byWriter w 16 (0x0B000020 + 4 * index) value (stickyClearWriteEff w index value)) s

/-! ## Writes to a hub die -/

/-- A write of a tracker slot's RW register: a hub core only for a slot of its own context, and no one while an attempt of
the owning context is RUNNING or SEALING (R153). -/
def Dev.slotWrite (d : Dev) (w : Writer) (half n o : Nat) (v : Word) : Dev :=
  let k := slotKey half n
  let x := d.slot k
  let may : Bool := match w with
    | .hub h c => (match d.hubCtx h c with | some y => x.owner = some y | none => false)
    | _ => true
  let busy : Bool := match x.owner with | some c => (d.ctx c).anyStep StepRun.runs | none => false
  if !may || busy then d
  else if o = 0x0C then d.setSlot k { x with scale := v }
  else if o = 0x1C then d.setSlot k { x with normEma := v }
  else if 0x80 ≤ o ∧ o < 0xC0 then d.setSlot k { x with hist := setAt x.hist ((o - 0x80) / 4) v }
  else d

/-- A write of a staged register: its defined bits reach the staged bank; a hub core only for a group of its context (R453,
R459). -/
def Dev.stageWrite (d : Dev) (w : Writer) (die off : Nat) (r : RwsReg) (v : Word) : Dev :=
  let may : Bool := match w with
    | .hub h c => d.hubMayCfg h c r.group
    | .headframe _ => true
    | _ => false
  if may then d.stagePut die off r.reset (Nat.land v.toNat r.mask) else d

/-- A write of a source's configuration: PRIO, FIXED, TARGET and MULTI. A hub core writes only its own context's sources
(R438); a reserved target, and fixed routing by a hub core to a target outside its context, are ignored (R450). -/
def Dev.srcWrite (d : Dev) (w : Writer) (half s : Nat) (v : Word) : Dev :=
  let tgt := bits v.toNat 10 5
  let put : Dev := if 52 ≤ tgt then d else d.rwPut (hubDie half) (0x0F010000 + s * 4) 8 (v.toNat % 4096)
  match w with
  | .hub _ _ =>
    if !d.mayRing w half s then d.dbcRefuse half
    else if bit v.toNat 4 && !(tgt < 48 && d.hubCtx half tgt = srcCtx s) then d
    else put
  | .headframe _ => put
  | _ => d

/-- A write of ATN_PORT_DBELL: one that names a source the context does not own is ignored (R438). -/
def Dev.dbellWrite (d : Dev) (half core : Nat) (v : Word) : Dev :=
  let off := 0x05010024 + core * 64
  match d.hubCtx half core with
  | some c => if srcCtx (v.toNat % 4096) = some c then d.rwPut (hubDie half) off 0 (v.toNat % 0x2000) else d
  | none => d.rwPut (hubDie half) off 0 (v.toNat % 0x2000)

/-- Writes of the registers that the Headframe alone writes: the staged remap table, its switch bell, the Headframe's vector
base (R309, R336, R449). -/
def Dev.headframeWrite (d : Dev) (half off : Nat) (v : Word) : Dev :=
  if 0x09020000 ≤ off ∧ off < 0x09028000 then
    let i := (off - 0x09020000) / 4 * 2
    let t := (d.fab.remapStaged.put 0 i (v.toNat % 32768)).put 0 (i + 1) (v.toNat / 65536 % 32768)
    { d with fab := { d.fab with remapStaged := t } }
  else if off = 0x09000014 then
    { d with fab := { d.fab with switchBell := d.fab.switchBell / 2 ^ 32 * 2 ^ 32 + v.toNat } }
  else if off = 0x09000018 then
    { d with fab := { d.fab with
      switchBell := d.fab.switchBell % 2 ^ 32 + v.toNat % 65536 * 2 ^ 32, switchPending := bit v.toNat 16 } }
  else if off = 0x0F000020 then d.rwPut (hubDie half) off 0 v.toNat
  else if off = 0x0F000024 then d.rwPut (hubDie half) off 0 (v.toNat % 2 ^ 20)
  else d

/-- A write of a register of a hub die by a hub core or the Headframe that reaches it. Read-only, committed and RC registers
ignore it (R9). -/
def Dev.hubRegWrite (d : Dev) (w : Writer) (half off : Nat) (v : Word) : Dev :=
  let die := hubDie half
  let own (c : Nat) : Bool := match w with | .hub _ k => k = c | _ => false
  match rwsReg die off with
  | some r => d.stageWrite w die off r v
  | none =>
    if 0x02000000 ≤ off ∧ off < 0x02100000 then d.slotWrite w half ((off - 0x02000000) / 256) (off % 256) v
    else if 0x04010000 ≤ off ∧ off < 0x04010C00 then
      let c := (off - 0x04010000) / 64
      if !own c then d
      else if off % 64 = 0x18 then tlyPortGoEff half c v d
      else if off % 64 < 0x18 then d.rwPut die off 0 v.toNat else d
    else if 0x05010000 ≤ off ∧ off < 0x05010C00 then
      let c := (off - 0x05010000) / 64
      if !own c then d
      else match off % 64 with
        | 0x18 => if v = 1 then d.kvPortStart half c 1 else if v = 2 then d.kvPortStart half c 2 else d
        | 0x24 => d.dbellWrite half c v
        | _ => match plainReg off with | some (r, m) => d.rwPut die off r (Nat.land v.toNat m) | none => d
    else if 0x08010000 ≤ off ∧ off < 0x08010300 then
      let c := (off - 0x08010000) / 16
      if own c && off % 16 = 8 then hubDoneWriteEff half c v d else d
    else if off = 0x0F000000 then dbcDoorbellEff w half v d
    else if off = 0x0F000004 then dbcMaskSetEff w half v d
    else if off = 0x0F000008 then dbcMaskClrEff w half v d
    else if off = 0x0F00000C then dbcPendSetEff w half v d
    else if off = 0x0F000010 then dbcPendClrEff w half v d
    else if off = 0x0F000014 then match w with | .hub _ c => dbcEoiEff half c v d | _ => d
    else if 0x0F010000 ≤ off ∧ off < 0x0F014000 then d.srcWrite w half ((off - 0x0F010000) / 4) v
    else if 0x0F020000 ≤ off ∧ off < 0x0F020340 then
      let t := (off - 0x0F020000) / 16
      if off % 16 = 4 && (own t || (decide (48 ≤ t) && (match w with | .headframe _ => true | _ => false))) then d.rwPut die off 0 (v.toNat % 16) else d
    else if 0x0F030000 ≤ off ∧ off < 0x0F030080 then
      let may : Bool := match w with | .hub h k => d.hubCtx h k = some ((off - 0x0F030000) / 16) | _ => false
      match plainReg off with
      | some (r, m) => if may then d.rwPut die off r (Nat.land v.toNat m) else d
      | none => d
    else if off = 0x10000000 then cfgCommitWriteEff w half v d
    else if half = 0 ∧ 0x0B000020 ≤ off ∧ off < 0x0B000030 then stickyClearWriteEff w ((off - 0x0B000020) / 4) v d
    else match w with
      | .headframe _ => d.headframeWrite half off v
      | _ => d

/-- A write of any register: the host reaches BAR0 (die 64) only, the Headframe control space of every die that is on, a hub
core what R434 lets it reach; its other writes raise an access fault (R11, R43, R44). -/
def Dev.writeReg (d : Dev) (w : Writer) (die off : Nat) (v : Word) : Dev :=
  let half := dieHalf die
  match w with
  | .host => if die = 64 then d.bar0Write off v else d
  | .hub h c =>
    if !d.halfOn h || 48 ≤ c then d
    else if die = 64 || off % 4 ≠ 0 || !d.hubReaches h c die off then d.hubTrap h c faultStore (ctlDpa die off)
    else if die = hubDie half then d.hubRegWrite w half off v else d
  | .headframe core => if off % 4 = 0 then d.hfStore core die off v (fun d => if die = 16 || die = 17 then d.hubRegWrite w half off v else d) else d
  | .mailbox _ => d

/-- REGISTER_WRITE -/
def execRegisterWrite (w : Writer) (die off : Nat) (value : Word) (s : State) : Host.Outcome State Fault Refusal :=
  onDev (fun d => d.writeReg w die off value) s

/-- CFG_COMMIT_WRITE -/
def execCfgCommitWrite (w : Writer) (half : Nat) (value : Word) (s : State) : Host.Outcome State Fault Refusal :=
  onDev (fun d => d.byWriter w (hubDie half) 0x10000000 value (cfgCommitWriteEff w half value)) s

end Sys2Proof.Machine
end

