-- ==== Sys2Proof/Machine/Deep.lean ====
section
/-! DEFINITION. The crosscut's messages, the ends of deep-tier requests, repair and scrubbing, and the retirement of locations
(R23, R27 to R34, R44, R240, R244, R253 to R257, R368). -/

namespace Sys2Proof.Machine

/-! ## The crosscut (R23, R27 to R34) -/

/-- The crosscut link carries traffic: both halves are powered and the link has not retired. -/
def Dev.xcOn (d : Dev) (dir link : Nat) : Bool := !d.isClassA && dir < 2 && link < 32 && (d.xlink dir link).up

/-- A message dropped at an ingress (R23). -/
def Dev.xcDrop (d : Dev) : Dev := d.rcAdd 16 0x00030010 1

/-- A control message writes a register of the receiving half for the Headframe core that WINDOW names: words 0 and 1 are its
DPA, word 2 the value. One that names no core, or no control-space register of that half, is dropped and counted. -/
def Dev.xcControl (d : Dev) (half : Nat) (m : XMsg) : Dev :=
  let a := (at' m.words 0 0).toNat + (at' m.words 1 0).toNat * 2 ^ 32
  let die := bits a 37 32
  if m.words.length = 3 ∧ m.window < 4 ∧ tierOf a = 0xF ∧ halfOf a = half ∧ d.dpaValid a ∧ (die = 16 ∨ die = 17) then
    d.hubRegWrite (.headframe m.window) half (a % 2 ^ 32) (at' m.words 2 0)
  else d.xcDrop

/-- The instance of a window goes on where it has everything that it reads (R24). -/
def Dev.inputArrived (d : Dev) (c : Nat) (newer : Bool) (task mb : Nat) : Dev :=
  match d.inst? c newer task mb with
  | none => d
  | some x => if x.op = opHub then d.refreshHubSource x.half x.src else d.startColl x

/-- What a message brings to a window: the copy it reads, a write at an offset, or a fabric packet (R22, R24, R33, R313). -/
def Dev.intoWindow (d : Dev) (w : Window) (m : XMsg) : Dev :=
  let isIt (y : Window) : Bool := y.half = w.half && y.num = w.num && y.gen = w.gen
  let upd (d : Dev) (f : Window → Window) : Dev :=
    { d with xc := { d.xc with windows := d.xc.windows.map (fun y => if isIt y then f y else y) } }
  match w.use with
  | .read =>
    (upd d (fun y => { y with got := true, words := m.words, poison := m.poison })).inputArrived w.ctx w.newer w.task w.mb
  | .out =>
    let off := (at' m.words 0 0).toNat + (at' m.words 1 0).toNat * 2 ^ 32
    let n := (at' m.words 2 0).toNat
    let put : List (Nat × List Byte) := [(w.addr + off, (wordsBytes (m.words.drop 3)).take n)]
    if m.words.length < 3 || w.bytes < off + n || m.words.length ≠ 3 + ceilDiv n 4 then d.xcDrop
    else upd (if m.poison then d.poisonRun w.ctx w.mb put else d.putRun w.ctx w.mb put) (fun y => { y with due := y.due - 1 })
  | .packet k =>
    { d with xc := { d.xc with windows := d.xc.windows.filter (fun y => !isIt y) } }.packetIn k w.ctx w.newer
      { m with poison := m.poison || k.poison }

/-- A data or collective message at the ingress of a half: written to the open window it names, or dropped and counted (R23). -/
def Dev.deliverWindow (d : Dev) (half : Nat) (m : XMsg) : Dev :=
  match d.xc.windows.find? (fun w => w.half = half && w.num = m.window && w.gen = m.gen && !w.got) with
  | none => d.xcDrop
  | some w => d.intoWindow w m

/-- A whole message at the ingress of a half (R23, R34). -/
def Dev.ingress (d : Dev) (half : Nat) (m : XMsg) : Dev :=
  if d.xc.fenced then d.fencedMsg half m
  else if m.cls = 2 then d.xcControl half m
  else if m.cls < 2 then d.deliverWindow half m
  else d.xcDrop

/-- A flit reaches its receiver (R29, R30): one that fails parity is discarded with every later one, and asked for again by its
place in the sequence; one in its place joins its message, which is delivered with its last flit, and is acknowledged. A
message with a reserved value is dropped and counted (log entry 63). -/
def Dev.takeFlit (d : Dev) (dir link : Nat) (f : XFlit) : Dev :=
  let x := d.xlink dir link
  if !flitOk f then
    if x.discarding && flitSeq f ≠ x.rxSeq then d
    else (d.setXlink dir link { x with discarding := true }).emit (.crosscutNak dir link x.rxSeq)
  else if flitSeq f ≠ x.rxSeq then d
  else
    let m := joinFlit f (x.rx.find? (flitClass f))
    let d1 := (d.setXlink dir link { x with
      rxSeq := (x.rxSeq + 1) % 4096, discarding := false, rx := if flitLast f then x.rx.erase (flitClass f) else x.rx.insert (flitClass f) m }).emit
      (.crosscutAck dir link (flitSeq f))
    if flitLast f then d1.ingress (1 - dir) m else d1

/-- CROSSCUT_MESSAGE: the flits of a message arrive, in the order of the link. -/
def crosscutMessageEff (dir link : Nat) (flits : List XFlit) (d : Dev) : Dev :=
  if d.xcOn dir link then flits.foldl (fun d f => if d.xcOn dir link then d.takeFlit dir link f else d) d else d

/-- CROSSCUT_REPLAY_REQUEST: the sender resends from the flit named; on its eighth failing send the link retires. -/
def crosscutReplayRequestEff (dir link seq : Nat) (d : Dev) : Dev :=
  if !d.xcOn dir link then d
  else if flitDead (d.xlink dir link).replay (seq % 4096) then d.retireLink dir link
  else d.nakLink dir link (seq % 4096)

/-- CROSSCUT_LINK_RETIRE. -/
def crosscutLinkRetireEff (dir link : Nat) (d : Dev) : Dev := if d.xcOn dir link then d.retireLink dir link else d
/-- CROSSCUT_ACK. -/
def crosscutAckEff (dir link seq : Nat) (d : Dev) : Dev := if d.xcOn dir link then d.ackLink dir link (seq % 4096) else d
/-- CROSSCUT_PARITY_FAIL: a flit that fails parity arrives. -/
def crosscutParityFailEff (dir link : Nat) (flit : XFlit) (d : Dev) : Dev :=
  if d.xcOn dir link && !flitOk flit then d.takeFlit dir link flit else d

/-! ## Ends of deep-tier requests (R216, R240, R244) -/

/-- The lines of n bytes at an address are poisoned. -/
def Dev.poisonSpan (d : Dev) (a n : Nat) : Dev := upto (ceilDiv n 64) (fun i d => d.poisonLine (lineOf a + i)) d

/-- A command that the page mover serves notes the status of a request that failed. -/
def Dev.noteFail (d : Dev) (q : DeepReq) (st : Status) : Dev :=
  { d with host := { d.host with inflight := d.host.inflight.map (fun (x : Inflight) =>
      if q.cmd = some x.id then { x with note := st.toNat } else x) } }

/-- A request has its data. -/
def Dev.deepArrived (d : Dev) (q : DeepReq) (poison : Bool) (data : List Byte) : Dev :=
  match q.kind with
  | 0 =>
    let d1 := d.writeMem q.target data
    (if poison then d1.poisonSpan q.target (max data.length 1) else d1).inputArrived q.ctx q.newer q.task q.mb
  | 1 | 6 => d.fetchExt q.target data poison
  | 2 =>
    let a := q.target / 2 ^ 20
    let p := q.target % 2 ^ 20
    let hp := d.seqPool a
    let n := d.frameBytes hp.1 hp.2
    let bytes := if data.isEmpty then d.mem.readBytes (d.deepFrameAddr hp.1 hp.2 (ptFrame (d.ptEntry (d.seqRec a).ptPtr p))) n else data.take n
    d.fetchPage q bytes poison
  | 3 => d.evictExtEnd q.target true
  | 4 => d.evictPageEnd q true
  | 5 => d.writeMem q.target q.data
  | _ => d

/-- A request ended without its data: only its owner is affected (R244). An eviction is abandoned, and evict_for fails for whom it
served (R239); a hub core takes an access fault. -/
def Dev.deepFailed (d : Dev) (q : DeepReq) (st : Status) : Dev :=
  let unit := hubUnit q.half 0xD
  let owner (d : Dev) (st : Status) : Dev := match d.inst? q.ctx q.newer q.task q.mb with
    | some x => if x.state = 0 then d.endWait x st unit else d
    | none => d
  match q.kind with
  | 0 => d.cause q.ctx q.newer st clsTask unit q.task q.target
  | 1 => owner (d.fetchExtFail q.target) st
  | 2 => owner d st
  | 3 =>
    let d1 := (d.evictExtEnd q.target false).noteFail q st
    if q.ctx < 8 ∧ q.cmd = none then owner d1 St.hbmExhausted else d1
  | 4 => d.evictPageEnd q false
  | 5 => d.hubTrap q.half q.task faultStore q.target
  | 6 => (d.fetchExtFail q.target).noteFail q st
  | _ => d

/-- A request ends; one that has ended already is not there, and what arrives for it is discarded. -/
def Dev.deepEnd (d : Dev) (id : Nat) (f : Dev → DeepReq → Dev) : Dev :=
  match d.deep.find? (fun q => q.id = id) with
  | none => d
  | some q => f { d with deep := d.deep.filter (fun (r : DeepReq) => r.id ≠ id) } q

/-- DEEP_RESPONSE: data, or an error completion. -/
def deepResponseEff (id : Nat) (ok poison : Bool) (data : List Byte) (d : Dev) : Dev :=
  d.deepEnd id (fun d q => if ok then d.deepArrived q poison data else d.deepFailed q St.deepError)
/-- DEEP_TIMEOUT: a request is outstanding at its deadline. -/
def deepTimeoutEff (id : Nat) (d : Dev) : Dev := d.deepEnd id (fun d q => d.deepFailed q St.deepTimeout)
/-- DEEP_LINK_DOWN: every request outstanding on the half's port ends. -/
def deepLinkDownEff (half : Nat) (d : Dev) : Dev :=
  ((d.deep.filter (fun q => q.half = half)).map (·.id)).foldl (fun d id => d.deepEnd id (fun d q => d.deepFailed q St.deepError)) d

/-! ## Repair and scrubbing (R235, R255 to R257) -/

/-- PARITY_REPAIR_DONE: the lines that await repair and were rebuilt are written whole; data that cannot be repaired, or lies
in no ring, is lost. A repair waits for a pending upkeep. -/
def parityRepairDoneEff (c : Nat) (ok : Bool) (lines : List (Nat × List Byte)) (d : Dev) : Dev :=
  let x := d.ctx c
  match x.repairs with
  | [] => d
  | l0 :: _ =>
    if !ok || !x.relief.inRing then (d.updCtx c (fun x => { x with repairs := [] })).loseContext c (64 * l0)
    else if x.relief.upkeep then d
    else
      let got := lines.filter (fun p => x.repairs.contains (lineOf p.1) && decide (p.1 % 64 = 0) && decide (p.2.length = 64))
      let d1 := got.foldl (fun d p => (d.writeMem p.1 p.2).record
        { type := Rt.memory, status := St.parityRepaired, addr := p.1, ctx := some c }) d
      let done (l : Nat) : Bool := got.any (fun p => lineOf p.1 = l)
      d1.updCtx c (fun x => { x with repairs := x.repairs.filter (fun l => !done l), scrubbed := x.scrubbed.filter (fun l => !done l) })

/-- SCRUB_LINE: the scrub of one line of HBM. It waits while an admitted task holds the extent. A line of a PARITY allocation goes
to repair at the next step boundary, at once where the context has no step. -/
def scrubLineEff (half off err : Nat) (d : Dev) : Dev :=
  let a := half * 2 ^ 47 + off / 64 * 64
  if 1 < half ∨ 2 ^ 38 ≤ off ∨ ¬ d.dpaValid a ∨ d.heldExt (a / 2 ^ 21) then d
  else if err = 1 then d.enterEvent (hbmUnit a) a 0
  else if err = 2 then
    let d1 := ((d.poisonLine (lineOf a)).stick Sticky.uncorrected).record
      { type := Rt.memory, unit := hbmUnit a, status := St.memUncorrected, addr := a }
    let d2 := upto 8 (fun c d => if (d.ctx c).isOpen && d.isParity c a then
      d.updCtx c (fun x => if x.older.isSome then { x with scrubbed := insertNat x.scrubbed (lineOf a) }
        else { x with repairs := insertNat x.repairs (lineOf a) }) else d) d1
    d2.enterEvent (hbmUnit a) a 1
  else d

/-! ## Retirement (R368) -/

/-- The unit id of the bank of a stash location (R364). -/
def stashUnit (a : Nat) : Nat := (18 + halfOf a) * 1024 + bits a 29 28 * 256 + bits a 27 24 * 16

/-- A location has been retired: its record and sticky bit, and what the thresholds say of the device. -/
def Dev.retired! (d : Dev) (unit key : Nat) (fails : Bool) : Dev :=
  let d1 := (d.stick Sticky.mapout).record { type := Rt.health, unit := unit, status := St.locationRetired, addr := key }
  (if fails then d1.failDevice unit else d1).refreshHealth

/-- LOCATION_RETIRE: a permanent location is replaced. A stash block goes to a spare block; an HBM extent to a free extent,
for which others are evicted; where none can be had it waits. -/
def locationRetireEff (kind key : Nat) (d : Dev) : Dev :=
  if !d.health.pendRetire.contains (kind, key) then d
  else
    let h := d.health
    let left := h.pendRetire.filter (· ≠ (kind, key))
    if kind = 0 then
      let s := halfOf key
      let n := at' h.stashSpare s 0
      Dev.retired! { d with health := { h with
        pendRetire := left, stashRetired := insertNat h.stashRetired (key / 65536), stashSpare := setAt h.stashSpare s (n - 1) } }
        (stashUnit key) key (n = 0)
    else
      let e := key / 2 ^ 21
      let r := Dev.evictFor .device (halfOf key) 1 (hbmExtents + 1) d
      if d.heldExt e || decide (r.2 ≠ .ok) then (if r.2 = .busy then r.1 else d)
      else
        let all := insertNat h.hbmRetired e
        Dev.retired! { r.1 with health := { r.1.health with pendRetire := left, hbmRetired := all } } (hbmUnit key) key
          (decide (1024 ≤ (all.filter (fun e => halfOf (e * 2 ^ 21) = halfOf key)).length))

/-! ## The rows -/

/-- CROSSCUT_MESSAGE -/
def execCrosscutMessage (dir link : Nat) (first : XFlit) (rest : List XFlit) (s : State) : Host.Outcome State Fault Refusal :=
  onDev (crosscutMessageEff dir link (first :: rest)) s
/-- CROSSCUT_REPLAY_REQUEST -/
def execCrosscutReplayRequest (dir link seq : Nat) (s : State) : Host.Outcome State Fault Refusal :=
  onDev (crosscutReplayRequestEff dir link seq) s
/-- CROSSCUT_LINK_RETIRE -/
def execCrosscutLinkRetire (dir link : Nat) (s : State) : Host.Outcome State Fault Refusal := onDev (crosscutLinkRetireEff dir link) s
/-- CROSSCUT_ACK -/
def execCrosscutAck (dir link seq : Nat) (s : State) : Host.Outcome State Fault Refusal := onDev (crosscutAckEff dir link seq) s
/-- CROSSCUT_PARITY_FAIL -/
def execCrosscutParityFail (dir link : Nat) (flit : XFlit) (s : State) : Host.Outcome State Fault Refusal :=
  onDev (crosscutParityFailEff dir link flit) s
/-- SCRUB_LINE -/
def execScrubLine (half off err : Nat) (s : State) : Host.Outcome State Fault Refusal := onDev (scrubLineEff half off err) s
/-- LOCATION_RETIRE -/
def execLocationRetire (kind key : Nat) (s : State) : Host.Outcome State Fault Refusal := onDev (locationRetireEff kind key) s

end Sys2Proof.Machine
end

