-- ==== Sys2Proof/Machine/Firmware.lean ====
section
/-! DEFINITION. Headframe firmware: the kernel's ticks and shedding, restarts and hand-over, the rescan of commands in flight,
absence, and the management port (R414 to R429). -/

namespace Sys2Proof.Machine

/-- The complex in control. -/
def Dev.cplx (d : Dev) : Complex := at' d.fw.complexes d.fwHalf {}
/-- Change the complex in control. -/
def Dev.updCplx (d : Dev) (f : Complex → Complex) : Dev :=
  { d with fw := { d.fw with complexes := setAt d.fw.complexes d.fwHalf (f d.cplx) } }
/-- A complex is in control and no hand-over is under way. -/
def Dev.fwRuns (d : Dev) : Bool := d.cplx.active && !d.fw.handing

/-- The core to which a service is bound, by its priority less one (R414). -/
def svcCore (i : Nat) : Nat := at' [0, 0, 1, 1, 2, 3, 2, 2, 3] i 0
/-- A service's reservation in µs of each 1 ms (R414). -/
def svcShare (i : Nat) : Nat := at' [100, 100, 150, 250, 250, 400, 150, 50, 100] i 0
/-- The services bound to a core, by priority less one. -/
def coreSvcs (core : Nat) : List Nat := (List.range 9).filter (fun i => svcCore i = core)

/-! ## Ticks and shedding (R414, R417) -/

/-- What the services of a core get of one tick: first each its reservation, then what is left by priority; at shed level 3
the mailbox service gets no more than its reservation. `work` holds each service's work in µs. -/
def grants (shed : Nat) (run : List Nat) (work : List Nat) : List (Nat × Nat) :=
  let base := run.map (fun i => (i, min (at' work i 0) (svcShare i)))
  let left := 1000 - (base.map (·.2)).sum
  (base.foldl (fun (a : List (Nat × Nat) × Nat) p =>
    let more := if p.1 = 5 ∧ 3 ≤ shed then 0 else min (at' work p.1 0 - p.2) a.2
    (a.1 ++ [(p.1, p.2 + more)], a.2 - more)) ([], left)).1

/-- KERNEL_TICK: the services of a core that run share its next 1 ms. -/
def kernelTickEff (half core : Nat) (work : List Nat) (d : Dev) : Dev :=
  if half ≠ d.fwHalf || !d.fwRuns || !d.cplx.cores.contains core then d
  else
    let g := grants d.fw.shed ((coreSvcs core).filter (fun i => at' d.fw.svc i 0 = 0)) work
    d.updCplx (fun x => { x with
      busy := setAt x.busy core (at' x.busy core 0 + (g.map (·.2)).sum)
      granted := g.foldl (fun (l : List Nat) p => setAt l p.1 p.2) x.granted })

/-- The shed level takes a value; a change writes its record. -/
def Dev.setShed (d : Dev) (n : Nat) : Dev :=
  if d.fw.shed = n then d
  else Dev.record { d with fw := { d.fw with shed := n } } { type := Rt.firmware, status := St.fwShed, opcode := n }

/-- SHED_WINDOW_END: a core busy for more than 95 % raises the level, the tenth quiet window in a row lowers it. -/
def shedWindowEndEff (half : Nat) (d : Dev) : Dev :=
  if half ≠ d.fwHalf || !d.fwRuns then d
  else
    let b := d.cplx.busy
    let d1 := d.updCplx (fun x => { x with busy := [0, 0, 0, 0] })
    let quiet (n : Nat) (d : Dev) : Dev := { d with fw := { d.fw with quiet := n } }
    if b.any (fun t => decide (9500 < t)) then (quiet 0 d1).setShed (min 3 (d1.fw.shed + 1))
    else if !b.all (fun t => decide (t < 8000)) then quiet 0 d1
    else if d1.fw.quiet < 9 then quiet (d1.fw.quiet + 1) d1
    else (quiet 0 d1).setShed (d1.fw.shed - 1)

/-! ## Restarts (R420 to R423) -/

/-- A service of priority 1 to 6 does not run: firmware is absent from now on, unless it was already (R423). -/
def Dev.noteAbsent (d : Dev) : Dev :=
  if d.fw.absentSince.isNone && (d.fw.svc.take 6).any (· ≠ 0) then { d with fw := { d.fw with absentSince := some d.opUs } } else d

/-- The restarts of the last 60 s of operation. -/
def Dev.recentRestarts (d : Dev) : List Nat := d.fw.restartTimes.filter (fun t => decide (d.opTime ≤ t + 60))

/-- A restart begins: 0 of a service, 1 of a core, 2 of the complex. -/
def Dev.startRestart (d : Dev) (level unit : Nat) (svcs cores : List Nat) : Dev :=
  let f := d.fw
  let d1 : Dev := { d with fw := { f with
    svc := svcs.foldl (fun (l : List Nat) i => setAt l i 1) f.svc
    restarts := setAt f.restarts level (at' f.restarts level 0 + 1)
    restartTimes := d.recentRestarts ++ [d.opTime], lastRestart := d.bell } }
  let d2 := d1.updCplx (fun x => { x with
    restarting := max x.restarting (level + 1), restartingCores := cores, cores := x.cores.filter (fun c => !cores.contains c) })
  (d2.noteAbsent.stick Sticky.fwRestart).record
    { type := Rt.firmware, unit := unit
      status := if level = 0 then St.fwServiceRestart else if level = 1 then St.fwCoreRestart else St.fwComplexRestart }

/-- The complex restarts. -/
def Dev.restartComplex (d : Dev) : Dev := d.startRestart 2 0xFFFF (List.range 9) [0, 1, 2, 3]

/-- SERVICE_EXCEPTION: the service restarts. -/
def serviceExceptionEff (prio : Nat) (d : Dev) : Dev :=
  if !d.fwRuns || prio = 0 || 9 < prio || at' d.fw.svc (prio - 1) 0 ≠ 0 then d
  else d.startRestart 0 (hubUnitIx d.fwHalf 0xA (svcCore (prio - 1))) [prio - 1] d.cplx.restartingCores

/-- WATCHDOG_BITE: the core restarts; while a core restarts already, the complex does. -/
def watchdogBiteEff (core : Nat) (d : Dev) : Dev :=
  if !d.fwRuns || !d.cplx.cores.contains core then d
  else if 2 ≤ d.cplx.restarting then d.restartComplex
  else d.startRestart 1 (hubUnitIx d.fwHalf 0xA core) (coreSvcs core) [core]

/-- CORE_RESTART_TIMEOUT: a core restart not done within 20 ms. -/
def coreRestartTimeoutEff (d : Dev) : Dev := if d.fwRuns && d.cplx.restarting = 2 then d.restartComplex else d

/-- The rescan of R422: an idempotent command in flight is executed again and goes on waiting with RESCANNED; any other
completes with FW_RESTARTED. -/
def Dev.rescan (d : Dev) : Dev :=
  let l := d.host.inflight
  let keep := (l.filter (fun x => x.h.idem && !x.discard)).map (fun (x : Inflight) => { x with rescanned := true })
  (l.filter (fun x => !x.h.idem && !x.discard)).foldl (fun (d : Dev) x => d.answer x.h false St.fwRestarted [])
    { d with host := { d.host with inflight := keep } }

/-- Every service runs: absence ends, admission resumes, the shed level restarts at 0 (R421, R423). -/
def Dev.fwResume (d : Dev) : Dev :=
  let f := d.fw
  let len := match f.absentSince with | some t => (d.opUs - t) / 1000 | none => 0
  let mailbox : Bool := decide (at' f.svc 5 0 ≠ 0)
  let d1 : Dev := { d with fw := { f with
    svc := [0, 0, 0, 0, 0, 0, 0, 0, 0], absentSince := none, absentMax := max f.absentMax len, paused := false, quiet := 0, handing := false } }
  let d2 := (d1.updCplx (fun x => { x with restarting := 0, restartingCores := [], cores := [0, 1, 2, 3], busy := [0, 0, 0, 0] })).setShed 0
  if mailbox then d2.rescan else d2

/-! ## Hand-over (R424, R425) -/

/-- The standby takes control, and the other complex is out until the module is power-cycled; without a standby the device
fails. -/
def Dev.handOver (d : Dev) : Dev :=
  let old := d.fwHalf
  let new := 1 - old
  if !(at' d.fw.complexes new {}).standby then d.failDevice (hubUnit old 0xA)
  else
    let l := setAt (setAt d.fw.complexes old { out := true }) new { active := true, tookOver := true }
    let d1 : Dev := { d with fw := { d.fw with
      complexes := l, handing := true, svc := [1, 1, 1, 1, 1, 1, 1, 1, 1], restartTimes := [] } }
    ((d1.noteAbsent.stick Sticky.fwHandover).record { type := Rt.firmware, status := St.fwHandover }).refreshHealth

/-- The digest of the retained image does not match (R420). -/
def Dev.imageCorrupt (d : Dev) : Dev := (d.record { type := Rt.firmware, status := St.fwImageCorrupt }).handOver

/-- FW_RESTART_DONE: the services that restarted run again, unless the retained image fails its digest check. -/
def fwRestartDoneEff (imageOk : Bool) (d : Dev) : Dev :=
  if !d.fwRuns || d.cplx.restarting = 0 then d else if imageOk then d.fwResume else d.imageCorrupt

/-- A Headframe core or the Headframe SRAM of the complex in control is PERMANENT. -/
def Dev.cplxPermanent (d : Dev) : Bool :=
  (List.range 4).any (fun c => decide (2 ≤ (d.hist (hubUnitIx d.fwHalf 0xA c)).state)) || decide (2 ≤ (d.hist (hubUnit d.fwHalf 0xB)).state)

/-- HANDOVER: on the trigger it names. -/
def handoverEff (why : Nat) (d : Dev) : Dev :=
  if !d.fwRuns then d
  else if why = 0 then if 3 ≤ d.recentRestarts.length then d.handOver else d
  else if why = 1 then if d.cplx.restarting ≠ 0 then d.imageCorrupt else d
  else if why = 2 then if d.cplxPermanent then d.handOver else d
  else d

/-- HANDOVER_DONE: the standby runs every service. -/
def handoverDoneEff (d : Dev) : Dev := if d.fw.handing then d.fwResume else d

/-! ## Absence (R423) -/

/-- FW_ABSENT: admission pauses in both halves. -/
def fwAbsentEff (d : Dev) : Dev :=
  if d.fw.absentSince.isNone || d.fw.paused then d
  else Dev.record { d with fw := { d.fw with paused := true } } { type := Rt.firmware, status := St.fwAbsent }

/-- FW_ABSENT_FAILED: with no complex running, the hardware's heartbeats say that the device failed. -/
def fwAbsentFailedEff (d : Dev) : Dev :=
  if d.fw.absentSince.isNone || (d.fwRuns && d.cplx.restarting ≠ 3) then d else { d with fab := { d.fab with hbState := 3 } }

/-! ## The management port (R426 to R428) -/

/-- The management port of the complex in control has its optics on: P22, or P47 after a hand-over. -/
def Dev.mgmtUp (d : Dev) : Bool := d.fwRuns && d.cplx.restarting ≠ 3 && d.dieOn (if d.fwHalf = 0 then 25 else 31)

/-- Change a subscription. -/
def Dev.updSub (d : Dev) (id : Nat) (f : Subscription → Subscription) : Dev :=
  { d with fw := { d.fw with subs := d.fw.subs.map (fun (q : Subscription) => if q.id = id then f q else q) } }

/-- The next event of a subscription is sent: one with MGMT_QUEUE_DROP and the count where events were dropped, otherwise the
oldest queued. What has arrived leaves the queue; a failure adds to the failed sends. -/
def Dev.sendEvent (d : Dev) (q : Subscription) (ok : Bool) : Dev :=
  let fail (q : Subscription) : Subscription := { q with stage := min 14 (q.stage + 1) }
  if q.dropped ≠ 0 then
    let r := d.mkRecord { type := Rt.firmware, status := St.mgmtQueueDrop, addr := q.dropped }
    (d.drawn.emit (.redfish q.id r)).updSub q.id (fun q => if ok then { q with dropped := 0, stage := 0 } else fail q)
  else match q.queue with
    | [] => d
    | r :: rest => (d.emit (.redfish q.id r)).updSub q.id (fun q => if ok then { q with queue := rest, stage := 0 } else fail q)

/-- REDFISH_PUSH: the first send of an event. -/
def redfishPushEff (sub : Nat) (ok : Bool) (d : Dev) : Dev :=
  match d.fw.subs.find? (fun q => q.id = sub) with
  | some q => if q.stage = 0 && d.mgmtUp && at' d.fw.svc 6 0 = 0 then d.sendEvent q ok else d
  | none => d

/-- REDFISH_RETRY: the event is sent again after its backoff: 1 s after the first failure, 5 s after the next twelve, then
60 s. -/
def redfishRetryEff (sub : Nat) (ok : Bool) (d : Dev) : Dev :=
  match d.fw.subs.find? (fun q => q.id = sub) with
  | some q => if q.stage ≠ 0 && d.mgmtUp && at' d.fw.svc 6 0 = 0 then d.sendEvent q ok else d
  | none => d

/-- The lowest free subscription number. -/
def Dev.freeSub (d : Dev) : Option Nat := (List.range 8).find? (fun n => d.fw.subs.all (fun q => q.id ≠ n))

/-- REDFISH_REQUEST. An answer without values refuses. -/
def redfishRequestEff (op arg : Nat) (d : Dev) : Dev :=
  let answer (l : List Nat) (d : Dev) : Dev := d.emit (.redfishAnswer op l)
  if !d.mgmtUp then d
  else match op with
    | 0 | 1 =>
      if op = 1 ∧ !bit (d.committed (hubDie d.fwHalf) 0x0E00001C) 1 then answer [] d
      else match d.freeSub with
        | some n => answer [n] { d with fw := { d.fw with subs := d.fw.subs ++ [{ id := n, sse := op = 1 }] } }
        | none => answer [] d
    | 2 =>
      if d.fw.subs.any (fun q => q.id = arg) then
        answer [arg] { d with fw := { d.fw with subs := d.fw.subs.filter (fun q => q.id ≠ arg) } }
      else answer [] d
    | 3 => answer (match d.log.records.reverse[arg]? with | some r => r.bytes.map BitVec.toNat | none => []) d
    | 4 => answer (Config.redfishAnswer op arg) d
    | 5 => answer [d.pwrWord 0x14, d.pwrWord 0x18, d.pwrWord 0x1C, d.pwrWord 0x20] d
    | _ => d

/-- SPDM_TCP_REQUEST: the port's connection has its own state (R411). -/
def spdmTcpRequestEff (req : List Byte) (d : Dev) : Dev :=
  if !d.mgmtUp || req.length < 4 || 4096 < req.length then d
  else
    let h := d.fw.spdmTcp ++ [req]
    let a := Config.spdmAnswer (d.fw.measured.flatMap (leBytes 48) :: h)
    let d1 : Dev := { d with fw := { d.fw with spdmTcp := h } }
    if 4096 < a.length then d1 else d1.emit (.spdm a)

/-! ## The rows -/

/-- REDFISH_PUSH -/
def execRedfishPush (sub : Nat) (ok : Bool) (s : State) : Host.Outcome State Fault Refusal := onDev (redfishPushEff sub ok) s
/-- REDFISH_RETRY -/
def execRedfishRetry (sub : Nat) (ok : Bool) (s : State) : Host.Outcome State Fault Refusal := onDev (redfishRetryEff sub ok) s
/-- REDFISH_REQUEST -/
def execRedfishRequest (op arg : Nat) (s : State) : Host.Outcome State Fault Refusal := onDev (redfishRequestEff op arg) s
/-- SPDM_TCP_REQUEST -/
def execSpdmTcpRequest (req : List Byte) (s : State) : Host.Outcome State Fault Refusal := onDev (spdmTcpRequestEff req) s
/-- KERNEL_TICK -/
def execKernelTick (half core : Nat) (work : List Nat) (s : State) : Host.Outcome State Fault Refusal := onDev (kernelTickEff half core work) s
/-- SHED_WINDOW_END -/
def execShedWindowEnd (half : Nat) (s : State) : Host.Outcome State Fault Refusal := onDev (shedWindowEndEff half) s
/-- SERVICE_EXCEPTION -/
def execServiceException (prio : Nat) (s : State) : Host.Outcome State Fault Refusal := onDev (serviceExceptionEff prio) s
/-- WATCHDOG_BITE -/
def execWatchdogBite (core : Nat) (s : State) : Host.Outcome State Fault Refusal := onDev (watchdogBiteEff core) s
/-- CORE_RESTART_TIMEOUT -/
def execCoreRestartTimeout (s : State) : Host.Outcome State Fault Refusal := onDev coreRestartTimeoutEff s
/-- FW_ABSENT -/
def execFwAbsent (s : State) : Host.Outcome State Fault Refusal := onDev fwAbsentEff s
/-- FW_ABSENT_FAILED -/
def execFwAbsentFailed (s : State) : Host.Outcome State Fault Refusal := onDev fwAbsentFailedEff s
/-- HANDOVER -/
def execHandover (why : Nat) (s : State) : Host.Outcome State Fault Refusal := onDev (handoverEff why) s

end Sys2Proof.Machine
end

