-- ==== Sys2Proof/Machine/Canary.lean ====
section
/-! DEFINITION. Canaries, hand-offs and map-out, the health poll and the release of suspect units, and the health and pit-log
commands (R36, R37, R42, R364 to R373, R377, R379, R381, R382). -/

namespace Sys2Proof.Machine

/-! ## Units (R39, R40, R364) -/

/-- A unit id names a unit of the package. -/
def unitKnown (u : Nat) : Bool :=
  let die := unitDie u
  let cl := unitCluster u
  let co := unitCore u
  let sub := unitSub u
  let bare : Bool := decide (cl = 0) && decide (co = 0)
  if 65536 ≤ u then false
  else if die < 40 ∧ sub = 15 then cl = 0 && co = 15
  else if die < 16 then (co < 9 && sub ≤ 6) || (co = 15 && (sub = 7 || sub = 8))
  else if die < 18 then
    if sub = 0 then cl * 16 + co < 48 else if sub = 0xA then cl = 0 && co < 4
    else bare && (sub ≤ 0xE) && !(sub = 8 && die = 17)
  else if die < 20 then sub = 0 || (sub = 1 && bare)
  else if die < 32 then (sub = 0 && cl = 0 && co < 4) || (sub = 1 && co < 8) || (sub = 2 && bare)
  else if die < 40 then sub = 0 || (sub ≤ 2 && bare)
  else die = 63 && sub ≤ 3 && bare

/-- The unit under which a canary of a unit runs: a core's sub-units share the core's canary; none for a unit that has no
canary (R370). -/
def canaryUnit (u : Nat) : Option Nat :=
  let die := unitDie u
  let sub := unitSub u
  if !unitKnown u || sub = 15 then none
  else if die < 16 then
    if sub ≤ 6 then some (u - sub) else if sub = 7 then some u else none
  else if die < 18 then if sub ≤ 7 ∨ sub = 0xA ∨ sub = 0xD ∨ sub = 0xE then (if sub = 4 then none else some u) else none
  else none

/-- A canary unit that is a compute core. -/
def isCoreUnit (u : Nat) : Bool := decide (unitDie u < 16) && decide (unitSub u = 0)

/-- Minutes as bells. -/
def Dev.minuteBells (d : Dev) (m : Nat) : Nat := m * 60000000 / (max d.fab.period 1 * 10)
/-- CANARY_PERIOD in bells (R384). -/
def Dev.canaryPeriod (d : Dev) : Nat := d.minuteBells (d.committed 16 0x0B000008 % 2048)
/-- SUSPECT_PERIOD in bells. -/
def Dev.suspectPeriod (d : Dev) : Nat := d.minuteBells (bits (d.committed 16 0x0B000008) 17 11)

/-! ## Core canaries (R371, R372) -/

/-- The canary of a unit. -/
def Dev.canary? (d : Dev) (u : Nat) : Option Canary := d.health.canaries.find? (fun q => q.unit = u)
/-- Change the canary of a unit; a slot canary's state is what HLT_CANARY_STATUS shows. -/
def Dev.updCanary (d : Dev) (u : Nat) (f : Canary → Canary) : Dev :=
  let l := d.health.canaries.map (fun (q : Canary) => if q.unit = u then f q else q)
  let s := l.find? (fun (q : Canary) => q.slot && decide (q.unit = u))
  { d with health := { d.health with
      canaries := l, lastState := match s with | some q => q.state | none => d.health.lastState } }
/-- A canary leaves the table; the slot is IDLE again. -/
def Dev.dropCanary (d : Dev) (u : Nat) : Dev :=
  let slot := d.health.canaries.any (fun (q : Canary) => q.slot && decide (q.unit = u))
  { d with health := { d.health with
      canaries := d.health.canaries.filter (fun (q : Canary) => q.unit ≠ u)
      lastCanary := if slot then 0xFFFF else d.health.lastCanary, lastState := if slot then 0 else d.health.lastState } }

/-- DUE becomes HANDOFF at once, unless the core's slot must be parked while the park area is in use. -/
def Dev.handOff (d : Dev) (u : Nat) : Dev :=
  let die := unitDie u
  let cl := unitCluster u
  let needs : Bool := isCoreUnit u && (d.slotOf die cl (unitCore u)).isSome && (d.goodSpare die cl).isNone
  if needs && (at' d.health.parked (dieHalf die) none).isSome then d
  else d.updCanary u (fun q => if q.state = 1 then { q with state := 2 } else q)

/-- A canary is due. -/
def Dev.addCanary (d : Dev) (u : Nat) (slot : Bool) : Dev :=
  if (d.canary? u).isSome then d
  else
    let h := d.health
    Dev.handOff { d with health := { h with
      canaries := h.canaries ++ [{ unit := u, state := 1, slot := slot }]
      lastCanary := if slot then u else h.lastCanary, lastState := if slot then 1 else h.lastState } } u

/-- The physical cores of the powered compute dies that are not mapped out, as (die, cluster, core). -/
def Dev.liveCores (d : Dev) : List (Nat × Nat × Nat) :=
  ((List.range 16).filter (fun die => d.dieOn die)).flatMap (fun die => (List.range 4).flatMap (fun cl =>
    ((List.range 9).filter (fun n => !d.health.mapped.contains (coreKey die cl n))).map (fun n => (die, cl, n))))

/-- The core in service with the oldest canary; ties to the lowest unit id. -/
def Dev.oldestCore (d : Dev) : Option Nat :=
  ((d.liveCores.filter (fun q => !d.coreOut q.1 q.2.1 q.2.2)).map (fun q => coreUnit q.1 q.2.1 q.2.2 0)).foldl
    (fun (b : Option Nat) u => match b with
      | some v => if (d.hist u).canaryBell < (d.hist v).canaryBell then some u else some v
      | none => some u) none

/-- The canary slot of a bell boundary (R371): one slot canary runs in the package at a time. -/
def Dev.canarySlot (d : Dev) : Dev :=
  let n := d.liveCores.length
  if !bit (d.committed 16 0x0B000008) 18 || d.bell < d.health.nextSlot || n = 0 || d.pwr.phase ≠ 4 || d.host.state < 5 then d
  else
    let d1 : Dev := { d with health := { d.health with nextSlot := d.bell + d.canaryPeriod / n } }
    match d1.oldestCore with
    | some u => if d1.health.canaries.any (·.slot) then d1 else d1.addCanary u true
    | none => d1

/-- Memory with n bytes copied from one place to another, which takes them whole. -/
def copyMem (m : Memory) (src dst n : Nat) : Memory :=
  let moved := (m.filter (fun c => decide (src ≤ c.1) && decide (c.1 < src + n))).map (fun c => (c.1 - src + dst, c.2))
  m.filter (fun c => decide (c.1 < dst)) ++ moved ++ m.filter (fun c => decide (dst + n ≤ c.1))

/-- The park area of a half (R372). -/
def parkArea (half : Nat) : Nat := half * 2 ^ 47 + 0x3FFFC00000
/-- The bytes of a core's SRAM. -/
abbrev sramBytes : Nat := 0x400000

/-- The slot of a core under test moves to the cluster's spare, or is parked. -/
def Dev.freeCore (d : Dev) (die cluster core : Nat) : Dev :=
  match d.slotOf die cluster core with
  | none => d
  | some s =>
    match d.goodSpare die cluster with
    | some n => d.moveSlot die cluster s n
    | none =>
      let half := dieHalf die
      let k := die * 4 + cluster
      let x := d.cluster k
      let d1 : Dev := { d with
        mem := copyMem d.mem (slotSram die cluster s) (parkArea half) sramBytes
        health := { d.health with parked := setAt d.health.parked half (some (k, s)) } }
      d1.setCluster k { x with slots := setAt x.slots s none, parked := some core }

/-- The core whose slot a cluster has parked takes it back, with its contents. -/
def Dev.unpark (d : Dev) (die cluster core : Nat) : Dev :=
  let k := die * 4 + cluster
  let half := dieHalf die
  let x := d.cluster k
  match at' d.health.parked half none with
  | some (k', s) =>
    if k' = k ∧ x.parked = some core then
      let d1 : Dev := { d with
        mem := copyMem d.mem (parkArea half) (slotSram die cluster s) sramBytes
        health := { d.health with parked := setAt d.health.parked half none } }
      d1.setCluster k { x with slots := setAt x.slots s (some core), parked := none }
    else d
  | none => d

/-- The parked contents of a core's slot are discarded, and the slot is lost (R42). -/
def Dev.losePark (d : Dev) (die cluster core : Nat) : Dev :=
  let k := die * 4 + cluster
  let half := dieHalf die
  if (d.cluster k).parked = some core then
    Dev.retile { d with health := { d.health with parked := setAt d.health.parked half none } } die cluster
  else d.refreshHealth

/-! ## Results (R363, R366, R367, R372) -/

/-- canary_result of R366 with its CANARY record. -/
def Dev.canaryEnter (d : Dev) (u : Nat) (pass : Bool) : Dev :=
  let h := d.hist u
  let d1 := (if pass then d else d.stick Sticky.canaryFail).record
    { type := Rt.canary, unit := u, status := if pass then St.canaryPass else St.canaryFail, addr := h.goodBell }
  if pass then
    d1.setHist u { h with canaryPass := h.canaryPass + 1, goodBell := d.bell, goodOp := d.opTime, canaryBell := d.bell }
  else
    let d2 := d1.setHist u { h with
      canaryFail := h.canaryFail + 1, canaryBell := d.bell, watchOp := if h.state = 1 then d.opTime else h.watchOp }
    if 2 ≤ h.canaryFail + 1 then d2.permanent u 0 else if h.state = 0 then d2.markSuspect u else d2

/-- A core's canary ends: it passed, or it failed and the core is held. A held core that passes is in service again. -/
def Dev.coreCanaryEnds (d : Dev) (u : Nat) (pass : Bool) : Dev :=
  let die := unitDie u
  let cl := unitCluster u
  let n := unitCore u
  let k := coreKey die cl n
  let d1 := ((d.dropCanary u).setCore k { (d.core k) with canary := false }).setHist u { d.hist u with held := !pass }
  let d2 := d1.canaryEnter u pass
  (if pass then (d2.unpark die cl n).refreshHealth else d2.losePark die cl n).resumeColls

/-- A canary ends. -/
def Dev.canaryEnds (d : Dev) (u : Nat) (pass : Bool) : Dev :=
  if isCoreUnit u then d.coreCanaryEnds u pass
  else
    let d1 := d.dropCanary u
    let d2 := if unitSub u = 0 then
        let k := hubKey (unitDie u - 16) (unitCluster u * 16 + unitCore u)
        d1.setHub k { d1.hub k with canary := false }
      else d1
    (d2.canaryEnter u pass).resumeColls

/-- A unit's canary enters RUNNING. -/
def Dev.canaryRuns (d : Dev) (u : Nat) : Dev := d.updCanary u (fun q => { q with state := 3, bell := d.bell })

/-- A step has committed at this bell: where an Onsetter's test, or one that was deferred, may start (R370). -/
def Dev.atCommit (d : Dev) : Bool :=
  (List.range 8).any (fun c => (d.ctx c).isOpen && decide (0 < (d.ctx c).stepCnt) && decide ((d.ctx c).commitBell = d.bell))

/-- A unit of a hub die is idle (R370): the engine has no admitted task, the controller nothing to present or to move. The bell
unit is idle between boundaries. -/
def Dev.hubIdle (d : Dev) (half sub : Nat) : Bool :=
  let runs (op : Nat) : Bool := d.insts.any (fun x => x.op = op && x.half = half && x.state = 1)
  if sub = 1 then d.atCommit
  else if sub = 2 then !runs opUpdate
  else if sub = 3 then !runs opCollective
  else if sub = 5 then (List.range 52).all (fun t => !d.targetUp half t || (d.select half t).isNone)
  else if sub = 6 then (List.range 48).all (fun n => !(d.hub (hubKey half n)).tlyBusy)
  else if sub = 7 then ((List.range 8).flatMap (d.stashPlan half)).all (fun p => p.1.inStash = p.2)
  else if sub = 0xD then d.extents.all (fun p => halfOf (p.1 * 2 ^ 21) ≠ half || p.2.moving = 0)
  else true

/-- A unit other than a core may be tested: its die is on, it is in service, and it is idle; a hub core holds nothing. A test that
was deferred starts at a commit and pauses the half. A Headframe core is tested as R416 says, by a row of its own. -/
def Dev.canTest (d : Dev) (u : Nat) : Bool :=
  let half := dieHalf (unitDie u)
  d.dieOn (unitDie u) && decide ((d.hist u).state ≤ 1) && !(decide (16 ≤ unitDie u) && unitSub u == 0xA) &&
  (if (match d.canary? u with | some q => q.deferred | none => false) then d.atCommit
  else if unitDie u < 16 then true
  else if unitSub u = 0 then
    let k := hubKey half (unitCluster u * 16 + unitCore u)
    (d.hub k).stack.isEmpty && (d.hub k).holds.isNone && !d.health.withdrawn.contains k
  else d.hubIdle half (unitSub u))

/-- A unit's canary has fallen due, by a slot or a command, or after its period while CANARY_EN is set. -/
def Dev.canaryDue (d : Dev) (u : Nat) : Bool :=
  let h := d.hist u
  (d.canary? u).isSome || (!isCoreUnit u && bit (d.committed 16 0x0B000008) 18 && decide (d.bell < h.canaryBell ∨ h.canaryBell + (if h.state = 1 then d.suspectPeriod else d.canaryPeriod) ≤ d.bell))

/-- CANARY_START: the unit is free, and its canary enters RUNNING. A core is free at a slice boundary, once its slot has moved
or been parked; one that is idle waits for nothing. -/
def canaryStartEff (unit : Nat) (d : Dev) : Dev :=
  match canaryUnit unit with
  | none => d
  | some u =>
    if !d.canaryDue u || (match d.canary? u with | some q => decide (3 ≤ q.state) | none => false) then d
    else if isCoreUnit u then
      let die := unitDie u
      let cl := unitCluster u
      let n := unitCore u
      let d1 := d.handOff u
      let k := coreKey die cl n
      if (match d1.canary? u with | some q => decide (q.state = 2) && (!q.deferred || d1.atCommit) | none => false) && !(d1.core k).busy && d1.dieOn die
          && !d1.health.mapped.contains k then
        let d2 := d1.freeCore die cl n
        (d2.setCore k { d2.core k with canary := true }).canaryRuns u
      else d1
    else if !d.canTest u then d
    else
      let d1 := (d.addCanary u false).canaryRuns u
      if unitSub u = 0 then
        let k := hubKey (unitDie u - 16) (unitCluster u * 16 + unitCore u)
        d1.setHub k { d1.hub k with canary := true }
      else d1

/-- CANARY_RESULT: the latched result of a canary that runs enters the history. -/
def canaryResultEff (unit : Nat) (pass : Bool) (d : Dev) : Dev :=
  match (canaryUnit unit).bind d.canary? with
  | some q => if q.state = 3 then d.canaryEnds q.unit pass else d
  | none => d

/-- CANARY_HANDOFF_TIMEOUT: no slice boundary within 100 ms; the canary fails against the task sequencer, whose core is held
and leaves its slot at its slice boundary (R42). -/
def canaryHandoffTimeoutEff (unit : Nat) (d : Dev) : Dev :=
  match (canaryUnit unit).bind d.canary? with
  | some q =>
    if q.state = 2 && isCoreUnit q.unit then
      (((d.dropCanary q.unit).setHist q.unit { d.hist q.unit with held := true }).canaryEnter q.unit false).leaveHeld
        (unitDie q.unit) (unitCluster q.unit) (unitCore q.unit)
    else d
  | none => d

/-- CANARY_RUN_TIMEOUT: a canary that runs for more than 80 ms fails. -/
def canaryRunTimeoutEff (unit : Nat) (d : Dev) : Dev :=
  match (canaryUnit unit).bind d.canary? with
  | some q => if q.state = 3 then d.canaryEnds q.unit false else d
  | none => d

/-- CANARY_DEFERRED: a test that could not start for 2 h. -/
def canaryDeferredEff (unit : Nat) (d : Dev) : Dev :=
  match canaryUnit unit with
  | none => d
  | some u =>
    if !d.canaryDue u || (match d.canary? u with | some q => decide (3 ≤ q.state) || q.deferred | none => false) then d
    else ((d.addCanary u false).updCanary u (fun q => { q with deferred := true })).record
      { type := Rt.canary, unit := u, status := St.canaryDeferred }

/-- SUSPECT_CANARY_DUE: outside the slots, at most one in each cluster at a time. -/
def suspectCanaryDueEff (unit : Nat) (d : Dev) : Dev :=
  match canaryUnit unit with
  | none => d
  | some u =>
    let die := unitDie u
    let suspect : Bool := if isCoreUnit u then d.coreSuspect die (unitCluster u) (unitCore u) else d.isSuspect u
    let other := isCoreUnit u && d.health.canaries.any (fun q =>
      !q.slot && isCoreUnit q.unit && decide (unitDie q.unit = die) && decide (unitCluster q.unit = unitCluster u))
    if !suspect || other || !bit (d.committed 16 0x0B000008) 18 || d.bell < (d.hist u).canaryBell + d.suspectPeriod then d
    else d.addCanary u false

/-- SUSPECT_RELEASE: 7 days of operation without an event or a failed canary (R367). -/
def suspectReleaseEff (unit : Nat) (d : Dev) : Dev :=
  let h := d.hist unit
  if h.state ≠ 1 ∨ d.opTime < max h.suspectOp h.watchOp + 604800 then d
  else (d.setHist unit { h with state := 0, canaryFail := 0, suspectOp := 0 }).record
    { type := Rt.health, unit := unit, status := St.unitReleased }

/-! ## Hand-offs and map-out (R36, R42, R368) -/

/-- SPARE_HANDOFF: at a slice boundary the slot of a core that is suspect, held or due for a canary moves to the cluster's
spare, with its live core SRAM; a held core's slot is lost where there is no spare (R42). -/
def spareHandoffEff (die cluster slot : Nat) (d : Dev) : Dev :=
  match at' (d.cluster (die * 4 + cluster)).slots slot none, d.goodSpare die cluster with
  | some n, some s =>
    let due : Bool := match d.canary? (coreUnit die cluster n 0) with | some q => decide (q.state ≤ 2) | none => false
    if d.dieOn die && decide (die < 16) && decide (cluster < 4) && decide (slot < 8) && (d.coreSuspect die cluster n || due)
        && !(d.core (coreKey die cluster n)).busy then d.moveSlot die cluster slot s
    else d
  | some n, none => if d.dieOn die && decide (die < 16) && decide (cluster < 4) && decide (slot < 8) then d.leaveHeld die cluster n else d
  | _, _ => d

/-- CORE_MAP_OUT: a core with a permanent sub-unit leaves at its next slice boundary. -/
def coreMapOutEff (die cluster core : Nat) (d : Dev) : Dev :=
  let k := coreKey die cluster core
  let perm := (List.range 7).any (fun s => decide ((d.hist (coreUnit die cluster core s)).state = 2))
  if !perm || 16 ≤ die || 4 ≤ cluster || 9 ≤ core || d.health.mapped.contains k || (d.core k).busy then d
  else
    let d1 := ((d.dropCanary (coreUnit die cluster core 0)).setCore k { d.core k with canary := false }).mapOut die cluster core
    d1.losePark die cluster core

/-! ## The health poll (R365, R366) -/

/-- The collective engine, its Tally unit with it, and the hub converters of a half: they run a mismatching group again
themselves, with the same bits (R195, R328, R361). -/
def hubChecked (u : Nat) : Bool := (unitDie u = 16 || unitDie u = 17) && (unitSub u = 3 || unitSub u = 0xC)

/-- An MRAM: an uncorrectable word is read from the other hub's mirror (R360). -/
def isMram (u : Nat) : Bool := (unitDie u = 16 || unitDie u = 17) && unitSub u = 9

/-- An event that the poll enters; a check failure in a hub's engine writes its record (log entry 59); an uncorrectable error of a
memory location poisons its line and writes its record. One in the SRAM of the complex in control restarts it (R420). -/
def Dev.pollEvent (d : Dev) (e : UnitEvent) : Dev :=
  if !unitKnown e.unit || 3 < e.kind then d
  else
    let d1 := if e.kind = 1 then
        let p := if isMemUnit e.unit || holdsWord e.unit e.key then d.poisonLine (lineOf e.key) else d
        (p.stick Sticky.uncorrected).record { type := Rt.memory, unit := e.unit, status := St.memUncorrected, addr := e.key }
      else d
    let d1 := if e.kind ≤ 1 ∧ isMram e.unit then d1.stick Sticky.mramCorrected else d1
    let d2 := (if e.kind = 2 ∧ hubChecked e.unit then d1.checkRecord e.unit none 0 else d1).enterEvent e.unit (if holdsWord e.unit e.key then e.unit else e.key) e.kind
    if e.kind = 1 && e.unit = hubUnit d.fwHalf 0xB && d2.fwRuns then d2.restartComplex else d2

/-- HEALTH_POLL: the RC counters of every unit are read, and the events counted since the last poll are entered. -/
def healthPollEff (events : List UnitEvent) (d : Dev) : Dev :=
  if d.host.state < 5 ∨ at' d.fw.svc 4 0 ≠ 0 ∨ d.fw.handing then d
  else
    let d1 : Dev := { d with rc := d.rc.filter (fun (p : Nat × Word) => decide (64 * 2 ^ 32 ≤ p.1)) }
    events.foldl Dev.pollEvent d1

/-! ## The health and pit-log commands (R382) -/

/-- hlt.read: history entries to host memory. -/
def Dev.hltRead (d : Dev) (unit buf : Nat) : Reply :=
  if unit = 0xFFFF then
    let l := (List.range 65535).filter unitKnown
    (l.foldl (fun (a : Dev × Nat) u => (a.1.storeHost (buf + 128 * a.2) ((d.hist u).bytes u), a.2 + 1)) (d, 0)).1.done [l.length]
  else if !unitKnown unit then d.refuse St.unitInvalid
  else (d.storeHost buf ((d.hist unit).bytes unit)).done [1]

/-- log.read: the complete records of a range, in order. -/
def Dev.logRead (d : Dev) (first count buf : Nat) : Reply :=
  let l := (d.log.records.reverse.drop first).take count
  (d.storeHost buf (l.flatMap Record.bytes)).done [l.length, d.log.records.length]

/-- The pit log emptied, one epoch on (R379). -/
def PitLog.clear (l : PitLog) : PitLog := { records := [], epoch := (l.epoch + 1) % 32768, dropped := 0 }

/-- log.clear. -/
def Dev.logClear (d : Dev) (expEpoch : Nat) : Reply :=
  if expEpoch = d.log.epoch then Dev.done { d with log := d.log.clear } [d.log.clear.epoch] else d.done [d.log.epoch]

/-- hlt.canary: outside the slots; it waits for RUNNING. -/
def Dev.hltCanary (d : Dev) (unit : Nat) : Reply :=
  match canaryUnit unit with
  | none => d.refuse St.unitInvalid
  | some u => if !d.dieOn (unitDie u) then d.refuse St.unitInvalid else (d.addCanary u false).wait 0

/-- hlt.canary ends when the canary enters RUNNING; a unit that has left service has none any more. -/
def Dev.hltCanaryAgain (d : Dev) (unit : Nat) : Reply :=
  match (canaryUnit unit).bind d.canary? with
  | some q => if q.state = 3 then d.done [q.bell % 2 ^ 32, q.bell / 2 ^ 32 % 65536] else d.wait 0
  | none => d.refuse St.unitInvalid

/-- hlt.sticky: the register, then the named bits cleared. -/
def Dev.hltSticky (d : Dev) (index : Nat) (clear : Word) : Reply :=
  (d.stickyClear index clear).done [d.hltWord (0x20 + 4 * index)]

/-- hlt.query. -/
def Dev.hltQuery (d : Dev) : Reply := d.done [d.hltWord 0, d.hltWord 4, d.logWord 0, d.logWord 4]

/-! ## The rows -/

/-- CANARY_RESULT -/
def execCanaryResult (unit : Nat) (pass : Bool) (s : State) : Host.Outcome State Fault Refusal := onDev (canaryResultEff unit pass) s
/-- CANARY_HANDOFF_TIMEOUT -/
def execCanaryHandoffTimeout (unit : Nat) (s : State) : Host.Outcome State Fault Refusal := onDev (canaryHandoffTimeoutEff unit) s
/-- CANARY_RUN_TIMEOUT -/
def execCanaryRunTimeout (unit : Nat) (s : State) : Host.Outcome State Fault Refusal := onDev (canaryRunTimeoutEff unit) s
/-- CANARY_DEFERRED -/
def execCanaryDeferred (unit : Nat) (s : State) : Host.Outcome State Fault Refusal := onDev (canaryDeferredEff unit) s
/-- SUSPECT_CANARY_DUE -/
def execSuspectCanaryDue (unit : Nat) (s : State) : Host.Outcome State Fault Refusal := onDev (suspectCanaryDueEff unit) s
/-- SUSPECT_RELEASE -/
def execSuspectRelease (unit : Nat) (s : State) : Host.Outcome State Fault Refusal := onDev (suspectReleaseEff unit) s
/-- SPARE_HANDOFF -/
def execSpareHandoff (die cluster slot : Nat) (s : State) : Host.Outcome State Fault Refusal := onDev (spareHandoffEff die cluster slot) s
/-- CORE_MAP_OUT -/
def execCoreMapOut (die cluster core : Nat) (s : State) : Host.Outcome State Fault Refusal := onDev (coreMapOutEff die cluster core) s
/-- HEALTH_POLL -/
def execHealthPoll (events : List UnitEvent) (s : State) : Host.Outcome State Fault Refusal := onDev (healthPollEff events) s

end Sys2Proof.Machine
end

