-- ==== Sys2Proof/Machine/Boot.lean ====
section
/-! DEFINITION. Loading firmware and the base configuration, job modes, and the configuration commands (R378, R387, R392 to
R395, R403, R412, R458 to R469, R481). -/

namespace Sys2Proof.Machine

/-! ## The firmware image (R392, R393) -/

/-- The place of the base configuration in the staging area. -/
def cfgAt : Nat := 0x1000000

/-- No byte of a range holds anything but zero; memory lists no zero byte. -/
def Memory.zeroIn (m : Memory) (a n : Nat) : Bool := m.all (fun c => decide (c.1 < a) || decide (a + n ≤ c.1))

/-- The part of a memory that holds n bytes from an address on, moved to address 0. -/
def Memory.window (m : Memory) (a n : Nat) : Memory :=
  (m.filter (fun c => decide (a ≤ c.1) && decide (c.1 < a + n))).map (fun c => (c.1 - a, c.2))

/-- The big-endian number that n bytes of the staged image spell. -/
def Memory.readBE (m : Memory) (a n : Nat) : Nat := beValue (m.readBytes a n)

/-- The result code of the first check of R393 that the staged image fails, 0 where it passes: the key's hash, the signature over
the header's first 0xA8 bytes, and the body's hash among them (R392). `revoked`, `keyHash` and `minSvn` are what the fuses hold
for the header's key slot, and of the minimum svn; a key slot above 3 is no fused slot and counts as revoked (log entry 25). -/
def Dev.imageCheck (d : Dev) (revoked : Bool) (keyHash minSvn : Nat) : Nat :=
  let m := d.host.staging
  let img := d.host.imgBytes.toNat
  let slot := m.readLE 6 2
  if m.readLE 0 4 ≠ 0x314C4B57 ∨ m.readLE 4 2 ≠ 1 ∨ !m.zeroIn 0x10 8 ∨ !m.zeroIn 0x108 248 then 1
  else if 2 ^ 24 < img ∨ 2 ^ 22 < d.host.cfgBytes.toNat ∨ 512 + m.readLE 0xC 4 ≠ img then 2
  else if 4 ≤ slot ∨ revoked then 3
  else if sha384 (m.readBytes 0x48 96) ≠ keyHash then 4
  else if !ecdsaOk (m.readBE 0x48 48) (m.readBE 0x78 48) (m.readBE 0xA8 48) (m.readBE 0xD8 48) (sha384 (m.readBytes 0 0xA8)) then 5
  else if sha384 (m.readBytes 512 (m.readLE 0xC 4)) ≠ m.readBE 0x18 48 then 6
  else if m.readLE 8 4 < max minSvn d.fw.minSvn then 7
  else 0

/-- Nothing runs on the complexes. -/
def Dev.stopFw (d : Dev) : Dev :=
  { d with fw := { d.fw with complexes := d.fw.complexes.map (fun (x : Complex) => { out := x.out, tookOver := x.tookOver }) } }

/-- A load ends with a result code: REJECTED, with its record. -/
def Dev.rejectLoad (d : Dev) (code : Nat) (st : Status) : Dev :=
  let d1 := d.stopFw
  let d2 : Dev := { d1 with host := { d1.host with bootResult := code, cfgStatus := st } }
  ((if code < 8 then d2.stick Sticky.imageRejected else d2).record { type := Rt.security, status := St.imageRejected }).hostState 4

/-- The Headframe starts from the verified image: one complex in control, the other its standby where both serve. -/
def Dev.startFw (d : Dev) (minSvn : Nat) : Dev :=
  let w := at' d.fw.complexes 0 {}
  let e := at' d.fw.complexes 1 {}
  let west := !w.out
  let east := !e.out && d.pwr.domains.contains 27
  let act (x : Complex) : Complex := { active := true, tookOver := x.tookOver, cores := [0, 1, 2, 3] }
  let rest (x : Complex) (on : Bool) : Complex := { standby := on, out := x.out, tookOver := x.tookOver }
  { d with fw := { d.fw with
    complexes := if west then [act w, rest e east] else if east then [rest w false, act e] else [w, e]
    shed := 0, quiet := 0, svc := [0, 0, 0, 0, 0, 0, 0, 0, 0], absentSince := none, paused := false
    handing := false, spdmMbx := [], spdmTcp := []
    measured := [sha384 (d.host.staging.readBytes 0 d.host.imgBytes.toNat), max minSvn d.fw.minSvn] } }

/-- IMAGE_VERIFY_DONE: STARTING where every check passes, otherwise REJECTED. -/
def imageVerifyDoneEff (revoked : Bool) (keyHash minSvn : Nat) (d : Dev) : Dev :=
  if d.host.state ≠ 2 then d
  else
    let code := d.imageCheck revoked keyHash minSvn
    if code ≠ 0 then d.rejectLoad code 0
    else
      let d1 := d.startFw minSvn
      Dev.hostState { d1 with host := { d1.host with bootResult := 0, cfgStatus := 0 } } 3

/-- START_TIMEOUT: the Headframe has not reached READY within 2 s. -/
def startTimeoutEff (d : Dev) : Dev := if d.host.state ≠ 3 then d else d.rejectLoad 9 0

/-! ## CRC-32C (R306, R460, log entry 9) -/

/-- One byte taken into a CRC-32C, low bit first. -/
def crcByte (c : Word) (b : Byte) : Word :=
  upto 8 (fun _ (x : Word) => if x.getLsbD 0 then (x >>> 1) ^^^ 0x82F63B78#32 else x >>> 1) (c ^^^ b.setWidth 32)

/-- CRC-32C of bytes. -/
def crc32c (l : List Byte) : Word := ~~~(l.foldl crcByte 0xFFFFFFFF#32)

/-! ## Entries and overlays (R461 to R464) -/

/-- A base, overlay or cfg.stage entry. -/
structure CfgEntry where
  reg : Nat
  mask : Nat
  value : Nat
deriving DecidableEq, Repr

/-- An entry as 16 bytes of memory give it. -/
def readEntry (m : Memory) (a : Nat) : CfgEntry := { reg := m.readLE a 8, mask := m.readLE (a + 8) 4, value := m.readLE (a + 12) 4 }
/-- Entries one after another. -/
def readEntries (m : Memory) (a n : Nat) : List CfgEntry := (List.range n).map (fun i => readEntry m (a + 16 * i))

/-- The die of an entry's register. -/
def CfgEntry.die (e : CfgEntry) : Nat := e.reg / 2 ^ 32 % 64
/-- The offset of an entry's register. -/
def CfgEntry.off (e : CfgEntry) : Nat := e.reg % 2 ^ 32
/-- The entry's DPA lies in the control space of a die. -/
def CfgEntry.placed (e : CfgEntry) : Bool := decide (e.die < 40) && e.reg = ctlDpa e.die e.off
/-- The staged register that an entry names. -/
def CfgEntry.rws (e : CfgEntry) : Option RwsReg := if e.placed then rwsReg e.die e.off else none

/-- What an entry that reaches its die is refused with: no staged register, or a reserved bit set under the mask. -/
def CfgEntry.fail (e : CfgEntry) : Option Status :=
  match e.rws with
  | none => some St.cfgRegister
  | some r =>
    if word e.value &&& word e.mask &&& ~~~(word r.mask) ≠ 0 then some St.reservedNonzero else none

/-- staged := (staged and not mask) or (value and mask). -/
def CfgEntry.onto (e : CfgEntry) (v : Nat) : Nat := ((word v &&& ~~~(word e.mask)) ||| (word e.value &&& word e.mask)).toNat

/-- The entry names a register of a die that is off. -/
def Dev.skips (d : Dev) (e : CfgEntry) : Bool := e.placed && !d.dieOn e.die

/-- Write an entry's register with what a function makes of its staged value. -/
def Dev.entryPut (d : Dev) (e : CfgEntry) (f : Nat → Nat) : Dev :=
  match e.rws with
  | some r => if d.skips e then d else d.stagePut e.die e.off r.reset (f (d.staged e.die e.off))
  | none => d

/-- Apply an entry to the staged bank. -/
def Dev.applyEntry (d : Dev) (e : CfgEntry) : Dev := d.entryPut e e.onto

/-- The group instances that entries name on dies that are on, as (group id, half). -/
def Dev.namedGroups (d : Dev) (l : List CfgEntry) : List (Nat × Nat) :=
  (l.filterMap (fun e => if d.skips e then none else e.rws.map (fun r => (r.group, dieHalf e.die)))).dedup

/-- Where a directory entry of an image stands. -/
def dirAt (m : Memory) (i : Nat) : Nat := m.readLE 0x14 4 + 16 * i
/-- The codes of an image's overlays. -/
def dirCodes (m : Memory) : List Nat := (List.range (m.readLE 6 2)).map (fun i => m.readLE (dirAt m i) 1)
/-- The base entries of an image. -/
def baseEntries (m : Memory) : List CfgEntry := readEntries m (m.readLE 0x10 4) (m.readLE 0xC 4)
/-- The entries of an overlay of an image, none where the image lacks it. -/
def overlay? (m : Memory) (code : Nat) : Option (List CfgEntry) :=
  ((List.range (m.readLE 6 2)).find? (fun i => m.readLE (dirAt m i) 1 = code)).map (fun i =>
    readEntries m (m.readLE (dirAt m i + 4) 4) (m.readLE (dirAt m i + 2) 2))
/-- The entries of an overlay that an image need not hold. -/
def overlayOf (m : Memory) (code : Nat) : List CfgEntry := (overlay? m code).getD []

/-- The class overlays' codes. -/
def isClassCode (c : Nat) : Bool := decide (1 ≤ c) && decide (c ≤ 3)
/-- The job modes' codes. -/
def isModeCode (c : Nat) : Bool := decide (0x10 ≤ c) && decide (c ≤ 0x15)
/-- PRETRAIN. -/
def pretrain : Nat := 0x10

/-- A section of an image of `len` bytes: an offset that is a multiple of 16, and within the image after the header. -/
def sectionOk (len off n : Nat) : Bool := off % 16 = 0 && (n = 0 || (decide (64 ≤ off) && decide (off + n ≤ len)))

/-- An entry names a register that a class overlay may name. -/
def classMay (e : CfgEntry) : Bool :=
  match e.rws with
  | some r => r.group = 0xC000 || r.group = 0xC002 || r.group = 0xC005
  | none => false

/-- Step 1 of R463: header, CRC, lengths, directory, kernel store, and what the class overlays name. -/
def imageWellFormed (m : Memory) (len : Nat) : Bool :=
  let n := m.readLE 6 2
  let codes := dirCodes m
  decide (64 ≤ len) && decide (len ≤ 2 ^ 22) && m.readLE 0 4 = 0x46434B57 && m.readLE 4 2 = 1 && decide (n ≤ 16) && m.readLE 8 4 = len
  && m.zeroIn 0x2C 20 && (crc32c (m.readBytes 0x40 (len - 64))).toNat = m.readLE 0x28 4
  && sectionOk len (m.readLE 0x10 4) (16 * m.readLE 0xC 4) && sectionOk len (m.readLE 0x14 4) (16 * n)
  && sectionOk len (m.readLE 0x18 4) (m.readLE 0x1C 4) && decide (m.readLE 0x1C 4 ≤ 2 ^ 20)
  && sectionOk len (m.readLE 0x20 4) (m.readLE 0x24 4) && decide (m.readLE 0x24 4 ≤ 4096)
  && (m.readLE 0x1C 4 = 0 || kernStoreOk m)
  && decide codes.Nodup && codes.all (fun c => isClassCode c || isModeCode c)
  && (List.range n).all (fun i =>
      let a := dirAt m i
      let count := m.readLE (a + 2) 2
      m.zeroIn (a + 1) 1 && m.zeroIn (a + 8) 8 && decide (1 ≤ count) && decide (count ≤ 256) && sectionOk len (m.readLE (a + 4) 4) (16 * count))
  && [1, 2, 3].all (fun c => (overlayOf m c).all classMay)

/-! ## The default snapshot lists (R378) -/

/-- A snapshot entry for a register of hub die 16, with its context stride in units of 16 bytes. -/
def snapEntry (off stride : Nat) : Nat × Nat := (off, 2 ^ 31 + stride * 256 + 16)
/-- A snapshot entry for an offset of the record's unit. -/
def snapUnit (off : Nat) : Nat × Nat := (off, 2 ^ 31 + 64 + 63)
/-- ONS_CTX_STATE, ONS_CTX_CAUSE, ONS_CTX_STEP, SCN_CTX_STATE, SCN_CTX_MISS, UPD_CTX_STATUS. -/
def snapStep : List (Nat × Nat) :=
  [snapEntry 0x08000004 4, snapEntry 0x08000030 4, snapEntry 0x08000008 4, snapEntry 0x02100004 2, snapEntry 0x0210001C 2, snapEntry 0x03000020 4]
/-- FAB_STATE, BEL_STATUS, FAB_RELIEF_STATE, FAB_RELIEF_SUBJECT, FAB_RELIEF_SPARE, FAB_CTX_LATE_DEV. -/
def snapFabric : List (Nat × Nat) :=
  [snapEntry 0x09000004 0, snapEntry 0x0A000008 0, snapEntry 0x09040000 2, snapEntry 0x0904000C 2, snapEntry 0x09040010 2, snapEntry 0x0903000C 2]

/-- The default list of a record type. -/
def snapDefault (type : Nat) : List (Nat × Nat) :=
  if type = Rt.check then [snapUnit 0, snapUnit 0x0C, snapEntry 0x08000004 4, snapEntry 0x0B000000 0]
  else if type = Rt.memory then [snapEntry 0x0600001C 4, snapEntry 0x0B000000 0, snapEntry 0x0B00001C 0, snapEntry 0x07001000 0]
  else if type = Rt.canary then [snapEntry 0x0B00000C 0, snapUnit 0, snapEntry 0x0B000000 0]
  else if type = Rt.numeric ∨ type = Rt.step then snapStep
  else if type = Rt.fabric ∨ type = Rt.relief then snapFabric
  else if type = Rt.power then [snapEntry 0x00020000 0, snapEntry 0x0B000000 0]
  else []

/-- The default lists as entries for a hub die's LOG_SNAP. -/
def snapEntries (die : Nat) : List CfgEntry :=
  (List.range 16).flatMap (fun t => (List.range (snapDefault t).length).flatMap (fun i =>
    let p := at' (snapDefault t) i (0, 0)
    let o := 0x0C001000 + t * 128 + i * 8
    [{ reg := ctlDpa die o, mask := 0xFFFFFFFF, value := p.1 }, { reg := ctlDpa die (o + 4), mask := 0xFFFFFFFF, value := p.2 }]))

/-- The default lists of both hub dies. -/
def snapAll : List CfgEntry := snapEntries 16 ++ snapEntries 17

/-! ## The load (R463) -/

/-- The overlay code of the device's class. -/
def Dev.classCode (d : Dev) : Nat := d.classNo + 1

/-- Groups take effect at once, each with its check; none where one fails. -/
def Dev.commitNow (d : Dev) (l : List (Nat × Nat)) : Option Dev :=
  if l.all (fun g => d.mayArm g.1 g.2) then
    some (l.foldl (fun d g => (d.arm g.1 g.2 none).takeEffect (g.1, g.2, none)) d)
  else none

/-- The load of an image: the configured device, or the status that refuses it. -/
def Dev.loadConfig (d : Dev) (m : Memory) (len : Nat) : Status × Dev :=
  let every := baseEntries m ++ (dirCodes m).flatMap (overlayOf m)
  if !imageWellFormed m len then (St.cfgImage, d)
  else match (every.filter (fun e => !d.skips e)).findSome? CfgEntry.fail with
    | some st => (st, d)
    | none =>
      let l := baseEntries m ++ overlayOf m d.classCode ++ overlayOf m pretrain
      let d1 := l.foldl Dev.applyEntry (snapAll.foldl Dev.applyEntry d)
      match d1.commitNow (d1.namedGroups (snapAll ++ l)) with
      | none => (St.stageConflict, d)
      | some d2 =>
        (St.ok, { d2 with fw := { d2.fw with
          cfgImage := m, cfgLen := len, mode := pretrain, classOverlay := d.classCode, skipped := (l.filter d.skips).length
          measured := d2.fw.measured ++ [sha384 (m.readBytes 0 len)] } })

/-- BASE_CONFIG_LOAD: in STARTING, the configuration is loaded and the device reaches READY, or it is refused. A signed image
that asks for it then raises the fused minimum svn (R393). -/
def baseConfigLoadEff (d : Dev) : Dev :=
  if d.host.state ≠ 3 || !d.fw.complexes.any (·.active) then d
  else
    let len := d.host.cfgBytes.toNat
    let svn := d.host.staging.readLE 8 4
    let r := d.loadConfig (d.host.staging.window cfgAt len) len
    if r.1 ≠ St.ok then d.rejectLoad 8 r.1
    else
      let d1 : Dev := { r.2 with
        host := { r.2.host with fwVersion := Config.fwVersion svn }
        fw := { r.2.fw with minSvn := if Config.raisesSvn svn then max r.2.fw.minSvn svn else r.2.fw.minSvn } }
      (d1.hostState 5).refreshHealth

/-- HOST_LINK_UP: P23 trains once PWR_GOOD is high and its optics are on (R387, R481). -/
def hostLinkUpEff (d : Dev) : Dev :=
  if d.host.linkUp || !d.pwr.good || !d.dieOn 25 then d else d.linkTrain d.host.badLambdas

/-! ## Commits and job modes over the mailbox (R403, R458, R465, R469) -/

/-- A commit or switch refused over the mailbox: counted on every hub die that is on, with one record. -/
def Dev.cfgRefusedAll (d : Dev) (code : Nat) (st : Status) : Dev :=
  let count (half : Nat) (d : Dev) : Dev :=
    if d.halfOn half then d.rwPut (hubDie half) 0x10000014 0 (sat32 (d.rwGet (hubDie half) 0x10000014 0 + 1)) else d
  (upto 2 count d).record { type := Rt.config, status := st, opcode := code, addr := d.bell }

/-- A bell as two result words. -/
def wordsOfBell (b : Nat) : List Nat := [b % 2 ^ 32, b / 2 ^ 32 % 65536]

/-- cfg.stage: the whole list is checked before anything is staged. -/
def Dev.cfgStage (d : Dev) (list count : Nat) : Reply :=
  let l := readEntries d.hostMem list count
  match l.findSome? (fun e => if d.skips e then some St.cfgRegister else e.fail) with
  | some st => d.refuse st
  | none => (l.foldl Dev.applyEntry d).done [count]

/-- cfg.commit: every powered instance is checked, and all or none are armed. -/
def Dev.cfgCommit (d : Dev) (gid : Nat) : Reply :=
  let hs := [0, 1].filter (d.groupIn gid)
  if hs.isEmpty then { dev := d.cfgRefusedAll gid St.cfgGroup, status := St.cfgGroup }
  else if hs.all (d.mayArm gid) then
    (hs.foldl (fun d h => d.arm gid h (if hs.length = 2 ∧ h = 1 then some markJoint else none)) d).wait 0
  else { dev := (hs.foldl (fun d h => d.setFail gid h St.stageConflict) d).cfgRefusedAll gid St.stageConflict, status := St.stageConflict }

/-- cfg.commit ends once no instance of the group is armed: all have acted, or the boundary refused one. -/
def Dev.cfgCommitAgain (d : Dev) (gid : Nat) : Reply :=
  if d.groupArmed gid 0 || d.groupArmed gid 1 then d.wait 0
  else
    let ends := ([0, 1].filter (d.groupIn gid)).filterMap (fun h => d.bank.done.find? (doneKey gid h))
    match ends.find? (fun p => p.1 ≠ 0) with
    | some p => d.refuse p.1
    | none => d.done (wordsOfBell (match ends with | p :: _ => p.2 | [] => d.bell))

/-- The value that the base entries and the class overlay give a register: its reset value, the default snapshot lists, then
those entries in order. -/
def Dev.baseValue (d : Dev) (e : CfgEntry) : Nat :=
  let start := if e.off = 0x00020008 then classPower d.classNo else if e.off = 0x0002000C then classClock d.classNo else rwsReset e.die e.off
  ((snapAll ++ baseEntries d.fw.cfgImage ++ overlayOf d.fw.cfgImage d.fw.classOverlay).filter (fun x => x.reg = e.reg)).foldl
    (fun v x => x.onto v) start

/-- The job mode that a switch replaces: one that waits for its bell, otherwise the one in force. -/
def Dev.outgoing (d : Dev) : Nat := match d.fw.switchTo with | some (c, _) => c | none => d.fw.mode

/-- The staged bank after steps 1 and 2 of R465. -/
def Dev.switchStaged (d : Dev) (code : Nat) : Dev :=
  let out := overlayOf d.fw.cfgImage d.outgoing
  let d1 := out.foldl (fun (d : Dev) e => d.entryPut e (CfgEntry.onto { e with value := d.baseValue e })) d
  (overlayOf d.fw.cfgImage code).foldl Dev.applyEntry d1

/-- cfg.overlay: both overlays' groups and CFG are armed as one commit; the switch acts at the next bell boundary. -/
def Dev.cfgOverlay (d : Dev) (code : Nat) : Reply :=
  if !isModeCode code || (code ≠ pretrain && (overlay? d.fw.cfgImage code).isNone) then
    { dev := d.cfgRefusedAll code St.cfgOverlay, status := St.cfgOverlay }
  else
    let d1 := d.switchStaged code
    let named := d1.namedGroups (overlayOf d.fw.cfgImage d.outgoing ++ overlayOf d.fw.cfgImage code)
    let l := ((0xC004, 0) :: named).dedup
    if l.all (fun g => d1.mayArm g.1 g.2) then
      let d2 := l.foldl (fun d g => d.arm g.1 g.2 (some markSilent)) d1
      Dev.wait { d2 with fw := { d2.fw with switchTo := some (code, none) } } 0
    else
      { dev := (l.foldl (fun d g => d.setFail g.1 g.2 St.stageConflict) d1).cfgRefusedAll code St.stageConflict, status := St.stageConflict }

/-- cfg.overlay ends at the bell of the switch. -/
def Dev.cfgOverlayAgain (d : Dev) : Reply := if d.fw.switchTo.isSome then d.wait 0 else d.done (wordsOfBell d.bell)

/-- cfg.query: STAGED_DIFFERS, ARMED and the status of the last commit; the bell of its last effect. -/
def Dev.cfgQuery (d : Dev) (gid half : Nat) : Reply :=
  if !d.groupIn gid half then d.refuse St.cfgGroup
  else
    let die := hubDie half
    let differs := (groupOffsets gid).any (fun o => d.staged die o ≠ d.committed die o)
    let p := (d.bank.done.find? (doneKey gid half)).getD (0, 0)
    d.done ([flag differs 0 + flag (d.groupArmed gid half) 1 + p.1.toNat * 65536] ++ wordsOfBell p.2)

/-! ## The rows -/

/-- IMAGE_VERIFY_DONE -/
def execImageVerifyDone (revoked : Bool) (keyHash minSvn : Nat) (s : State) : Host.Outcome State Fault Refusal :=
  onDev (imageVerifyDoneEff revoked keyHash minSvn) s
/-- BASE_CONFIG_LOAD -/
def execBaseConfigLoad (s : State) : Host.Outcome State Fault Refusal := onDev baseConfigLoadEff s
/-- START_TIMEOUT -/
def execStartTimeout (s : State) : Host.Outcome State Fault Refusal := onDev startTimeoutEff s
/-- HOST_LINK_UP -/
def execHostLinkUp (s : State) : Host.Outcome State Fault Refusal := onDev hostLinkUpEff s

end Sys2Proof.Machine
end

