-- ==== Sys2Proof/Machine/Power.lean ====
section
/-! DEFINITION. Power: the cooling class, power-up and power-down, the limits held by hardware, telemetry, and the power
commands (R45, R47, R419, R474 to R490). -/

namespace Sys2Proof.Machine

/-! ## The cooling class (R478) -/

/-- The class that the straps name: 0 L, 1 I, 2 A. -/
def strapClass (id : Nat) : Nat := if id = 0 then 0 else if id = 1 then 1 else 2

/-- The class that the sensors name, for a rise in 1/16 K. -/
def sensedClass (rise : Nat) (fluid : Bool) : Nat := if rise ≤ 32 then (if fluid then 1 else 0) else 2

/-- The class that is fixed: the lower of both in the order A < I < L. -/
def fixClass (id rise : Nat) (fluid : Bool) : Nat := max (strapClass id) (sensedClass rise fluid)

/-- The straps and the sensors disagree. -/
def classDisagree (id rise : Nat) (fluid : Bool) : Bool := decide (strapClass id ≠ sensedClass rise fluid) || id = 2

/-! ## Power-up (R480, R481, R483) -/

/-- The domains that power-up switches on for a class, in order (R45, R480). -/
def upOrder (cls : Nat) : List Nat :=
  [18, 24, 16, 22, 20, 0, 1, 2, 3, 4, 5, 6, 7] ++ (if cls = 2 then [] else [19, 25, 17, 23, 21, 8, 9, 10, 11, 12, 13, 14, 15, 29])

/-- Every domain of the class is in tolerance: PWR_GOOD is released, and the powered ports start training. -/
def Dev.powerGood (d : Dev) : Dev :=
  let d1 : Dev := { d with pwr := { d.pwr with phase := 4, good := true, todo := [] } }
  let train (p : Nat) (d : Dev) : Dev :=
    if isUlusil p && d.halfOn (portHalf p) && (d.port p).state = 0 then d.setPort p { d.port p with state := 1 } else d
  (upto 48 train d1).refreshHealth

/-- The next domain is switched on; after the last, power is good. -/
def Dev.nextDomain (d : Dev) (todo : List Nat) : Dev :=
  match todo with
  | [] => d.powerGood
  | n :: rest => { d with pwr := { d.pwr with phase := 3, todo := n :: rest, domains := insertNat d.pwr.domains n } }

/-- The domains of the class are switched on, but for those that an isolated die holds off (R47). -/
def Dev.startDomains (d : Dev) : Dev :=
  d.nextDomain ((upOrder d.classNo).filter (fun n => !d.health.isolated.any (fun die => (soleDomains die).contains n)))

/-- Event 2 of power-up: the always-on domains are on and the coupling test follows. -/
def Dev.startUp (d : Dev) : Dev := { d with pwr := { d.pwr with phase := 1, held := false, domains := [26, 27, 28] } }

/-- The module has been without power: its dies are no more isolated, and a complex returns unless its history holds a
permanent unit (R47, R424); the cooling class is to be fixed again. -/
def Dev.powerCycled (d : Dev) : Dev :=
  let bad (half : Nat) : Bool :=
    (List.range 4).any (fun c => decide (2 ≤ (d.hist (hubUnitIx half 0xA c)).state)) || decide (2 ≤ (d.hist (hubUnit half 0xB)).state)
  { d with
    cycles := d.cycles + 1
    health := { d.health with isolated := [], failed := false }
    fab := { d.fab with hbState := 0 }
    fw := { d.fw with complexes := [{ out := bad 0 }, { out := bad 1 }] }
    pwr := { d.pwr with cls := none, isolatedAny := false, coolId := 0, sensed := 0, disagree := false, fluid := false, rise := 0
                        throttling := [] } }

/-- SUPPLY_IN_RANGE: power-up begins, once power-down is complete where it comes during power-down with PWR_EN high
(R480, R483). -/
def supplyInRangeEff (d : Dev) : Dev :=
  let on : Dev := { d with pwr := { d.pwr with supply := true } }
  if d.pwr.phase = 0 then on.powerCycled.startUp
  else if d.pwr.phase = 5 ∧ d.pwr.supply = false then { on with pwr := { on.pwr with held := d.pwr.pwrEn } }
  else d

/-- CLASS_SELECTED: a class that holds already stays; in Class A PD27 goes off. The record of a disagreement comes first
(R478). -/
def classSelectedEff (coolId rise : Nat) (fluid : Bool) (d : Dev) : Dev :=
  if d.pwr.phase ≠ 1 ∨ 4 ≤ coolId then d
  else
    let k := fixClass coolId rise fluid
    let dis := classDisagree coolId rise fluid
    let d1 := match d.pwr.cls with
      | some _ => d
      | none =>
        let d0 : Dev := { d with pwr := { d.pwr with
          cls := some k, coolId := coolId, sensed := sensedClass rise fluid, disagree := dis, fluid := fluid, rise := rise } }
        let d2 := if dis then (d0.hwLimits.stick Sticky.classDisagree).record { type := Rt.power, status := St.classDisagree } else d0.hwLimits
        d2.record { type := Rt.power, status := St.classSelected, opcode := k }
    let d2 : Dev := { d1 with pwr := { d1.pwr with
      phase := 2, domains := if d1.isClassA then d1.pwr.domains.filter (· ≠ 27) else d1.pwr.domains } }
    if d2.pwr.pwrEn then d2.startDomains else d2

/-- DOMAIN_IN_TOLERANCE: the next domain follows. -/
def domainInToleranceEff (domain : Nat) (d : Dev) : Dev :=
  match d.pwr.todo with
  | n :: rest => if d.pwr.phase = 3 && n = domain then d.nextDomain rest else d
  | [] => d

/-- DOMAIN_TOLERANCE_TIMEOUT: power-up ends with every domain off but the always-on ones. -/
def domainToleranceTimeoutEff (domain : Nat) (d : Dev) : Dev :=
  if d.pwr.phase ≠ 3 || d.pwr.todo.head? ≠ some domain then d
  else
    let d1 : Dev := { d with pwr := { d.pwr with
      phase := 6, todo := [], domains := d.pwr.domains.filter (fun n => decide (26 ≤ n) && decide (n ≤ 28)) } }
    (d1.stick Sticky.powerFault).record { type := Rt.power, status := St.powerFault, opcode := domain }

/-! ## Power-down (R476, R482, R483, R490) -/

/-- Power-down starts: PWR_GOOD low, admission stopped, heartbeats that say failed, and the record with its cause. -/
def Dev.powerDown (d : Dev) (st : Status) : Dev :=
  let d1 : Dev := { d with
    pwr := { d.pwr with phase := 5, good := false, todo := [], held := false }
    fab := { d.fab with hbState := 3 } }
  d1.sendHeartbeats.record { type := Rt.power, status := st }

/-- PWR_EN_RISE: power-up goes on, or starts; during power-down it is ignored, and after a thermal trip it waits for the
sensors. -/
def pwrEnRiseEff (d : Dev) : Dev :=
  let on : Dev := { d with pwr := { d.pwr with pwrEn := true } }
  if d.pwr.pwrEn then d
  else if d.pwr.phase = 2 then on.startDomains
  else if d.pwr.phase = 7 then
    if d.pwr.thermHold then { on with pwr := { on.pwr with held := true } } else on.startUp
  else on

/-- PWR_EN_FALL -/
def pwrEnFallEff (d : Dev) : Dev :=
  let off : Dev := { d with pwr := { d.pwr with pwrEn := false, held := false } }
  if !d.pwr.pwrEn then d
  else if 1 ≤ d.pwr.phase ∧ d.pwr.phase ≤ 4 then off.powerDown St.powerDown
  else if d.pwr.phase = 6 then { off with pwr := { off.pwr with phase := 7 } }
  else off

/-- POWER_FAULT: the supply has left its range for too long. -/
def powerFaultEff (d : Dev) : Dev :=
  let d1 : Dev := Dev.stick { d with pwr := { d.pwr with supply := false, held := false } } Sticky.powerFault
  if d.pwr.phase = 0 then d
  else if d.pwr.phase = 5 then d1
  else d1.powerDown St.powerFault

/-- THERM_TRIP: the pin goes low and power-down starts; during power-down it joins the one under way. -/
def thermTripEff (d : Dev) : Dev :=
  if d.pwr.phase = 0 then d
  else
    let d1 : Dev := { d with pwr := { d.pwr with tripPin := true, thermHold := true } }
    let d2 := (d1.stick Sticky.thermTrip).stick Sticky.failed
    if d.pwr.phase = 5 then d2 else d2.powerDown St.thermTrip

/-- POWER_DOWN_COMPLETE: the last domains are off and the host link is down; what the device held is lost but for what its
MRAM keeps. The always-on domains stay on while the supply is in range; a power-up that the supply's return has asked for
starts now. -/
def powerDownCompleteEff (d : Dev) : Dev :=
  if d.pwr.phase ≠ 5 then d
  else
    let d1 := Dev.deviceReset { d with host := { d.host with linkUp := false, width := 0 } }
    let p := d1.pwr
    let keep : List Nat := if p.supply then d.pwr.domains.filter (fun n => decide (26 ≤ n) && decide (n ≤ 28)) else []
    let d2 : Dev := { d1 with
      mem := [], poison := [], bell := 0
      health := { d1.health with nextSlot := 0, lastCanary := 0xFFFF, lastState := 0 }
      fab := { d1.fab with hbState := if d1.health.failed then 3 else 0 }
      fw := { d1.fw with restarts := [0, 0, 0], restartTimes := [], lastRestart := 0, absentMax := 0 }
      rw := [], rc := []
      pwr := { p with phase := if p.supply then 7 else 0, domains := keep, tripPin := false, input := 0, power := 0, hottest := 0
                      throttling := [], lastRecord := [] } }
    if d2.pwr.phase = 7 && p.held && !p.thermHold then d2.startUp else d2

/-- SENSORS_BELOW_85C: a power-up that waited may start. -/
def sensorsBelow85CEff (d : Dev) : Dev :=
  let d1 : Dev := { d with pwr := { d.pwr with thermHold := false } }
  if !d.pwr.thermHold then d else if d.pwr.held && d.pwr.phase = 7 then d1.startUp else d1

/-! ## Limits held by hardware (R484) -/

/-- The name under which a limit throttles: thermal limits act on a half, domain currents on a domain, the others on both
halves. -/
def throttleKey (cause half domain : Nat) : Nat × Nat := if cause = 0 then (0, half) else if cause = 2 then (2, domain) else (cause, 0)

/-- The entry of a limit that acts. -/
def Dev.throttle? (d : Dev) (k : Nat × Nat) : Option (Nat × Nat × Nat) := d.pwr.throttling.find? (fun t => t.1 = k.1 && t.2.1 = k.2)

/-- A limit requires a clock from now on; none where it acts no more. -/
def Dev.setThrottle (d : Dev) (k : Nat × Nat) (mhz : Option Nat) : Dev :=
  let rest := d.pwr.throttling.filter (fun t => !(t.1 = k.1 && t.2.1 = k.2))
  { d with pwr := { d.pwr with throttling := match mhz with | some c => rest ++ [(k.1, k.2, c)] | none => rest } }

/-- An entry into throttling: counted, its sticky bit, and a record at most once a minute for each cause. -/
def Dev.enterThrottle (d : Dev) (cause : Nat) : Dev :=
  let d1 := (d.rcAdd 16 0x00020024 1).stick Sticky.throttle
  let due : Bool := match d.pwr.lastRecord.find? cause with | some t => decide (t + 60000000 ≤ d.opUs) | none => true
  if due then
    Dev.record { d1 with pwr := { d1.pwr with lastRecord := d1.pwr.lastRecord.insert cause d.opUs } }
      { type := Rt.power, status := St.throttle, opcode := cause }
  else d1

/-- THROTTLE_STEP: 25 MHz down, 100 MHz for a domain current, or 25 MHz up until the limit in force is reached. -/
def throttleStepEff (cause half domain : Nat) (up : Bool) (d : Dev) : Dev :=
  if d.pwr.phase ≠ 4 || 4 ≤ cause || 2 ≤ half || 30 ≤ domain then d
  else
    let k := throttleKey cause half domain
    let lim := d.committed 16 0x0002000C
    if up then
      match d.throttle? k with
      | some t => d.setThrottle k (if lim ≤ t.2.2 + 25 then none else some (t.2.2 + 25))
      | none => d
    else
      let now := match d.throttle? k with
        | some t => t.2.2
        | none => if cause = 2 then lim else if cause = 0 then d.halfClock half else min (d.halfClock 0) (d.halfClock 1)
      let d1 := d.setThrottle k (some (now - if cause = 2 then 100 else 25))
      if (d.throttle? k).isSome then d1 else d1.enterThrottle cause

/-! ## Telemetry (R487) -/

/-- The 64 bytes of a sample. -/
def Dev.sample (d : Dev) (energy hotW hotE : Nat) : List Byte :=
  leBytes 8 d.bell ++ leBytes 4 d.pwr.input.toNat ++ leBytes 4 d.pwr.power.toNat ++ leBytes 4 d.pwr.hottest.toNat
  ++ leBytes 4 (d.pwrWord 0x20) ++ leBytes 4 energy ++ leBytes 2 hotW ++ leBytes 2 hotE ++ List.replicate 32 0

/-- TELEMETRY_SAMPLE: the sensors are read, and a sample that is due goes to the host's ring while the link is up. -/
def telemetrySampleEff (input power hottest energy hotW hotE : Nat) (d : Dev) : Dev :=
  if d.pwr.phase ≠ 4 then d
  else
    let d1 : Dev := { d with pwr := { d.pwr with
      input := word input, power := word power, hottest := word (hottest % 2 ^ 25) } }
    if !d.pwr.telDue || d.pwr.telPeriod = 0 || at' d.fw.svc 8 0 ≠ 0 || d.fw.handing then d1
    else
      let d2 : Dev := { d1 with pwr := { d1.pwr with telDue := false } }
      if !d.host.linkUp then d2
      else
        let d3 := d2.storeHost (d2.pwr.telBuf + d2.pwr.telIndex % 256 * 64) (d2.sample energy hotW hotE)
        { d3 with pwr := { d3.pwr with telIndex := d3.pwr.telIndex + 1 } }

/-- A bell passes for the samples: the period counts down to the next one. -/
def Dev.telemetryBell (d : Dev) : Dev :=
  let p := d.pwr
  if p.telPeriod = 0 then d
  else if p.telPeriod ≤ p.telCount + 1 then { d with pwr := { p with telCount := 0, telDue := true } }
  else { d with pwr := { p with telCount := p.telCount + 1 } }

/-! ## The commands (R403, R487) -/

/-- The limit register that pwr.limit names, with the value asked for and the lowest that R419 allows; none for a reserved
kind, and a value that no step of the limit reaches counts as out of range. -/
def Dev.limitOf (d : Dev) (kind value : Nat) : Option (Nat × Nat × Nat) :=
  match kind with
  | 0 => some (0x00020008, value, ceilDiv (classPower d.classNo) 10)
  | 1 => if value % 25 = 0 then some (0x0002000C, value, 400) else none
  | 2 => some (0x00020010, value, 70)
  | 3 => if value % 32 < 30 then some (0x00020040 + value % 32 * 4, bits value 15 8, 25) else none
  | _ => none

/-- pwr.limit: the value is staged, clamped to the hardware's, and group PWR committed; it acts at the next bell boundary. -/
def Dev.pwrLimit (d : Dev) (kind value : Nat) : Reply :=
  match d.limitOf kind value with
  | none => d.refuse St.pwrRange
  | some (off, v, least) =>
    let hw := d.hwLimit off
    if v < least then d.refuse St.pwrRange
    else
      let d1 := d.stagePut 16 off (rwsReset 16 off) (min v hw)
      if !d1.mayArm 0xC005 0 then
        { dev := (d1.setFail 0xC005 0 St.stageConflict).cfgRefusedAll 0xC005 St.stageConflict, status := St.stageConflict }
      else
        let d2 := d1.arm 0xC005 0 none
        if hw < v then
          { dev := (d2.stick Sticky.limitClamped).record { type := Rt.power, status := St.limitClamped, opcode := 0xC005 }
            status := St.limitClamped, words := [hw] }
        else d2.done [v]

/-- pwr.query -/
def Dev.pwrQuery (d : Dev) : Reply := d.done [d.pwrWord 0x04, d.pwrWord 0x18, d.pwrWord 0x1C, d.pwrWord 0x20]

/-- pwr.telemetry -/
def Dev.pwrTelemetry (d : Dev) (period buf : Nat) : Reply :=
  if 1 ≤ period ∧ period ≤ 9 then d.refuse St.pwrRange
  else Dev.done { d with pwr := { d.pwr with telPeriod := period, telBuf := buf, telIndex := 0, telCount := 0, telDue := false } } []

/-! ## The rows -/

/-- SUPPLY_IN_RANGE -/
def execSupplyInRange (s : State) : Host.Outcome State Fault Refusal := onDev supplyInRangeEff s
/-- CLASS_SELECTED -/
def execClassSelected (coolId rise : Nat) (fluid : Bool) (s : State) : Host.Outcome State Fault Refusal := onDev (classSelectedEff coolId rise fluid) s
/-- DOMAIN_IN_TOLERANCE -/
def execDomainInTolerance (domain : Nat) (s : State) : Host.Outcome State Fault Refusal := onDev (domainInToleranceEff domain) s
/-- DOMAIN_TOLERANCE_TIMEOUT -/
def execDomainToleranceTimeout (domain : Nat) (s : State) : Host.Outcome State Fault Refusal := onDev (domainToleranceTimeoutEff domain) s
/-- PWR_EN_RISE -/
def execPwrEnRise (s : State) : Host.Outcome State Fault Refusal := onDev pwrEnRiseEff s
/-- PWR_EN_FALL -/
def execPwrEnFall (s : State) : Host.Outcome State Fault Refusal := onDev pwrEnFallEff s
/-- POWER_FAULT -/
def execPowerFault (s : State) : Host.Outcome State Fault Refusal := onDev powerFaultEff s
/-- THERM_TRIP -/
def execThermTrip (s : State) : Host.Outcome State Fault Refusal := onDev thermTripEff s
/-- THROTTLE_STEP -/
def execThrottleStep (cause half domain : Nat) (up : Bool) (s : State) : Host.Outcome State Fault Refusal := onDev (throttleStepEff cause half domain up) s
/-- TELEMETRY_SAMPLE -/
def execTelemetrySample (input power hottest energy hotW hotE : Nat) (s : State) : Host.Outcome State Fault Refusal :=
  onDev (telemetrySampleEff input power hottest energy hotW hotE) s
/-- POWER_DOWN_COMPLETE -/
def execPowerDownComplete (s : State) : Host.Outcome State Fault Refusal := onDev powerDownCompleteEff s
/-- SENSORS_BELOW_85C -/
def execSensorsBelow85C (s : State) : Host.Outcome State Fault Refusal := onDev sensorsBelow85CEff s

end Sys2Proof.Machine
end

