-- ==== Sys2Proof/Machine/Commands.lean ====
section
/-! DEFINITION. The rows of the mailbox commands: what check 2 of R398, R404, R405 and R492 say of each, its action, and how
a command that waits goes on; with them the events after which waiting commands may end. -/

namespace Sys2Proof.Machine

/-! ## Commands that wait (R398, R405) -/

/-- Another turn of a command that waits. -/
def Dev.retry (d : Dev) (x : Inflight) : Dev :=
  let c := x.h.ctx
  match x.cmd with
  | .sessBye _ _ => d.again x (fun d => d.sessByeAgain x.h.set x.note)
  | .sessReset _ level _ => d.again x (fun d => d.sessResetAgain x level)
  | .ctxClose _ => d.again x (fun d => d.ctxCloseAgain c)
  | .ctxSnapshot _ buf max => d.again x (fun d => d.ctxSnapshotAgain c buf max x.note)
  | .memAlloc _ bytes half hint flags => d.again x (fun d => d.memAllocCmd c bytes half hint flags x.id x.note)
  | .memQuota _ ctx half hbm deep => d.again x (fun d => d.memQuotaCmd x.h.set ctx half hbm deep x.id x.note)
  | .memHint _ dpa hint => d.again x (fun d => d.memHintCmd c dpa hint x.id x.note)
  | .stepAbort _ step => d.again x (fun d => d.stepAbortAgain c step)
  | .kvSwap _ rec' pt entries gen => d.again x (fun d => d.kvSwapCmd c rec' pt entries gen x.since)
  | .kvSet _ rec' index e gen => d.again x (fun d => d.kvSetCmd c rec' index e.toNat gen x.since)
  | .kvRelease _ rec' gen => d.again x (fun d => d.kvReleaseCmd c rec' gen x.since)
  | .fabJoin _ _ _ _ _ _ _ _ _ _ _ => d.again x Dev.fabJoinAgain
  | .fabLeave _ => d.again x (fun d => d.fabLeaveAgain x.note)
  | .reliefArm _ ring spares n => d.again x (fun d => d.reliefArm c ring spares n x.id x.note)
  | .reliefStart _ l => d.again x (fun d => d.reliefStartAgain c l x.note)
  | .hltCanary _ unit => d.again x (fun d => d.hltCanaryAgain unit)
  | .cfgCommitCmd _ gid => d.again x (fun d => d.cfgCommitAgain gid)
  | .cfgOverlay _ _ => d.again x Dev.cfgOverlayAgain
  | _ => d

/-- Contexts that can close do, and every waiting command has another turn, in the order in which they were taken; none ends
while the mailbox service does not run. -/
def Dev.settle (d : Dev) : Dev :=
  let d1 := d.reapClosing.retryPorts
  if d1.mailboxUp then (d1.host.inflight.foldl Dev.retry d1).retryPorts else d1

/-- A mailbox command: one entry of a ring set. -/
def Dev.command (d : Dev) (h : Hdr) (cmd : Instr) (k : CmdKind) (act : Dev → Reply) : Dev := (d.serve h cmd k act).settle

/-! ## Sessions and contexts (R401, R402) -/

/-- SESS_HELLO -/
def execSessHello (h : Hdr) (verMin verMax graceS : Nat) (s : State) : Host.Outcome State Fault Refusal :=
  onDev (fun d => d.command h (.sessHello h verMin verMax graceS) { hello := true } (fun d => d.sessHello h.set verMin verMax graceS)) s
/-- SESS_BYE -/
def execSessBye (h : Hdr) (mode : Nat) (s : State) : Host.Outcome State Fault Refusal :=
  onDev (fun d => d.command h (.sessBye h mode) { bad := decide (2 < mode) } (fun d => d.sessBye h.set mode)) s
/-- SESS_ADOPT -/
def execSessAdopt (h : Hdr) (token : Word) (s : State) : Host.Outcome State Fault Refusal :=
  onDev (fun d => d.command h (.sessAdopt h token) { ctx := .adopt } (fun d => d.sessAdopt h.set h.ctx token)) s
/-- SESS_RESET -/
def execSessReset (h : Hdr) (level force : Nat) (s : State) : Host.Outcome State Fault Refusal :=
  onDev (fun d => d.command h (.sessReset h level force) { bad := decide (1 < level ∨ 1 < force) } (fun d => d.sessReset h level force)) s
/-- SESS_SPDM -/
def execSessSpdm (h : Hdr) (req reqBytes rsp rspMax : Nat) (s : State) : Host.Outcome State Fault Refusal :=
  onDev (fun d => d.command h (.sessSpdm h req reqBytes rsp rspMax) {} (fun d => d.sessSpdm req reqBytes rsp rspMax)) s
/-- CTX_OPEN -/
def execCtxOpen (h : Hdr) (s : State) : Host.Outcome State Fault Refusal :=
  onDev (fun d => d.command h (.ctxOpen h) {} (fun d => d.ctxOpen h.set)) s
/-- CTX_CLOSE -/
def execCtxClose (h : Hdr) (s : State) : Host.Outcome State Fault Refusal :=
  onDev (fun d => d.command h (.ctxClose h) { ctx := .owned } (fun d => d.ctxClose h.ctx)) s
/-- CTX_SNAPSHOT -/
def execCtxSnapshot (h : Hdr) (buf max : Nat) (s : State) : Host.Outcome State Fault Refusal :=
  onDev (fun d => d.command h (.ctxSnapshot h buf max) { ctx := .owned } (fun d => d.ctxSnapshot h.ctx buf max)) s
/-- CTX_RESTORE -/
def execCtxRestore (h : Hdr) (buf bytes phase : Nat) (s : State) : Host.Outcome State Fault Refusal :=
  onDev (fun d => d.command h (.ctxRestore h buf bytes phase) { ctx := .owned, bad := decide (1 < phase) }
    (fun d => d.ctxRestore h.ctx buf bytes phase)) s
/-- CTX_QUERY -/
def execCtxQuery (h : Hdr) (s : State) : Host.Outcome State Fault Refusal :=
  onDev (fun d => d.command h (.ctxQuery h) { ctx := .owned, idem := true } (fun d => d.ctxQuery h.set h.ctx)) s

/-! ## Memory (R241, R493) -/

/-- MEM_ALLOC -/
def execMemAlloc (h : Hdr) (bytes half hint flags : Nat) (s : State) : Host.Outcome State Fault Refusal :=
  onDev (fun d => d.command h (.memAlloc h bytes half hint flags) { ctx := .owned, bad := decide (2 < half ∨ 1 < flags) }
    (fun d => d.memAllocCmd h.ctx bytes half hint flags d.host.nextId 0)) s
/-- MEM_FREE -/
def execMemFree (h : Hdr) (dpa : Nat) (s : State) : Host.Outcome State Fault Refusal :=
  onDev (fun d => d.command h (.memFree h dpa) { ctx := .owned } (fun d => d.memFreeCmd h.ctx dpa)) s
/-- MEM_HINT -/
def execMemHint (h : Hdr) (dpa hint : Nat) (s : State) : Host.Outcome State Fault Refusal :=
  onDev (fun d => d.command h (.memHint h dpa hint) { ctx := .owned, bad := decide (8 ≤ hint) } (fun d => d.memHintCmd h.ctx dpa hint d.host.nextId 0)) s
/-- MEM_QUOTA -/
def execMemQuota (h : Hdr) (ctx half hbm deep : Nat) (s : State) : Host.Outcome State Fault Refusal :=
  onDev (fun d => d.command h (.memQuota h ctx half hbm deep) { bad := decide (2 < half) } (fun d => d.memQuotaCmd h.set ctx half hbm deep d.host.nextId 0)) s
/-- MEM_QUERY -/
def execMemQuery (h : Hdr) (ctx : Nat) (s : State) : Host.Outcome State Fault Refusal :=
  onDev (fun d => d.command h (.memQuery h ctx) { idem := true } (fun d => d.memQueryCmd h.set ctx)) s
/-- MEM_ASSIGN -/
def execMemAssign (h : Hdr) (kind op half first count : Nat) (s : State) : Host.Outcome State Fault Refusal :=
  onDev (fun d => d.command h (.memAssign h kind op half first count)
    { ctx := .owned, bad := decide (1 < kind ∨ 1 < op ∨ 2 < half) } (fun d => d.memAssignCmd h.ctx kind op half first count)) s

/-! ## Graphs and steps (R300) -/

/-- GRAPH_LOAD -/
def execGraphLoad (h : Hdr) (image : Nat) (s : State) : Host.Outcome State Fault Refusal :=
  onDev (fun d => d.command h (.graphLoad h image) { ctx := .owned } (fun d => d.graphLoad h.ctx image)) s
/-- GRAPH_UNLOAD -/
def execGraphUnload (h : Hdr) (graph : Nat) (s : State) : Host.Outcome State Fault Refusal :=
  onDev (fun d => d.command h (.graphUnload h graph) { ctx := .owned } (fun d => d.graphUnload h.ctx graph)) s
/-- STEP_SUBMIT -/
def execStepSubmit (h : Hdr) (p : StepParams) (s : State) : Host.Outcome State Fault Refusal :=
  onDev (fun d => d.command h (.stepSubmit h p)
    { ctx := .owned, idem := true, bad := decide (2 < p.nanPolicy ∨ (7 < p.replayMax ∧ p.replayMax ≠ 0xFF) ∨ 2 ^ 48 ≤ p.startBell) }
    (fun d => d.stepSubmit h.ctx p)) s
/-- STEP_ABORT -/
def execStepAbort (h : Hdr) (step : Nat) (s : State) : Host.Outcome State Fault Refusal :=
  onDev (fun d => d.command h (.stepAbort h step) { ctx := .owned, idem := true } (fun d => d.stepAbort h.ctx step)) s
/-- STEP_QUERY -/
def execStepQuery (h : Hdr) (step : Nat) (s : State) : Host.Outcome State Fault Refusal :=
  onDev (fun d => d.command h (.stepQuery h step) { ctx := .owned, idem := true } (fun d => d.stepQuery h.ctx)) s

/-! ## KV (R229) -/

/-- KV_CREATE -/
def execKvCreate (h : Hdr) (seqRec ptPtr statsPtr ptEntries initLen poolId hq flags : Nat) (s : State) : Host.Outcome State Fault Refusal :=
  onDev (fun d => d.command h (.kvCreate h seqRec ptPtr statsPtr ptEntries initLen poolId hq flags)
    { ctx := .owned, bad := decide (flags ≠ 0 ∧ flags ≠ 2) }
    (fun d => d.kvCreateCmd h.ctx seqRec ptPtr statsPtr ptEntries initLen poolId hq flags)) s
/-- KV_SWAP -/
def execKvSwap (h : Hdr) (seqRec ptPtr ptEntries expGen : Nat) (s : State) : Host.Outcome State Fault Refusal :=
  onDev (fun d => d.command h (.kvSwap h seqRec ptPtr ptEntries expGen) { ctx := .owned }
    (fun d => d.kvSwapCmd h.ctx seqRec ptPtr ptEntries expGen d.nextOrder)) s
/-- KV_SET -/
def execKvSet (h : Hdr) (seqRec index : Nat) (entry : Word) (expGen : Nat) (s : State) : Host.Outcome State Fault Refusal :=
  onDev (fun d => d.command h (.kvSet h seqRec index entry expGen) { ctx := .owned }
    (fun d => d.kvSetCmd h.ctx seqRec index entry.toNat expGen d.nextOrder)) s
/-- KV_RELEASE -/
def execKvRelease (h : Hdr) (seqRec expGen : Nat) (s : State) : Host.Outcome State Fault Refusal :=
  onDev (fun d => d.command h (.kvRelease h seqRec expGen) { ctx := .owned } (fun d => d.kvReleaseCmd h.ctx seqRec expGen d.nextOrder)) s
/-- KV_QUERY -/
def execKvQuery (h : Hdr) (seqRec : Nat) (s : State) : Host.Outcome State Fault Refusal :=
  onDev (fun d => d.command h (.kvQuery h seqRec) { ctx := .owned, idem := true } (fun d => d.kvQueryCmd h.ctx seqRec)) s

/-! ## Fabric and relief (R332, R357) -/

/-- FAB_JOIN: idempotent where it repeats the parameters of the join that stands. -/
def execFabJoin (h : Hdr) (fabric phys dx dy dz dw period tk1 tk2 fabClass : Nat) (s : State) : Host.Outcome State Fault Refusal :=
  let p : JoinParams := { fabric := fabric, phys := phys, dims := [dx, dy, dz, dw], period := period, tk1 := tk1, tk2 := tk2 }
  onDev (fun d => d.command h (.fabJoin h fabric phys dx dy dz dw period tk1 tk2 fabClass)
    { idem := decide (d.fab.state ≠ 0) && decide (d.fab.params = p) } (fun d => d.fabJoin p fabClass)) s
/-- FAB_LEAVE -/
def execFabLeave (h : Hdr) (s : State) : Host.Outcome State Fault Refusal :=
  onDev (fun d => d.command h (.fabLeave h) {} Dev.fabLeave) s
/-- FAB_BIND -/
def execFabBind (h : Hdr) (job logical group0 count : Nat) (s : State) : Host.Outcome State Fault Refusal :=
  onDev (fun d => d.command h (.fabBind h job logical group0 count) { ctx := .owned, bad := decide (16384 ≤ logical) }
    (fun d => d.fabBind h.ctx job logical group0 count)) s
/-- FAB_GROUP -/
def execFabGroup (h : Hdr) (group table : Nat) (s : State) : Host.Outcome State Fault Refusal :=
  onDev (fun d => d.command h (.fabGroup h group table) { ctx := .owned } (fun d => d.fabGroup h.ctx group table)) s
/-- FAB_QUERY -/
def execFabQuery (h : Hdr) (s : State) : Host.Outcome State Fault Refusal :=
  onDev (fun d => d.command h (.fabQuery h) { idem := true } Dev.fabQuery) s
/-- RELIEF_ARM -/
def execReliefArm (h : Hdr) (ring spares snapExtents : Nat) (s : State) : Host.Outcome State Fault Refusal :=
  onDev (fun d => d.command h (.reliefArm h ring spares snapExtents) { ctx := .owned } (fun d => d.reliefArm h.ctx ring spares snapExtents d.host.nextId 0)) s
/-- RELIEF_SPARE -/
def execReliefSpare (h : Hdr) (offer : Nat) (s : State) : Host.Outcome State Fault Refusal :=
  onDev (fun d => d.command h (.reliefSpare h offer) { bad := decide (1 < offer) } (fun d => d.reliefSpare offer)) s
/-- RELIEF_START -/
def execReliefStart (h : Hdr) (logical : Nat) (s : State) : Host.Outcome State Fault Refusal :=
  onDev (fun d => d.command h (.reliefStart h logical) { ctx := .owned } (fun d => d.reliefStart h.ctx logical)) s
/-- RELIEF_QUERY -/
def execReliefQuery (h : Hdr) (s : State) : Host.Outcome State Fault Refusal :=
  onDev (fun d => d.command h (.reliefQuery h) { ctx := .owned, idem := true } (fun d => d.reliefQuery h.ctx)) s

/-! ## Health and the pit log (R382) -/

/-- HLT_READ -/
def execHltRead (h : Hdr) (unit buf : Nat) (s : State) : Host.Outcome State Fault Refusal :=
  onDev (fun d => d.command h (.hltRead h unit buf) { idem := true } (fun d => d.hltRead unit buf)) s
/-- LOG_READ -/
def execLogRead (h : Hdr) (first count buf : Nat) (s : State) : Host.Outcome State Fault Refusal :=
  onDev (fun d => d.command h (.logRead h first count buf) { idem := true } (fun d => d.logRead first count buf)) s
/-- LOG_CLEAR -/
def execLogClear (h : Hdr) (expEpoch : Nat) (s : State) : Host.Outcome State Fault Refusal :=
  onDev (fun d => d.command h (.logClear h expEpoch) { idem := true } (fun d => d.logClear expEpoch)) s
/-- HLT_CANARY -/
def execHltCanary (h : Hdr) (unit : Nat) (s : State) : Host.Outcome State Fault Refusal :=
  onDev (fun d => d.command h (.hltCanary h unit) {} (fun d => d.hltCanary unit)) s
/-- HLT_STICKY -/
def execHltSticky (h : Hdr) (index : Nat) (clear : Word) (s : State) : Host.Outcome State Fault Refusal :=
  onDev (fun d => d.command h (.hltSticky h index clear) { idem := decide (clear = 0), bad := decide (3 < index) }
    (fun d => d.hltSticky index clear)) s
/-- HLT_QUERY -/
def execHltQuery (h : Hdr) (s : State) : Host.Outcome State Fault Refusal :=
  onDev (fun d => d.command h (.hltQuery h) { idem := true } Dev.hltQuery) s

/-! ## Configuration and power (R403, R469, R487) -/

/-- CFG_STAGE -/
def execCfgStage (h : Hdr) (list count : Nat) (s : State) : Host.Outcome State Fault Refusal :=
  onDev (fun d => d.command h (.cfgStage h list count) { free := true } (fun d => d.cfgStage list count)) s
/-- CFG_COMMIT_CMD -/
def execCfgCommitCmd (h : Hdr) (group : Nat) (s : State) : Host.Outcome State Fault Refusal :=
  onDev (fun d => d.command h (.cfgCommitCmd h group) { free := true } (fun d => d.cfgCommit group)) s
/-- CFG_OVERLAY -/
def execCfgOverlay (h : Hdr) (overlay : Nat) (s : State) : Host.Outcome State Fault Refusal :=
  onDev (fun d => d.command h (.cfgOverlay h overlay) { free := true } (fun d => d.cfgOverlay overlay)) s
/-- CFG_QUERY -/
def execCfgQuery (h : Hdr) (group half : Nat) (s : State) : Host.Outcome State Fault Refusal :=
  onDev (fun d => d.command h (.cfgQuery h group half) { free := true, idem := true, bad := decide (1 < half) }
    (fun d => d.cfgQuery group half)) s
/-- PWR_LIMIT: the value of kind 3 has a domain and a percentage, and zeros elsewhere. -/
def execPwrLimit (h : Hdr) (kind value : Nat) (s : State) : Host.Outcome State Fault Refusal :=
  onDev (fun d => d.command h (.pwrLimit h kind value)
    { free := true, bad := decide (kind = 3 ∧ (65536 ≤ value ∨ bits value 7 5 ≠ 0)) } (fun d => d.pwrLimit kind value)) s
/-- PWR_QUERY -/
def execPwrQuery (h : Hdr) (s : State) : Host.Outcome State Fault Refusal :=
  onDev (fun d => d.command h (.pwrQuery h) { idem := true } Dev.pwrQuery) s
/-- PWR_TELEMETRY -/
def execPwrTelemetry (h : Hdr) (period buf : Nat) (s : State) : Host.Outcome State Fault Refusal :=
  onDev (fun d => d.command h (.pwrTelemetry h period buf) { free := true } (fun d => d.pwrTelemetry period buf)) s

/-! ## Events after which waiting commands may end -/

/-- DEEP_RESPONSE -/
def execDeepResponse (id : Nat) (ok poison : Bool) (data : List Byte) (s : State) : Host.Outcome State Fault Refusal :=
  onDev (fun d => (deepResponseEff id ok poison data d).settle) s
/-- DEEP_TIMEOUT -/
def execDeepTimeout (id : Nat) (s : State) : Host.Outcome State Fault Refusal := onDev (fun d => (deepTimeoutEff id d).settle) s
/-- DEEP_LINK_DOWN -/
def execDeepLinkDown (half : Nat) (s : State) : Host.Outcome State Fault Refusal := onDev (fun d => (deepLinkDownEff half d).settle) s
/-- PARITY_REPAIR_DONE -/
def execParityRepairDone (ctx : Nat) (ok : Bool) (lines : List (Nat × List Byte)) (s : State) : Host.Outcome State Fault Refusal :=
  onDev (fun d => (parityRepairDoneEff ctx ok lines d).settle) s
/-- CANARY_START -/
def execCanaryStart (unit : Nat) (s : State) : Host.Outcome State Fault Refusal := onDev (fun d => (canaryStartEff unit d).settle) s
/-- TRAINING_TIMEOUT -/
def execTrainingTimeout (s : State) : Host.Outcome State Fault Refusal := onDev (fun d => (trainingTimeoutEff d).settle) s
/-- BELL_LOCK -/
def execBellLock (s : State) : Host.Outcome State Fault Refusal := onDev (fun d => (bellLockEff d).settle) s
/-- BELL_LOCK_TIMEOUT -/
def execBellLockTimeout (s : State) : Host.Outcome State Fault Refusal := onDev (fun d => (bellLockTimeoutEff d).settle) s
/-- LEAVE_TIMEOUT -/
def execLeaveTimeout (s : State) : Host.Outcome State Fault Refusal := onDev (fun d => (leaveTimeoutEff d).settle) s
/-- SPARE_CLAIM_TIMEOUT -/
def execSpareClaimTimeout (ctx : Nat) (s : State) : Host.Outcome State Fault Refusal := onDev (fun d => (spareClaimTimeoutEff ctx d).settle) s
/-- SPARE_CLAIM_ANSWER -/
def execSpareClaimAnswer (ctx phys : Nat) (accepted : Bool) (s : State) : Host.Outcome State Fault Refusal :=
  onDev (fun d => (spareClaimAnswerEff ctx phys accepted d).settle) s
/-- KV_PORT_OP_DONE -/
def execKvPortOpDone (half core : Nat) (s : State) : Host.Outcome State Fault Refusal := onDev (fun d => (kvPortOpDoneEff half core d).settle) s
/-- INSTANCE_COMPLETE -/
def execInstanceComplete (ctx : Nat) (newer : Bool) (task mb since : Nat) (s : State) : Host.Outcome State Fault Refusal :=
  onDev (fun d => (instanceCompleteEff ctx newer task mb since d).settle) s
/-- ATTEMPT_DRAINED -/
def execAttemptDrained (ctx : Nat) (newer : Bool) (s : State) : Host.Outcome State Fault Refusal :=
  onDev (fun d => (attemptDrainedEff ctx newer d).settle) s
/-- FW_RESTART_DONE -/
def execFwRestartDone (imageOk : Bool) (s : State) : Host.Outcome State Fault Refusal := onDev (fun d => (fwRestartDoneEff imageOk d).settle) s
/-- HANDOVER_DONE -/
def execHandoverDone (s : State) : Host.Outcome State Fault Refusal := onDev (fun d => (handoverDoneEff d).settle) s

/-! ## The test of a Headframe core (R416) -/

/-- A Headframe core's test runs: its unit's canary is due, and the shed level is 0 or the test has waited for 2 h. -/
def Dev.coreTestDue (d : Dev) (half core : Nat) : Bool :=
  let u := hubUnitIx half 0xA core
  let x := at' d.fw.complexes half {}
  decide (half < 2) && decide (core < 4) && (x.active || x.standby) && !x.out && x.restarting = 0 && !d.fw.handing && d.canaryDue u
  && ((x.standby && !x.active) || d.fw.shed = 0 || d.health.canaries.any (fun q => q.unit = u && q.deferred))

/-- HEADFRAME_CORE_TEST: the test starts, its services run on the partner core meanwhile, and its result is entered; a core
that has failed twice takes its complex out of service. -/
def headframeCoreTestEff (half core : Nat) (pass : Bool) (d : Dev) : Dev :=
  let u := hubUnitIx half 0xA core
  if !d.coreTestDue half core then d
  else (((d.addCanary u false).canaryRuns u).settle.dropCanary u).canaryEnter u pass

/-- HEADFRAME_CORE_TEST -/
def execHeadframeCoreTest (half core : Nat) (pass : Bool) (s : State) : Host.Outcome State Fault Refusal :=
  onDev (headframeCoreTestEff half core pass) s

/-! ## The bell boundary (R318) -/

/-- One bell passes: the count, the times that run with it, and the grace of orphaned contexts. -/
def Dev.tick (d : Dev) : Dev :=
  let us := max d.fab.period 1 * 10
  let sec := (d.opUs + us) / 1000000
  let bound := if d.fw.shed < 3 then 1001 else 20001
  { d with
    bell := (d.bell + 1) % 2 ^ 48, opUs := d.opUs + us
    host := { d.host with orphanUs := d.host.orphanUs - us }
    fw := { d.fw with
      restartTimes := d.recentRestarts
      mbxLat := if d.opTime < sec ∧ 5 ≤ d.host.state then
          (if d.recentRestarts.isEmpty then Config.mailboxLatency sec % bound else Config.mailboxLatency sec) else d.fw.mbxLat } }

/-- BELL_BOUNDARY: the events of the new bell in the order of R318, then what is sent once a bell, and what a step that has
nothing left to run does next. -/
def bellBoundaryEff (d : Dev) : Dev :=
  if d.pwr.phase ≠ 4 then d
  else
    let d1 := d.tick.remapSwitch.cfgBell
    let d2 := (upto 8 (fun c d => d.commitDue c) d1).settle
    let d3 := upto 8 (fun c d => (d.resumeDue c).startDue c) d2
    let d4 := ((d3.canarySlot.telemetryBell).sendHeartbeats).beatDue
    (upto 8 (fun c d => d.sealStep c 0) d4).settle

/-- BELL_BOUNDARY -/
def execBellBoundary (s : State) : Host.Outcome State Fault Refusal := onDev bellBoundaryEff s

end Sys2Proof.Machine
end

