-- ==== Sys2Proof/Machine/Dispatch.lean ====
section
/-! DEFINITION. The effect of each command: one arm per constructor, one direct call each. -/

namespace Sys2Proof.Machine

/-- The effect of a command on everything but the queue. -/
def exec (i : Instr) (s : State) : Host.Outcome State Fault Refusal :=
  match i with
  | .sessHello h verMin verMax graceS => Sys2Proof.Machine.execSessHello h verMin verMax graceS s
  | .sessBye h mode => Sys2Proof.Machine.execSessBye h mode s
  | .sessAdopt h token => Sys2Proof.Machine.execSessAdopt h token s
  | .sessReset h level force => Sys2Proof.Machine.execSessReset h level force s
  | .sessSpdm h req reqBytes rsp rspMax => Sys2Proof.Machine.execSessSpdm h req reqBytes rsp rspMax s
  | .ctxOpen h => Sys2Proof.Machine.execCtxOpen h s
  | .ctxClose h => Sys2Proof.Machine.execCtxClose h s
  | .ctxSnapshot h buf max => Sys2Proof.Machine.execCtxSnapshot h buf max s
  | .ctxRestore h buf bytes phase => Sys2Proof.Machine.execCtxRestore h buf bytes phase s
  | .ctxQuery h => Sys2Proof.Machine.execCtxQuery h s
  | .memAlloc h bytes half hint flags => Sys2Proof.Machine.execMemAlloc h bytes half hint flags s
  | .memFree h dpa => Sys2Proof.Machine.execMemFree h dpa s
  | .memHint h dpa hint => Sys2Proof.Machine.execMemHint h dpa hint s
  | .memQuota h ctx half hbm deep => Sys2Proof.Machine.execMemQuota h ctx half hbm deep s
  | .memQuery h ctx => Sys2Proof.Machine.execMemQuery h ctx s
  | .memAssign h kind op half first count => Sys2Proof.Machine.execMemAssign h kind op half first count s
  | .graphLoad h image => Sys2Proof.Machine.execGraphLoad h image s
  | .graphUnload h graph => Sys2Proof.Machine.execGraphUnload h graph s
  | .stepSubmit h p => Sys2Proof.Machine.execStepSubmit h p s
  | .stepAbort h step => Sys2Proof.Machine.execStepAbort h step s
  | .stepQuery h step => Sys2Proof.Machine.execStepQuery h step s
  | .kvCreate h seqRec ptPtr statsPtr ptEntries initLen poolId hq flags => Sys2Proof.Machine.execKvCreate h seqRec ptPtr statsPtr ptEntries initLen poolId hq flags s
  | .kvSwap h seqRec ptPtr ptEntries expGen => Sys2Proof.Machine.execKvSwap h seqRec ptPtr ptEntries expGen s
  | .kvSet h seqRec index entry expGen => Sys2Proof.Machine.execKvSet h seqRec index entry expGen s
  | .kvRelease h seqRec expGen => Sys2Proof.Machine.execKvRelease h seqRec expGen s
  | .kvQuery h seqRec => Sys2Proof.Machine.execKvQuery h seqRec s
  | .fabJoin h fabric phys dx dy dz dw period tk1 tk2 fabClass => Sys2Proof.Machine.execFabJoin h fabric phys dx dy dz dw period tk1 tk2 fabClass s
  | .fabLeave h => Sys2Proof.Machine.execFabLeave h s
  | .fabBind h job logical group0 count => Sys2Proof.Machine.execFabBind h job logical group0 count s
  | .fabGroup h group table => Sys2Proof.Machine.execFabGroup h group table s
  | .fabQuery h => Sys2Proof.Machine.execFabQuery h s
  | .reliefArm h ring spares snapExtents => Sys2Proof.Machine.execReliefArm h ring spares snapExtents s
  | .reliefSpare h offer => Sys2Proof.Machine.execReliefSpare h offer s
  | .reliefStart h logical => Sys2Proof.Machine.execReliefStart h logical s
  | .reliefQuery h => Sys2Proof.Machine.execReliefQuery h s
  | .hltRead h unit buf => Sys2Proof.Machine.execHltRead h unit buf s
  | .logRead h first count buf => Sys2Proof.Machine.execLogRead h first count buf s
  | .logClear h expEpoch => Sys2Proof.Machine.execLogClear h expEpoch s
  | .hltCanary h unit => Sys2Proof.Machine.execHltCanary h unit s
  | .hltSticky h index clear => Sys2Proof.Machine.execHltSticky h index clear s
  | .hltQuery h => Sys2Proof.Machine.execHltQuery h s
  | .cfgStage h list count => Sys2Proof.Machine.execCfgStage h list count s
  | .cfgCommitCmd h group => Sys2Proof.Machine.execCfgCommitCmd h group s
  | .cfgOverlay h overlay => Sys2Proof.Machine.execCfgOverlay h overlay s
  | .cfgQuery h group half => Sys2Proof.Machine.execCfgQuery h group half s
  | .pwrLimit h kind value => Sys2Proof.Machine.execPwrLimit h kind value s
  | .pwrQuery h => Sys2Proof.Machine.execPwrQuery h s
  | .pwrTelemetry h period buf => Sys2Proof.Machine.execPwrTelemetry h period buf s
  | .opcodeInvalid h opcode => Sys2Proof.Machine.execOpcodeInvalid h opcode s
  | .cmdTailDoorbell set tail => Sys2Proof.Machine.execCmdTailDoorbell set tail s
  | .ringEnableWrite set value => Sys2Proof.Machine.execRingEnableWrite set value s
  | .eventRingEnableWrite value => Sys2Proof.Machine.execEventRingEnableWrite value s
  | .loadStart => Sys2Proof.Machine.execLoadStart s
  | .loadGo => Sys2Proof.Machine.execLoadGo s
  | .loadAbort => Sys2Proof.Machine.execLoadAbort s
  | .imageVerifyDone revoked keyHash minSvn => Sys2Proof.Machine.execImageVerifyDone revoked keyHash minSvn s
  | .baseConfigLoad => Sys2Proof.Machine.execBaseConfigLoad s
  | .startTimeout => Sys2Proof.Machine.execStartTimeout s
  | .hostHeartbeatWrite value => Sys2Proof.Machine.execHostHeartbeatWrite value s
  | .hostHeartbeatLost => Sys2Proof.Machine.execHostHeartbeatLost s
  | .orphanGraceExpiry => Sys2Proof.Machine.execOrphanGraceExpiry s
  | .hotReset => Sys2Proof.Machine.execHotReset s
  | .flr => Sys2Proof.Machine.execFlr s
  | .hostLinkDown => Sys2Proof.Machine.execHostLinkDown s
  | .hostWavelengthLoss lam => Sys2Proof.Machine.execHostWavelengthLoss lam s
  | .bar2Read off bytes => Sys2Proof.Machine.execBar2Read off bytes s
  | .bar2Write off data => Sys2Proof.Machine.execBar2Write off data s
  | .eventDeliver => Sys2Proof.Machine.execEventDeliver s
  | .rcCounterRead die off => Sys2Proof.Machine.execRcCounterRead die off s
  | .belNowRead die since => Sys2Proof.Machine.execBelNowRead die since s
  | .hifBellRead => Sys2Proof.Machine.execHifBellRead s
  | .stickyClearWrite w index value => Sys2Proof.Machine.execStickyClearWrite w index value s
  | .registerWrite w die off value => Sys2Proof.Machine.execRegisterWrite w die off value s
  | .hubAccessFault half core dpa kind => Sys2Proof.Machine.execHubAccessFault half core dpa kind s
  | .guardedStore w dpa data => Sys2Proof.Machine.execGuardedStore w dpa data s
  | .hubEvictedAccess half core access deepOk => Sys2Proof.Machine.execHubEvictedAccess half core access deepOk s
  | .cfgCommitWrite w half value => Sys2Proof.Machine.execCfgCommitWrite w half value s
  | .tlyPortGo half core value => Sys2Proof.Machine.execTlyPortGo half core value s
  | .tallyDrawDone half core mismatch => Sys2Proof.Machine.execTallyDrawDone half core mismatch s
  | .kvPortSwap half core => Sys2Proof.Machine.execKvPortSwap half core s
  | .kvPortSet half core => Sys2Proof.Machine.execKvPortSet half core s
  | .kvPortOpDone half core => Sys2Proof.Machine.execKvPortOpDone half core s
  | .hubDoneWrite half core value => Sys2Proof.Machine.execHubDoneWrite half core value s
  | .dbcDoorbell w half value => Sys2Proof.Machine.execDbcDoorbell w half value s
  | .dbcMaskSet w half value => Sys2Proof.Machine.execDbcMaskSet w half value s
  | .dbcMaskClr w half value => Sys2Proof.Machine.execDbcMaskClr w half value s
  | .dbcPendSet w half value => Sys2Proof.Machine.execDbcPendSet w half value s
  | .dbcPendClr w half value => Sys2Proof.Machine.execDbcPendClr w half value s
  | .dbcEoi half target value => Sys2Proof.Machine.execDbcEoi half target value s
  | .doorbellDispatch half => Sys2Proof.Machine.execDoorbellDispatch half s
  | .instanceAdmit ctx newer task mb => Sys2Proof.Machine.execInstanceAdmit ctx newer task mb s
  | .pageExhausted ctx newer task mb => Sys2Proof.Machine.execPageExhausted ctx newer task mb s
  | .hbmAdmitDeadline ctx newer task mb => Sys2Proof.Machine.execHbmAdmitDeadline ctx newer task mb s
  | .sliceIssue die cluster core => Sys2Proof.Machine.execSliceIssue die cluster core s
  | .fTileDrain die cluster core tile f => Sys2Proof.Machine.execFTileDrain die cluster core tile f s
  | .bTileDrain die cluster core eng tile f => Sys2Proof.Machine.execBTileDrain die cluster core eng tile f s
  | .tileReplay die cluster core tile f => Sys2Proof.Machine.execTileReplay die cluster core tile f s
  | .foreignTileRun die cluster core eng f => Sys2Proof.Machine.execForeignTileRun die cluster core eng f s
  | .vuGroupDone die cluster core group fail => Sys2Proof.Machine.execVuGroupDone die cluster core group fail s
  | .sliceComplete die cluster core => Sys2Proof.Machine.execSliceComplete die cluster core s
  | .spareHandoff die cluster slot => Sys2Proof.Machine.execSpareHandoff die cluster slot s
  | .coreMapOut die cluster core => Sys2Proof.Machine.execCoreMapOut die cluster core s
  | .ladderConvertDone ctx newer task mb => Sys2Proof.Machine.execLadderConvertDone ctx newer task mb s
  | .copyDone ctx newer task mb => Sys2Proof.Machine.execCopyDone ctx newer task mb s
  | .updateTensorStart ctx newer task => Sys2Proof.Machine.execUpdateTensorStart ctx newer task s
  | .updateTensorDone ctx newer task mismatch => Sys2Proof.Machine.execUpdateTensorDone ctx newer task mismatch s
  | .collectiveComplete ctx newer task mb => Sys2Proof.Machine.execCollectiveComplete ctx newer task mb s
  | .instanceComplete ctx newer task mb since => Sys2Proof.Machine.execInstanceComplete ctx newer task mb since s
  | .attemptDrained ctx newer => Sys2Proof.Machine.execAttemptDrained ctx newer s
  | .stepTimeout ctx newer => Sys2Proof.Machine.execStepTimeout ctx newer s
  | .bellBoundary => Sys2Proof.Machine.execBellBoundary s
  | .locationRetire kind key => Sys2Proof.Machine.execLocationRetire kind key s
  | .ulusilWritePacket port p data => Sys2Proof.Machine.execUlusilWritePacket port p data s
  | .writeAckPacket port p => Sys2Proof.Machine.execWriteAckPacket port p s
  | .collectiveContribution port p part => Sys2Proof.Machine.execCollectiveContribution port p part s
  | .collectiveResult port p part => Sys2Proof.Machine.execCollectiveResult port p part s
  | .abandonNotice ctx src => Sys2Proof.Machine.execAbandonNotice ctx src s
  | .abandonVote ctx src v => Sys2Proof.Machine.execAbandonVote ctx src v s
  | .abandonDecision ctx dec => Sys2Proof.Machine.execAbandonDecision ctx dec s
  | .sealVote ctx src v since => Sys2Proof.Machine.execSealVote ctx src v since s
  | .sealDecision ctx dec => Sys2Proof.Machine.execSealDecision ctx dec s
  | .reliefNotice job logical => Sys2Proof.Machine.execReliefNotice job logical s
  | .leaveNotice job logical => Sys2Proof.Machine.execLeaveNotice job logical s
  | .digestNotice src cseq => Sys2Proof.Machine.execDigestNotice src cseq s
  | .spareClaim lead job logical => Sys2Proof.Machine.execSpareClaim lead job logical s
  | .spareClaimTimeout ctx => Sys2Proof.Machine.execSpareClaimTimeout ctx s
  | .spareClaimAnswer ctx phys accepted => Sys2Proof.Machine.execSpareClaimAnswer ctx phys accepted s
  | .reliefRebuildDone job logical rebuilt snapshots => Sys2Proof.Machine.execReliefRebuildDone job logical rebuilt snapshots s
  | .spareReady ctx => Sys2Proof.Machine.execSpareReady ctx s
  | .reliefLeadTimeout ctx newLead => Sys2Proof.Machine.execReliefLeadTimeout ctx newLead s
  | .parityUpkeepDone ctx step upkeep => Sys2Proof.Machine.execParityUpkeepDone ctx step upkeep s
  | .controlPacket port p data => Sys2Proof.Machine.execControlPacket port p data s
  | .managementPacket port p data => Sys2Proof.Machine.execManagementPacket port p data s
  | .bell port num hops tk crcOk => Sys2Proof.Machine.execBell port num hops tk crcOk s
  | .heartbeat port word peerHalf crcOk => Sys2Proof.Machine.execHeartbeat port word peerHalf crcOk s
  | .ack port seq => Sys2Proof.Machine.execAck port seq s
  | .nak port seq => Sys2Proof.Machine.execNak port seq s
  | .credit port counts => Sys2Proof.Machine.execCredit port counts s
  | .portRetire port => Sys2Proof.Machine.execPortRetire port s
  | .wavelengthFail port lam => Sys2Proof.Machine.execWavelengthFail port lam s
  | .fabUnresponsive phys => Sys2Proof.Machine.execFabUnresponsive phys s
  | .trainingComplete => Sys2Proof.Machine.execTrainingComplete s
  | .trainingTimeout => Sys2Proof.Machine.execTrainingTimeout s
  | .bellLock => Sys2Proof.Machine.execBellLock s
  | .bellLockTimeout => Sys2Proof.Machine.execBellLockTimeout s
  | .leaveTimeout => Sys2Proof.Machine.execLeaveTimeout s
  | .bellHoldover => Sys2Proof.Machine.execBellHoldover s
  | .secondaryTimekeeper => Sys2Proof.Machine.execSecondaryTimekeeper s
  | .bellLost => Sys2Proof.Machine.execBellLost s
  | .crosscutMessage dir link first rest => Sys2Proof.Machine.execCrosscutMessage dir link first rest s
  | .crosscutReplayRequest dir link seq => Sys2Proof.Machine.execCrosscutReplayRequest dir link seq s
  | .crosscutLinkRetire dir link => Sys2Proof.Machine.execCrosscutLinkRetire dir link s
  | .deepResponse id ok poison data => Sys2Proof.Machine.execDeepResponse id ok poison data s
  | .deepTimeout id => Sys2Proof.Machine.execDeepTimeout id s
  | .deepLinkDown half => Sys2Proof.Machine.execDeepLinkDown half s
  | .stashMoveDone half => Sys2Proof.Machine.execStashMoveDone half s
  | .parityRepairDone ctx ok lines => Sys2Proof.Machine.execParityRepairDone ctx ok lines s
  | .scrubLine half off err => Sys2Proof.Machine.execScrubLine half off err s
  | .healthPoll events => Sys2Proof.Machine.execHealthPoll events s
  | .suspectRelease unit => Sys2Proof.Machine.execSuspectRelease unit s
  | .canaryStart unit => Sys2Proof.Machine.execCanaryStart unit s
  | .canaryResult unit pass => Sys2Proof.Machine.execCanaryResult unit pass s
  | .canaryHandoffTimeout unit => Sys2Proof.Machine.execCanaryHandoffTimeout unit s
  | .canaryRunTimeout unit => Sys2Proof.Machine.execCanaryRunTimeout unit s
  | .canaryDeferred unit => Sys2Proof.Machine.execCanaryDeferred unit s
  | .suspectCanaryDue unit => Sys2Proof.Machine.execSuspectCanaryDue unit s
  | .redfishPush sub ok => Sys2Proof.Machine.execRedfishPush sub ok s
  | .redfishRetry sub ok => Sys2Proof.Machine.execRedfishRetry sub ok s
  | .redfishRequest op arg => Sys2Proof.Machine.execRedfishRequest op arg s
  | .spdmTcpRequest req => Sys2Proof.Machine.execSpdmTcpRequest req s
  | .kernelTick half core work => Sys2Proof.Machine.execKernelTick half core work s
  | .shedWindowEnd half => Sys2Proof.Machine.execShedWindowEnd half s
  | .serviceException prio => Sys2Proof.Machine.execServiceException prio s
  | .watchdogBite core => Sys2Proof.Machine.execWatchdogBite core s
  | .coreRestartTimeout => Sys2Proof.Machine.execCoreRestartTimeout s
  | .fwRestartDone imageOk => Sys2Proof.Machine.execFwRestartDone imageOk s
  | .fwAbsent => Sys2Proof.Machine.execFwAbsent s
  | .fwAbsentFailed => Sys2Proof.Machine.execFwAbsentFailed s
  | .handover why => Sys2Proof.Machine.execHandover why s
  | .handoverDone => Sys2Proof.Machine.execHandoverDone s
  | .headframeCoreTest half core pass => Sys2Proof.Machine.execHeadframeCoreTest half core pass s
  | .supplyInRange => Sys2Proof.Machine.execSupplyInRange s
  | .classSelected coolId rise fluid => Sys2Proof.Machine.execClassSelected coolId rise fluid s
  | .domainInTolerance domain => Sys2Proof.Machine.execDomainInTolerance domain s
  | .domainToleranceTimeout domain => Sys2Proof.Machine.execDomainToleranceTimeout domain s
  | .pwrEnRise => Sys2Proof.Machine.execPwrEnRise s
  | .pwrEnFall => Sys2Proof.Machine.execPwrEnFall s
  | .powerFault => Sys2Proof.Machine.execPowerFault s
  | .thermTrip => Sys2Proof.Machine.execThermTrip s
  | .throttleStep cause half domain up => Sys2Proof.Machine.execThrottleStep cause half domain up s
  | .telemetrySample input power hottest energy hotW hotE => Sys2Proof.Machine.execTelemetrySample input power hottest energy hotW hotE s
  | .powerDownComplete => Sys2Proof.Machine.execPowerDownComplete s
  | .sensorsBelow85C => Sys2Proof.Machine.execSensorsBelow85C s
  | .hostLinkUp => Sys2Proof.Machine.execHostLinkUp s
  | .crosscutAck dir link seq => Sys2Proof.Machine.execCrosscutAck dir link seq s
  | .crosscutParityFail dir link flit => Sys2Proof.Machine.execCrosscutParityFail dir link flit s
  | .flitCrcFail port seq => Sys2Proof.Machine.execFlitCrcFail port seq s

end Sys2Proof.Machine
end

