-- ==== Sys2Proof/WellFormed.lean ====
section
/-! DEFINITION. When a command is well formed: each operand within the range of the field, index or code that the spec gives it
(R16, R20, R29, R107, R304, R308, R310, R397, R405). The meanings are total and need no command to be well formed. -/

namespace Sys2Proof

/-- An entry header: a ring set, an index, and the context field (R396, R397). -/
def Hdr.wf (h : Hdr) : Bool := decide (h.set < 4) && decide (h.index < 4096) && decide (h.ctx < 2 ^ 16)

/-- A writer of control space or guarded memory (R44). -/
def Writer.wf : Writer → Bool
  | .hub half core => decide (half < 2) && decide (core < 48)
  | .headframe core => decide (core < 4)
  | .host => true
  | .mailbox set => decide (set < 4)

/-- The payload of step.submit (R289). -/
def StepParams.wf (p : StepParams) : Bool :=
  decide (p.graph < 2 ^ 8) && decide (p.schedule < 2 ^ 8) && decide (p.nanPolicy < 2 ^ 8) && decide (p.replayMax < 2 ^ 8)
  && decide (p.mbCount < 2 ^ 16) && decide (p.step < 2 ^ 32) && decide (p.timeout < 2 ^ 32) && decide (p.startBell < 2 ^ 64)

/-- A packet header: its fields as wide as R310 gives them. -/
def Packet.wf (p : Packet) : Bool :=
  decide (p.dst < 2 ^ 14) && decide (p.dstHalf < 2) && decide (p.src < 2 ^ 14) && decide (p.srcHalf < 2) && decide (p.ldst < 2 ^ 14)
  && decide (p.vc < 4) && decide (p.type < 256) && decide (p.gen < 256) && decide (p.tag < 2 ^ 32) && decide (p.len < 128)
  && decide (p.lane < 2) && decide (p.ctx < 8)

/-- A fault names cells of a tile and ranks of the lane. -/
def TileFault.wf (f : TileFault) : Bool :=
  f.cells.all (fun q => decide (q.1 < 32) && decide (q.2.1 < 32)) && f.chk.all (fun q => decide (q.1 < 32))
  && f.strip.all (fun q => decide (q.1 < 32) && decide (q.2.1 < 32)) && f.stripChk.all (fun q => decide (q.1 < 32))
  && f.corr.all (fun q => decide (q.1 < 32) && decide (q.2.1 < 32)) && f.corrChk.all (fun q => decide (q.1 < 32))
  && f.sums.all (fun q => decide (q.1 < 32) && decide (q.2.1 < 32))

open Sys2Proof.Machine in
/-- A command is well formed. -/
def Instr.wf : Instr → Bool
  | .sessHello h verMin verMax graceS => h.wf && decide (verMin < 2 ^ 16) && decide (verMax < 2 ^ 16) && decide (graceS < 2 ^ 16)
  | .sessBye h mode => h.wf && decide (mode < 2 ^ 8)
  | .sessAdopt h _ => h.wf
  | .sessReset h level force => h.wf && decide (level < 2 ^ 8) && decide (force < 2 ^ 8)
  | .sessSpdm h req reqBytes rsp rspMax => h.wf && decide (req < 2 ^ 64) && decide (reqBytes < 2 ^ 16) && decide (rsp < 2 ^ 64) && decide (rspMax < 2 ^ 16)
  | .ctxOpen h => h.wf
  | .ctxClose h => h.wf
  | .ctxSnapshot h buf max => h.wf && decide (buf < 2 ^ 64) && decide (max < 2 ^ 32)
  | .ctxRestore h buf bytes phase => h.wf && decide (buf < 2 ^ 64) && decide (bytes < 2 ^ 32) && decide (phase < 2 ^ 8)
  | .ctxQuery h => h.wf
  | .memAlloc h bytes half hint flags => h.wf && decide (bytes < 2 ^ 64) && decide (half < 2 ^ 8) && decide (hint < 2 ^ 16) && decide (flags < 2 ^ 8)
  | .memFree h dpa => h.wf && decide (dpa < 2 ^ 64)
  | .memHint h dpa hint => h.wf && decide (dpa < 2 ^ 64) && decide (hint < 2 ^ 16)
  | .memQuota h ctx half hbm deep => h.wf && decide (ctx < 2 ^ 16) && decide (half < 2 ^ 8) && decide (hbm < 2 ^ 32) && decide (deep < 2 ^ 32)
  | .memQuery h ctx => h.wf && decide (ctx < 2 ^ 16)
  | .memAssign h kind op half first count => h.wf && decide (kind < 2 ^ 8) && decide (op < 2 ^ 8) && decide (half < 2 ^ 8) && decide (first < 2 ^ 16) && decide (count < 2 ^ 16)
  | .graphLoad h image => h.wf && decide (image < 2 ^ 64)
  | .graphUnload h graph => h.wf && decide (graph < 2 ^ 8)
  | .stepSubmit h p => h.wf && p.wf
  | .stepAbort h step => h.wf && decide (step < 2 ^ 32)
  | .stepQuery h step => h.wf && decide (step < 2 ^ 32)
  | .kvCreate h seqRec ptPtr statsPtr ptEntries initLen poolId hq flags => h.wf && decide (seqRec < 2 ^ 64) && decide (ptPtr < 2 ^ 64) && decide (statsPtr < 2 ^ 64) && decide (ptEntries < 2 ^ 32) && decide (initLen < 2 ^ 32) && decide (poolId < 2 ^ 16) && decide (hq < 2 ^ 16) && decide (flags < 2 ^ 16)
  | .kvSwap h seqRec ptPtr ptEntries expGen => h.wf && decide (seqRec < 2 ^ 64) && decide (ptPtr < 2 ^ 64) && decide (ptEntries < 2 ^ 32) && decide (expGen < 2 ^ 32)
  | .kvSet h seqRec index _ expGen => h.wf && decide (seqRec < 2 ^ 64) && decide (index < 2 ^ 32) && decide (expGen < 2 ^ 32)
  | .kvRelease h seqRec expGen => h.wf && decide (seqRec < 2 ^ 64) && decide (expGen < 2 ^ 32)
  | .kvQuery h seqRec => h.wf && decide (seqRec < 2 ^ 64)
  | .fabJoin h fabric phys dx dy dz dw period tk1 tk2 fabClass => h.wf && decide (fabric < 2 ^ 32) && decide (phys < 2 ^ 16) && decide (dx < 2 ^ 8) && decide (dy < 2 ^ 8) && decide (dz < 2 ^ 8) && decide (dw < 2 ^ 8) && decide (period < 2 ^ 8) && decide (tk1 < 2 ^ 16) && decide (tk2 < 2 ^ 16) && decide (fabClass < 3)
  | .fabLeave h => h.wf
  | .fabBind h job logical group0 count => h.wf && decide (job < 2 ^ 32) && decide (logical < 2 ^ 16) && decide (group0 < 2 ^ 64) && decide (count < 2 ^ 16)
  | .fabGroup h group table => h.wf && decide (group < 2 ^ 8) && decide (table < 2 ^ 64)
  | .fabQuery h => h.wf
  | .reliefArm h ring spares snapExtents => h.wf && decide (ring < 2 ^ 64) && decide (spares < 2 ^ 64) && decide (snapExtents < 2 ^ 32)
  | .reliefSpare h offer => h.wf && decide (offer < 2 ^ 8)
  | .reliefStart h logical => h.wf && decide (logical < 2 ^ 16)
  | .reliefQuery h => h.wf
  | .hltRead h unit buf => h.wf && decide (unit < 2 ^ 16) && decide (buf < 2 ^ 64)
  | .logRead h first count buf => h.wf && decide (first < 2 ^ 32) && decide (count < 2 ^ 32) && decide (buf < 2 ^ 64)
  | .logClear h expEpoch => h.wf && decide (expEpoch < 2 ^ 16)
  | .hltCanary h unit => h.wf && decide (unit < 2 ^ 16)
  | .hltSticky h index _ => h.wf && decide (index < 2 ^ 8)
  | .hltQuery h => h.wf
  | .cfgStage h list count => h.wf && decide (list < 2 ^ 64) && decide (count < 2 ^ 16)
  | .cfgCommitCmd h group => h.wf && decide (group < 2 ^ 16)
  | .cfgOverlay h overlay => h.wf && decide (overlay < 2 ^ 8)
  | .cfgQuery h group half => h.wf && decide (group < 2 ^ 16) && decide (half < 2 ^ 8)
  | .pwrLimit h kind value => h.wf && decide (kind < 2 ^ 8) && decide (value < 2 ^ 32)
  | .pwrQuery h => h.wf
  | .pwrTelemetry h period buf => h.wf && decide (period < 2 ^ 32) && decide (buf < 2 ^ 64)
  | .opcodeInvalid h opcode => h.wf && decide (opcode < 2 ^ 16) && decide (assignedOpcode opcode = false)
  | .cmdTailDoorbell set tail => decide (set < 4) && decide (tail < 2 ^ 32)
  | .ringEnableWrite set _ => decide (set < 4)
  | .eventRingEnableWrite _ => true
  | .loadStart => true
  | .loadGo => true
  | .loadAbort => true
  | .imageVerifyDone _ keyHash minSvn => decide (keyHash < 2 ^ 384) && decide (minSvn < 2 ^ 32)
  | .baseConfigLoad => true
  | .startTimeout => true
  | .hostHeartbeatWrite _ => true
  | .hostHeartbeatLost => true
  | .orphanGraceExpiry => true
  | .hotReset => true
  | .flr => true
  | .hostLinkDown => true
  | .hostWavelengthLoss lam => decide (lam < 8)
  | .bar2Read off bytes => decide (off < 2 ^ 36) && decide (0 < bytes)
  | .bar2Write off data => decide (off < 2 ^ 36) && decide (data ≠ [])
  | .eventDeliver => true
  | .rcCounterRead die off => decide (die < 40 ∨ die = 64) && decide (off % 4 = 0) && decide (off < 2 ^ 32)
  | .belNowRead die _ => decide (die < 40)
  | .hifBellRead => true
  | .stickyClearWrite w index _ => w.wf && decide (index < 4)
  | .registerWrite w die off _ => w.wf && decide (die < 40) && decide (off % 4 = 0) && decide (off < 2 ^ 32)
  | .hubAccessFault half core _ kind => decide (half < 2) && decide (core < 48) && decide (kind < 3)
  | .guardedStore w _ data => w.wf && decide (data ≠ [])
  | .hubEvictedAccess half core access _ => decide (half < 2) && decide (core < 48) && decide (access.kind < 3)
  | .cfgCommitWrite w half _ => w.wf && decide (half < 2)
  | .tlyPortGo half core _ => decide (half < 2) && decide (core < 48)
  | .tallyDrawDone half core _ => decide (half < 2) && decide (core < 48)
  | .kvPortSwap half core => decide (half < 2) && decide (core < 48)
  | .kvPortSet half core => decide (half < 2) && decide (core < 48)
  | .kvPortOpDone half core => decide (half < 2) && decide (core < 48)
  | .hubDoneWrite half core _ => decide (half < 2) && decide (core < 48)
  | .dbcDoorbell w half _ => w.wf && decide (half < 2)
  | .dbcMaskSet w half _ => w.wf && decide (half < 2)
  | .dbcMaskClr w half _ => w.wf && decide (half < 2)
  | .dbcPendSet w half _ => w.wf && decide (half < 2)
  | .dbcPendClr w half _ => w.wf && decide (half < 2)
  | .dbcEoi half target _ => decide (half < 2) && decide (target < 52)
  | .doorbellDispatch half => decide (half < 2)
  | .instanceAdmit ctx _ task mb => decide (ctx < 8) && decide (task < 65536) && decide (mb < 256)
  | .pageExhausted ctx _ task mb => decide (ctx < 8) && decide (task < 65536) && decide (mb < 256)
  | .hbmAdmitDeadline ctx _ task mb => decide (ctx < 8) && decide (task < 65536) && decide (mb < 256)
  | .sliceIssue die cluster core => decide (die < 16) && decide (cluster < 4) && decide (core < 9)
  | .fTileDrain die cluster core _ f => decide (die < 16) && decide (cluster < 4) && decide (core < 9) && f.wf
  | .bTileDrain die cluster core eng _ f => decide (die < 16) && decide (cluster < 4) && decide (core < 9) && decide (eng < 2) && f.wf
  | .tileReplay die cluster core _ f => decide (die < 16) && decide (cluster < 4) && decide (core < 9) && f.wf
  | .foreignTileRun die cluster core eng f => decide (die < 16) && decide (cluster < 4) && decide (core < 9) && decide (eng < 2) && f.wf
  | .vuGroupDone die cluster core _ fail => decide (die < 16) && decide (cluster < 4) && decide (core < 9) && decide (fail < 5)
  | .sliceComplete die cluster core => decide (die < 16) && decide (cluster < 4) && decide (core < 9)
  | .spareHandoff die cluster slot => decide (die < 16) && decide (cluster < 4) && decide (slot < 8)
  | .coreMapOut die cluster core => decide (die < 16) && decide (cluster < 4) && decide (core < 9)
  | .ladderConvertDone ctx _ task mb => decide (ctx < 8) && decide (task < 65536) && decide (mb < 256)
  | .copyDone ctx _ task mb => decide (ctx < 8) && decide (task < 65536) && decide (mb < 256)
  | .updateTensorStart ctx _ task => decide (ctx < 8) && decide (task < 65536)
  | .updateTensorDone ctx _ task _ => decide (ctx < 8) && decide (task < 65536)
  | .collectiveComplete ctx _ task mb => decide (ctx < 8) && decide (task < 65536) && decide (mb < 256)
  | .instanceComplete ctx _ task mb _ => decide (ctx < 8) && decide (task < 65536) && decide (mb < 256)
  | .attemptDrained ctx _ => decide (ctx < 8)
  | .stepTimeout ctx _ => decide (ctx < 8)
  | .bellBoundary => true
  | .locationRetire kind _ => decide (kind < 2)
  | .ulusilWritePacket port p _ => decide (port < 48) && p.wf
  | .writeAckPacket port p => decide (port < 48) && p.wf
  | .collectiveContribution port p _ => decide (port < 48) && p.wf
  | .collectiveResult port p _ => decide (port < 48) && p.wf
  | .abandonNotice ctx src => decide (ctx < 8) && decide (src < 2 ^ 14)
  | .abandonVote ctx src _ => decide (ctx < 8) && decide (src < 2 ^ 14)
  | .abandonDecision ctx _ => decide (ctx < 8)
  | .sealVote ctx src _ _ => decide (ctx < 8) && decide (src < 2 ^ 14)
  | .sealDecision ctx _ => decide (ctx < 8)
  | .reliefNotice job logical => decide (job < 2 ^ 32) && decide (logical < 2 ^ 14)
  | .leaveNotice job logical => decide (job < 2 ^ 32) && decide (logical < 2 ^ 14)
  | .digestNotice src cseq => decide (src < 2 ^ 14) && decide (cseq < 2 ^ 32)
  | .spareClaim lead job logical => decide (lead < 2 ^ 14) && decide (job < 2 ^ 32) && decide (logical < 2 ^ 14)
  | .spareClaimTimeout ctx => decide (ctx < 8)
  | .spareClaimAnswer ctx phys _ => decide (ctx < 8) && decide (phys < 2 ^ 14)
  | .reliefRebuildDone job logical _ _ => decide (job < 2 ^ 32) && decide (logical < 2 ^ 14)
  | .spareReady ctx => decide (ctx < 8)
  | .reliefLeadTimeout ctx newLead => decide (ctx < 8) && decide (newLead < 2 ^ 14)
  | .parityUpkeepDone ctx step _ => decide (ctx < 8) && decide (step < 2 ^ 32)
  | .controlPacket port p _ => decide (port < 48) && p.wf
  | .managementPacket port p _ => decide (port < 48) && p.wf
  | .bell port num hops tk _ => decide (port < 48) && decide (num < 2 ^ 48) && decide (hops < 256) && decide (tk < 2 ^ 14)
  | .heartbeat port _ peerHalf _ => decide (port < 48) && decide (peerHalf < 2)
  | .ack port seq => decide (port < 48) && decide (seq < 4096)
  | .nak port seq => decide (port < 48) && decide (seq < 4096)
  | .credit port counts => decide (port < 48) && decide (counts.length = 8)
  | .portRetire port => decide (port < 48)
  | .wavelengthFail port lam => decide (port < 48) && decide (lam < 8)
  | .fabUnresponsive phys => decide (phys < 2 ^ 14)
  | .trainingComplete => true
  | .trainingTimeout => true
  | .bellLock => true
  | .bellLockTimeout => true
  | .leaveTimeout => true
  | .bellHoldover => true
  | .secondaryTimekeeper => true
  | .bellLost => true
  | .crosscutMessage dir link first rest => decide (dir < 2) && decide (link < 32) && (first :: rest).all (fun f => f.words.length = 16)
  | .crosscutReplayRequest dir link seq => decide (dir < 2) && decide (link < 32) && decide (seq < 4096)
  | .crosscutLinkRetire dir link => decide (dir < 2) && decide (link < 32)
  | .deepResponse _ _ _ _ => true
  | .deepTimeout _ => true
  | .deepLinkDown half => decide (half < 2)
  | .stashMoveDone half => decide (half < 2)
  | .parityRepairDone ctx _ _ => decide (ctx < 8)
  | .scrubLine half _ err => decide (half < 2) && decide (err < 3)
  | .healthPoll _ => true
  | .suspectRelease unit => decide (unit < 2 ^ 16)
  | .canaryStart unit => decide (unit < 2 ^ 16)
  | .canaryResult unit _ => decide (unit < 2 ^ 16)
  | .canaryHandoffTimeout unit => decide (unit < 2 ^ 16)
  | .canaryRunTimeout unit => decide (unit < 2 ^ 16)
  | .canaryDeferred unit => decide (unit < 2 ^ 16)
  | .suspectCanaryDue unit => decide (unit < 2 ^ 16)
  | .redfishPush _ _ => true
  | .redfishRetry _ _ => true
  | .redfishRequest op _ => decide (op < 6)
  | .spdmTcpRequest _ => true
  | .kernelTick half core work => decide (half < 2) && decide (core < 4) && decide (work.length = 9)
  | .shedWindowEnd half => decide (half < 2)
  | .serviceException prio => decide (1 ≤ prio) && decide (prio ≤ 9)
  | .watchdogBite core => decide (core < 4)
  | .coreRestartTimeout => true
  | .fwRestartDone _ => true
  | .fwAbsent => true
  | .fwAbsentFailed => true
  | .handover why => decide (why < 3)
  | .handoverDone => true
  | .headframeCoreTest half core _ => decide (half < 2) && decide (core < 4)
  | .supplyInRange => true
  | .classSelected coolId _ _ => decide (coolId < 4)
  | .domainInTolerance domain => decide (domain < 30)
  | .domainToleranceTimeout domain => decide (domain < 30)
  | .pwrEnRise => true
  | .pwrEnFall => true
  | .powerFault => true
  | .thermTrip => true
  | .throttleStep cause half domain _ => decide (cause < 4) && decide (half < 2) && decide (domain < 30)
  | .telemetrySample _ _ _ _ _ _ => true
  | .powerDownComplete => true
  | .sensorsBelow85C => true
  | .hostLinkUp => true
  | .crosscutAck dir link seq => decide (dir < 2) && decide (link < 32) && decide (seq < 4096)
  | .crosscutParityFail dir link flit => decide (dir < 2) && decide (link < 32) && flit.words.length = 16
  | .flitCrcFail port seq => decide (port < 48) && decide (seq < 4096)

end Sys2Proof
end

