-- ==== Sys2Proof/Safety.lean ====
section
/-! DEFINITION. The terms in which claims speak of the block: when the mailbox service takes and passes an entry, when
nothing waits, what two devices share, and the invariant that every step keeps. -/

namespace Sys2Proof.Machine

/-! ## Entries that the mailbox service takes and passes (R398, R404) -/

/-- The service takes the entry now, no reserved byte of it is set, and IDEMPOTENT stands only where `idem` allows it. -/
def Dev.takesClean (d : Dev) (h : Hdr) (idem : Bool) : Prop :=
  d.takes h = true ∧ h.rsvd = false ∧ (h.idem = true → idem = true)

/-- An entry of a session that names no context. -/
def Dev.inSession (d : Dev) (h : Hdr) (idem : Bool) : Prop :=
  d.takesClean h idem ∧ (d.ring h.set).session = true ∧ h.ctx = 0xFFFF

/-- An entry of a session that names a context of its own. -/
def Dev.inContext (d : Dev) (h : Hdr) (idem : Bool) : Prop :=
  d.takesClean h idem ∧ (d.ring h.set).session = true ∧ h.ctx < 8 ∧ (d.ctx h.ctx).isOpen = true
  ∧ (d.ctx h.ctx).orphaned = false ∧ (d.ctx h.ctx).owner = some h.set

/-- An entry of a session that owns no context (R404). -/
def Dev.inFreeSession (d : Dev) (h : Hdr) (idem : Bool) : Prop := d.inSession h idem ∧ d.ownsCtx h.set = false

/-- No command and no port operation waits and no context closes, so that nothing follows a command but its own effect. -/
def Dev.calm (d : Dev) : Prop :=
  d.host.inflight = [] ∧ (∀ p, p ∈ d.hubs → p.2.kvWait = 0) ∧ ∀ c, c < 8 → (d.ctx c).closing = false

/-! ## Packets (R306 to R310) -/

/-- A packet of a type arrives whole on a port that carries traffic, and this device is its destination. -/
def Dev.delivers (d : Dev) (port type : Nat) (k : Packet) : Prop :=
  d.linkOn port = true ∧ k.type = type ∧ k.rsv = false ∧ 0 < k.len ∧ k.len ≤ 64 ∧ k.dst = d.fab.phys
  ∧ d.physOf k.ldst = some d.fab.phys

/-! ## The answer -/

/-- The answer of an entry that completes: the completion goes to its ring set, and what waits has another turn. -/
def Dev.completed (d : Dev) (h : Hdr) (st : Status) (ws : List Nat) : Dev := (d.answer h false st ws).settle

/-! ## The invariant -/

/-- What every step keeps: the byte memories have their canonical form, the bell count has 48 bits, the host interface, the
fabric and the power sequencer are in one of their states, and the pit log holds at most its capacity in an epoch of 15 bits
(R315, R332, R377, R379, R394, R478). -/
def Dev.Inv (d : Dev) : Prop :=
  d.mem.wf = true ∧ d.hostMem.wf = true ∧ d.host.staging.wf = true ∧ d.bell < 2 ^ 48 ∧ d.host.state ≤ 7 ∧ d.fab.state ≤ 6
  ∧ d.pwr.phase ≤ 7 ∧ d.log.records.length ≤ 32768 ∧ d.log.epoch < 32768

end Sys2Proof.Machine
end

