-- ==== Sys2Proof/Certificates/Slice0/Obligations.lean ====
section
/-! DEFINITION. The statements for the provers. A mailbox command that completes answers `Dev.completed` of what its own
effect leaves: its completion entry is posted and the commands that wait have another turn. `s.dev.take h` is the device once
the entry is taken. -/

open Sys2Proof Sys2Proof.Machine

/-! ## The queue -/

/-- The step takes the command at the front of the queue and runs it with the queue's rest. -/
def Obligations.StepRunsFront : Prop :=
  (∀ (c : Instr) (r : List Instr) (s : State), step { s with pending := c :: r } = exec c { s with pending := r })
  ∧ (∀ (s : State), s.pending = [] → step s = .next s)

/-- No command stops and none touches the queue. -/
def Obligations.EveryCommandAnswers : Prop :=
  ∀ (i : Instr) (s : State), ∃ t, exec i s = .next t ∧ t.pending = s.pending

/-! ## Sessions and contexts (R401, R402, R408 to R411) -/

/-- sess.hello, sess.bye, sess.adopt, sess.reset and sess.spdm, each where it completes; sess.bye with HANDOVER orphans the
session's contexts with cause 5 (R401, R402, R407, R411). -/
def Obligations.SessionCommands : Prop :=
  (∀ (s : State) (h : Hdr) (vmin vmax grace : Nat), s.dev.takesClean h false → h.ctx = 0xFFFF →
    (s.dev.ring h.set).session = false → vmin ≤ 1 → 1 ≤ vmax → (grace = 0 ∨ (5 ≤ grace ∧ grace ≤ 600)) →
    let d := s.dev.take h
    let d1 := d.setRing h.set { d.ring h.set with session := true }
    let d2 := Dev.hostState { d1 with host := { d1.host with grace := if grace = 0 then d1.host.grace else grace } } 6
    exec (.sessHello h vmin vmax grace) s
      = .next { s with dev := d2.completed h St.ok [1, h.set, d.host.fwVersion.toNat] })
  ∧ (∀ (s : State) (h : Hdr), s.dev.inFreeSession h false →
    exec (.sessBye h 0) s = .next { s with dev := ((s.dev.take h).endSession h.set).completed h St.ok [0] })
  ∧ (∀ (s : State) (h : Hdr), s.dev.takesClean h false → (s.dev.ring h.set).session = true → h.ctx < 8 →
    (s.dev.ctx h.ctx).isOpen = true → (s.dev.ctx h.ctx).orphaned = true → (s.dev.ctx h.ctx).closing = false →
    let d := (s.dev.take h).updCtx h.ctx (fun x => { x with orphaned := false, owner := some h.set })
    let d1 := if d.anyOrphan then d else Dev.fire { d with host := { d.host with orphanCause := 0, orphanUs := 0 } } 1
    exec (.sessAdopt h (s.dev.ctx h.ctx).token) s
      = .next { s with dev := d1.completed h St.ok [d1.onsWord h.ctx 0x04, (d1.ctx h.ctx).stepCnt] })
  ∧ (∀ (s : State) (h : Hdr) (force : Nat), s.dev.inSession h false → s.dev.anyBound = false → force ≤ 1 →
    exec (.sessReset h 1 force) s = .next { s with dev := ((s.dev.take h).answer h false St.ok []).deviceReset.settle })
  ∧ (∀ (s : State) (h : Hdr) (req n rsp room : Nat), s.dev.inSession h false → 4 ≤ n → n ≤ 4096 →
    let d := s.dev.take h
    let m := d.fw.spdmMbx ++ [d.hostMem.readBytes req n]
    let a := Config.spdmAnswer (d.measuredMsg :: m)
    let d1 : Dev := { d with fw := { d.fw with spdmMbx := m } }
    exec (.sessSpdm h req n rsp room) s = .next { s with
      dev := if a.length ≤ room ∧ a.length ≤ 4096 then (d1.storeHost rsp a).completed h St.ok [a.length]
        else d1.completed h St.spdmTransport [] })
  ∧ (∀ (s : State) (h : Hdr), s.dev.inSession h false → s.dev.ownsCtx h.set = true →
    ∃ d : Dev, exec (.sessBye h 1) s = .next { s with dev := d.completed h St.ok [(s.dev.sessionCtxs h.set).length] }
      ∧ (∀ c, c ∈ s.dev.sessionCtxs h.set → (d.ctx c).orphaned = true ∧ (d.ctx c).owner = none)
      ∧ (d.ring h.set).session = false ∧ d.host.orphanCause = 5)

/-- What a device reset leaves: UNLOADED, no context, no session and no command, while memory, the pit log, the bell count
and the units' histories stay (R388, R394, R402). -/
def Obligations.DeviceResetLeaves : Prop :=
  ∀ (d : Dev), d.deviceReset.host.state = 0 ∧ d.deviceReset.ctxs = [] ∧ d.deviceReset.host.rings = []
    ∧ d.deviceReset.host.inflight = [] ∧ d.deviceReset.insts = [] ∧ d.deviceReset.allocs = []
    ∧ d.deviceReset.mem = d.mem ∧ d.deviceReset.poison = d.poison ∧ d.deviceReset.log = d.log
    ∧ d.deviceReset.bell = d.bell ∧ d.deviceReset.health.hist = d.health.hist ∧ d.deviceReset.health.sticky = d.health.sticky
    ∧ d.deviceReset.clusters = d.clusters

/-- ctx.open, ctx.close, ctx.snapshot, ctx.restore and ctx.query, each where it completes. -/
def Obligations.ContextCommands : Prop :=
  (∀ (s : State) (h : Hdr) (c : Nat), s.dev.inSession h false → c < 8 → (s.dev.ctx c).isOpen = false →
    (∀ k, k < c → (s.dev.ctx k).isOpen = true) →
    let d := s.dev.take h
    let t := Config.token d.free
    exec (.ctxOpen h) s = .next { s with
      dev := ((d.drawn.setCtx c { isOpen := true, owner := some h.set, token := t }).initSources c).completed h St.ok [c, t.toNat] })
  ∧ (∀ (s : State) (h : Hdr), s.dev.inContext h false → (s.dev.ctx h.ctx).older = none →
    let d := (s.dev.take h).startClose h.ctx
    d.mayClose h.ctx = true →
    exec (.ctxClose h) s = .next { s with dev := (d.closeCtx h.ctx).settleHost.completed h St.ok [] })
  ∧ (∀ (s : State) (h : Hdr) (buf room : Nat), s.dev.inContext h false → s.dev.atBoundary h.ctx = true →
    let d := s.dev.take h
    let b := (d.snapshot h.ctx).take room
    exec (.ctxSnapshot h buf room) s = .next { s with dev := (d.storeHost buf b).completed h St.ok [b.length] })
  ∧ (∀ (s : State) (h : Hdr) (buf bytes : Nat), s.dev.inContext h false → (s.dev.ctx h.ctx).older = none →
    let d := s.dev.take h
    let rd : Reader := fun o n => d.hostMem.readLE (buf + o) n
    let d0 := (d.closeCtx h.ctx).setCtx h.ctx { d.ctx h.ctx with graphs := [], poisonCount := 0, repairs := [], restored := true }
    snapReadable rd bytes = true → (snapAllocs rd h.ctx).any d0.restoreClash = false →
    (∀ k half, k < 2 → half < 2 → d.restoreTaken rd h.ctx k half = false) →
    ∃ d1 : Dev, exec (.ctxRestore h buf bytes 0) s = .next { s with dev := d1.completed h St.ok [(snapAllocs rd h.ctx).length] }
      ∧ d1.allocs = d0.allocs ++ snapAllocs rd h.ctx)
  ∧ (∀ (s : State) (h : Hdr), s.dev.inContext h true →
    let d := s.dev.take h
    exec (.ctxQuery h) s = .next { s with
      dev := d.completed h St.ok [h.set, d.onsWord h.ctx 0x04, (d.ctx h.ctx).stepCnt, (d.ctx h.ctx).reliefWord 0] })

/-! ## Memory (R237 to R241, R493) -/

/-- mem.alloc in the HBM of one half, with HBM_PINNED or HBM_EVICTABLE, where quota and free extents suffice (R237, R238). -/
def Obligations.AllocGivesExtents : Prop :=
  ∀ (s : State) (h : Hdr) (bytes half hint flags : Nat), s.dev.inContext h false → 0 < bytes → half < 2 →
    (hint = 2 ∨ hint = 3) → flags ≤ 1 → s.dev.halfOn half = true →
    let n := ceilDiv bytes (2 ^ 21)
    s.dev.hbmUsed h.ctx half + n ≤ at' (s.dev.ctx h.ctx).hbmQuota half 0 → n ≤ s.dev.freeHbm half →
    s.dev.freeBases false [half] n ≠ [] →
    ∃ (i : Nat) (d : Dev), i ∈ s.dev.freeBases false [half] n
      ∧ exec (.memAlloc h bytes half hint flags) s
        = .next { s with dev := d.completed h St.ok (twoWords (half * 2 ^ 47 + i * 2 ^ 21)) }
      ∧ d.allocs = s.dev.allocs ++ [{ ctx := h.ctx, base := half * 2 ^ 47 + i * 2 ^ 21, extents := n, hint := hint,
                                      parity := bit flags 0, both := false }]
      ∧ d.mem = s.dev.mem ∧ d.hostMem = s.dev.hostMem ∧ d.ctxs = s.dev.ctxs

/-- mem.free of what no admitted task holds, mem.hint with HBM_EVICTABLE, mem.query, mem.assign and mem.quota, which is refused
where pinned or deep extents exceed the new quota and otherwise, where the use meets it, set (R238, R241, R493). -/
def Obligations.MemoryCommands : Prop :=
  (∀ (s : State) (h : Hdr) (dpa : Nat), s.dev.inContext h false → s.dev.allocsAt h.ctx dpa ≠ [] →
    (∀ a, a ∈ s.dev.allocsAt h.ctx dpa → a.exts.any s.dev.heldExt = false) →
    ∃ d : Dev, exec (.memFree h dpa) s = .next { s with dev := d.completed h St.ok [] }
      ∧ (∀ a, a ∈ d.allocs ↔ a ∈ s.dev.allocs ∧ a ∉ s.dev.allocsAt h.ctx dpa) ∧ d.mem = s.dev.mem)
  ∧ (∀ (s : State) (h : Hdr) (dpa : Nat), s.dev.inContext h false → s.dev.allocsAt h.ctx dpa ≠ [] →
    (∀ a, a ∈ s.dev.allocsAt h.ctx dpa → tierOf a.base = 0) →
    exec (.memHint h dpa 3) s
      = .next { s with dev := ((s.dev.take h).setHint (s.dev.allocsAt h.ctx dpa) 3).completed h St.ok [] })
  ∧ (∀ (s : State) (h : Hdr) (c : Nat), s.dev.inSession h true → s.dev.mayQuota h.set c = true →
    ∃ gone : Nat, exec (.memQuery h c) s = .next { s with
      dev := (s.dev.take h).completed h St.ok [s.dev.hbmUsed c 0, s.dev.hbmUsed c 1, s.dev.deepUsed c, gone] })
  ∧ (∀ (s : State) (h : Hdr) (kind half first count : Nat), s.dev.inContext h false → kind ≤ 1 → half < 2 → 0 < count →
    first + count ≤ (if kind = 0 then 4096 else 256) → s.dev.halfOn half = true →
    (∀ n, first ≤ n → n < first + count → s.dev.ownerOf kind half n = none) →
    ∃ d : Dev, exec (.memAssign h kind 0 half first count) s = .next { s with dev := d.completed h St.ok [count] }
      ∧ (∀ n, first ≤ n → n < first + count → d.ownerOf kind half n = some h.ctx)
      ∧ d.mem = s.dev.mem ∧ d.ctxs = s.dev.ctxs)
  ∧ (∀ (s : State) (h : Hdr) (c half hbm deep : Nat), s.dev.inSession h false → s.dev.mayQuota h.set c = true → half < 2 →
    (hbm < s.dev.pinnedExts c half ∨ deep < (s.dev.ctxExtents c true 0).length) →
    exec (.memQuota h c half hbm deep) s = .next { s with dev := (s.dev.take h).completed h St.quotaExceeded [] })
  ∧ (∀ (s : State) (h : Hdr) (c half hbm deep : Nat), s.dev.inSession h false → s.dev.mayQuota h.set c = true → half < 2 →
    s.dev.pinnedExts c half ≤ hbm → (s.dev.ctxExtents c true 0).length ≤ deep → s.dev.residentExts c half ≤ hbm →
    s.dev.deepUsed c ≤ deep →
    ∃ d : Dev, exec (.memQuota h c half hbm deep) s = .next { s with dev := d.completed h St.ok [] }
      ∧ (d.ctx c).hbmQuota = setAt (s.dev.ctx c).hbmQuota half hbm ∧ (d.ctx c).deepQuota = deep
      ∧ d.allocs = s.dev.allocs ∧ d.mem = s.dev.mem)

/-! ## Graphs and steps (R279, R281, R289, R293, R300) -/

/-- graph.load of an image that passes every check, and graph.unload of a graph that no step holds. -/
def Obligations.GraphCommands : Prop :=
  (∀ (s : State) (h : Hdr) (image : Nat), s.dev.inContext h false → s.dev.graphFail h.ctx image = none →
    let gid := (s.dev.ctx h.ctx).freeGraph
    exec (.graphLoad h image) s = .next { s with
      dev := ((s.dev.take h).updCtx h.ctx (fun x => { x with graphs := x.graphs ++ [{ gid := gid, image := image }] })).completed h St.ok [gid] })
  ∧ (∀ (s : State) (h : Hdr) (image : Nat) (st : Status), s.dev.inContext h false → s.dev.graphFail h.ctx image = some st →
    exec (.graphLoad h image) s = .next { s with dev := (s.dev.take h).completed h st [] })
  ∧ (∀ (s : State) (h : Hdr) (gid : Nat), s.dev.inContext h false → ((s.dev.ctx h.ctx).graph? gid).isSome = true →
    s.dev.graphHeld h.ctx gid = false →
    exec (.graphUnload h gid) s = .next { s with
      dev := ((s.dev.take h).updCtx h.ctx (fun x => { x with graphs := x.graphs.filter (fun g => g.gid ≠ gid) })).completed h St.ok [] })
  ∧ (∀ (s : State) (h : Hdr) (gid : Nat), s.dev.inContext h false → ((s.dev.ctx h.ctx).graph? gid).isSome = true →
    s.dev.graphHeld h.ctx gid = true →
    exec (.graphUnload h gid) s = .next { s with dev := (s.dev.take h).completed h St.graphBusy [] })

/-- step.submit with 1F1B on an idle context, step.abort of a step that has not started, and step.query. -/
def Obligations.StepCommands : Prop :=
  (∀ (s : State) (h : Hdr) (p : StepParams) (g : GraphHdr), s.dev.inContext h false → p.nanPolicy ≤ 2 →
    (p.replayMax ≤ 7 ∨ p.replayMax = 0xFF) → p.startBell < 2 ^ 48 → s.dev.stepGraph h.ctx p.graph = some g →
    s.dev.sameStep h.ctx p = false → (s.dev.ctx h.ctx).relief.state ≠ 5 → p.schedule = 2 → 0 < p.mbCount → p.mbCount ≤ g.mbMax →
    (s.dev.ctx h.ctx).older = none → (s.dev.ctx h.ctx).newer = none →
    p.step = ((s.dev.ctx h.ctx).stepCnt + 1) % 2 ^ 32 →
    let r : StepRun := { p := p, startBell := if p.startBell = 0 then s.dev.bell + 1 else p.startBell }
    exec (.stepSubmit h p) s = .next { s with
      dev := ((s.dev.take h).setCtx h.ctx { s.dev.ctx h.ctx with
        older := some r, submits := (s.dev.ctx h.ctx).submits ++ [p] }).completed h St.ok [p.step] })
  ∧ (∀ (s : State) (h : Hdr) (r : StepRun), s.dev.inContext h false → (s.dev.ctx h.ctx).older = some r → r.state = 1 →
    exec (.stepAbort h r.p.step) s = .next { s with
      dev := ((s.dev.take h).endStep h.ctx false St.stepAborted).completed h St.ok [St.stepAborted.toNat] })
  ∧ (∀ (s : State) (h : Hdr) (step : Nat), s.dev.inContext h true → (s.dev.ctx h.ctx).older = none →
    exec (.stepQuery h step) s = .next { s with
      dev := (s.dev.take h).completed h St.ok
        [(s.dev.take h).onsWord h.ctx 0x04, (s.dev.ctx h.ctx).stepCnt, (s.dev.ctx h.ctx).lastStatus.toNat, 0] })

/-! ## KV sequences and the KV port (R207, R218, R220, R222, R229, R233) -/

/-- kv.create, kv.swap, kv.set, kv.release and kv.query, each where it completes; a swap, a set or a release whose expected
generation is not the record's changes nothing and answers PT_GENERATION (R218, R220, R229). -/
def Obligations.KvCommands : Prop :=
  (∀ (s : State) (h : Hdr) (a pt stats entries len pool hq flags : Nat), s.dev.inContext h false → (flags = 0 ∨ flags = 2) →
    s.dev.seqs.contains a = false → s.dev.guard? a 64 = none → s.dev.createBad h.ctx a pt stats pool hq = false →
    s.dev.checkTable (halfOf a) pool pt entries none = St.ok → len ≤ 16 * entries →
    let r : SeqRec := {
      ptPtr := pt, gen := 0, ptEntries := entries, committedLen := len, provLen := len, pool := pool,
      flags := 1 + flag (bit flags 1) 1, hq := hq, ctx := h.ctx, statsPtr := stats, lastBell := 0, walks := 0 }
    let d := ((s.dev.take h).putSeq a r).shareTable (halfOf a) pool pt entries
    exec (.kvCreate h a pt stats entries len pool hq flags) s
      = .next { s with dev := Dev.completed { d with seqs := insertNat d.seqs a } h St.ok [0] })
  ∧ (∀ (s : State) (h : Hdr) (a pt entries gen : Nat), s.dev.inContext h false → s.dev.seqMine h.ctx a = true →
    s.dev.seqWaits a s.dev.nextOrder true = false → s.dev.ctxOwns h.ctx pt = true →
    let r := (s.dev.take h).kvSwap a pt entries gen none
    r.1 = St.ok →
    exec (.kvSwap h a pt entries gen) s
      = .next { s with dev := r.2.2.completed h St.ok [(r.2.2.seqRec a).gen, flag r.2.1 0] })
  ∧ (∀ (s : State) (h : Hdr) (a ix gen : Nat) (e : Word), s.dev.inContext h false → s.dev.seqMine h.ctx a = true →
    s.dev.seqWaits a s.dev.nextOrder false = false →
    let r := (s.dev.take h).kvSet a ix e.toNat gen
    r.1 = St.ok →
    exec (.kvSet h a ix e gen) s = .next { s with dev := r.2.completed h St.ok [(r.2.seqRec a).gen] })
  ∧ (∀ (s : State) (h : Hdr) (a : Nat), s.dev.inContext h false → s.dev.seqMine h.ctx a = true →
    s.dev.seqWaits a s.dev.nextOrder true = false → (s.dev.seqRec a).provLen = (s.dev.seqRec a).committedLen →
    ∃ (d : Dev) (free : Bool), exec (.kvRelease h a (s.dev.seqRec a).gen) s
        = .next { s with dev := d.completed h St.ok [flag free 0] }
      ∧ d.seqs = s.dev.seqs.filter (· ≠ a) ∧ d.allocs = s.dev.allocs ∧ d.ctxs = s.dev.ctxs)
  ∧ (∀ (s : State) (h : Hdr) (a : Nat), s.dev.inContext h true → s.dev.seqMine h.ctx a = true →
    let r := s.dev.seqRec a
    exec (.kvQuery h a) s
      = .next { s with dev := (s.dev.take h).completed h St.ok [r.gen, r.committedLen, r.provLen, r.walks] })
  ∧ (∀ (s : State) (h : Hdr) (a pt entries ix gen : Nat) (e : Word), s.dev.inContext h false → s.dev.seqMine h.ctx a = true →
    s.dev.seqWaits a s.dev.nextOrder true = false → s.dev.seqWaits a s.dev.nextOrder false = false → s.dev.ctxOwns h.ctx pt = true → gen ≠ (s.dev.seqRec a).gen →
    exec (.kvSwap h a pt entries gen) s = .next { s with dev := (s.dev.take h).completed h St.ptGeneration [] }
    ∧ exec (.kvSet h a ix e gen) s = .next { s with dev := (s.dev.take h).completed h St.ptGeneration [] }
    ∧ exec (.kvRelease h a gen) s = .next { s with dev := (s.dev.take h).completed h St.ptGeneration [] })

/-- The ports of a hub core: a swap or set through the KV port acts and waits for its completion, which latches DONE, the
status and the generation; a draw latches its key and counter and ends with VALID (R201, R222, R233). -/
def Obligations.HubPorts : Prop :=
  (∀ (s : State) (half core c : Nat), s.dev.halfOn half = true → core < 48 →
    (s.dev.hub (hubKey half core)).kvBusy = false → s.dev.hubCtx half core = some c →
    let d : Dev := { s.dev.setHub (hubKey half core) { s.dev.hub (hubKey half core) with kvDone := false } with
      nextOrder := s.dev.nextOrder + 1 }
    exec (.kvPortSwap half core) s = .next { s with dev := d.kvPortRun half core 1 s.dev.nextOrder }
    ∧ exec (.kvPortSet half core) s = .next { s with dev := d.kvPortRun half core 2 s.dev.nextOrder })
  ∧ (∀ (s : State) (half core : Nat) (st : Status) (free : Bool) (gen : Nat),
    (s.dev.hub (hubKey half core)).kvWait = 0 → (s.dev.hub (hubKey half core)).kvNext = some (st, free, gen) →
    exec (.kvPortOpDone half core) s = .next { s with
      dev := (s.dev.setHub (hubKey half core) { s.dev.hub (hubKey half core) with
        kvBusy := false, kvDone := true, kvOldFree := free, kvStatus := st, kvResult := word gen, kvNext := none }).settle })
  ∧ (∀ (s : State) (half core c : Nat), s.dev.halfOn half = true → core < 48 → (s.dev.hub (hubKey half core)).tlyBusy = false →
    s.dev.hubCtx half core = some c →
    let w (i : Nat) : Word := word (s.dev.rwGet (hubDie half) (tlyPortOff core + 4 * i) 0)
    exec (.tlyPortGo half core 1) s = .next { s with
      dev := s.dev.setHub (hubKey half core) { s.dev.hub (hubKey half core) with
        tlyBusy := true, tlyValid := false, tlyNoCtx := false
        tlyKey := [word (s.dev.seedOf c), word (s.dev.seedOf c / 2 ^ 32), w 0, w 1, w 2, w 3, w 4, w 5] } })
  ∧ (∀ (s : State) (half core : Nat), (s.dev.hub (hubKey half core)).tlyBusy = true →
    let x := s.dev.hub (hubKey half core)
    let bad := streamBad ((at' x.tlyKey 2 0).toNat + (at' x.tlyKey 3 0).toNat * 2 ^ 32)
    exec (.tallyDrawDone half core false) s = .next { s with
      dev := s.dev.setHub (hubKey half core) { x with
        tlyBusy := false, tlyValid := true, tlyBad := bad
        tlyOut := if bad then [0, 0, 0, 0] else (portDraw x.tlyKey).map word } })

/-! ## Hub cores and doorbells (R240, R285, R303, R434, R438 to R446) -/

/-- An access that R434 refuses raises an access fault in the core and changes nothing else; a store into guarded bytes is
dropped and traps the core; an access to an evicted extent of its own fetches it, and traps where the deep tier fails. -/
def Obligations.HubAccesses : Prop :=
  (∀ (s : State) (half core dpa kind : Nat), s.dev.halfOn half = true → core < 48 → s.dev.hubMay half core dpa kind = false →
    (kind = 2 → s.dev.guard? dpa 1 = none) →
    exec (.hubAccessFault half core dpa kind) s = .next { s with
      dev := s.dev.setHub (hubKey half core) ((s.dev.hub (hubKey half core)).trap (faultOf kind) dpa) })
  ∧ (∀ (s : State) (half core dpa : Nat) (data : List Byte) (g : Nat × Status), s.dev.halfOn half = true → core < 48 → data ≠ [] →
    s.dev.guard? dpa data.length = some g →
    ∃ d : Dev, exec (.guardedStore (.hub half core) dpa data) s = .next { s with dev := d }
      ∧ d.mem = s.dev.mem ∧ d.ctxs = s.dev.ctxs ∧ d.seqs = s.dev.seqs
      ∧ d.hub (hubKey half core) = (s.dev.hub (hubKey half core)).trap faultStore dpa)
  ∧ (∀ (s : State) (half core dpa kind : Nat) (c : Nat) (ok : Bool), s.dev.halfOn half = true → core < 48 → halfOf dpa = half →
    kind ≤ 2 → s.dev.extEvicted dpa = true → (s.dev.extent (dpa / 2 ^ 21)).moving ≠ 2 → s.dev.hubCtx half core = some c →
    s.dev.ctxOwns c dpa = true → 1 ≤ s.dev.freeHbm half →
    ∃ d : Dev, exec (.hubEvictedAccess half core ⟨dpa, kind⟩ ok) s = .next { s with dev := d }
      ∧ (d.extent (dpa / 2 ^ 21)).evicted = !ok ∧ (d.extent (dpa / 2 ^ 21)).moving = 0
      ∧ d.hub (hubKey half core) = (if ok then s.dev.hub (hubKey half core)
          else (s.dev.hub (hubKey half core)).trap (faultOf kind) dpa)
      ∧ d.mem = s.dev.mem ∧ d.allocs = s.dev.allocs ∧ d.ctxs = s.dev.ctxs)

/-- The doorbell registers: a writer that owns the source rings, masks, unmasks and clears it; a target that ends the handler
on top of its stack pops it and clears the active mark. -/
def Obligations.DoorbellRegisters : Prop :=
  (∀ (s : State) (half core : Nat) (v : Word), s.dev.halfOn half = true → v.toNat < 4096 →
    s.dev.mayRing (.hub half core) half v.toNat = true →
    let k := srcKey half v.toNat
    let x := s.dev.source k
    exec (.dbcDoorbell (.hub half core) half v) s = .next { s with dev := s.dev.setSource k { x with pending := true } }
    ∧ exec (.dbcPendSet (.hub half core) half v) s = .next { s with dev := s.dev.setSource k { x with pending := true } }
    ∧ exec (.dbcMaskSet (.hub half core) half v) s = .next { s with dev := s.dev.setSource k { x with masked := true } }
    ∧ exec (.dbcMaskClr (.hub half core) half v) s = .next { s with dev := s.dev.setSource k { x with masked := false } })
  ∧ (∀ (s : State) (half core : Nat) (v : Word), s.dev.halfOn half = true → v.toNat < 4096 →
    s.dev.mayRing (.hub half core) half v.toNat = true → s.dev.hubWaiting half v.toNat = [] →
    exec (.dbcPendClr (.hub half core) half v) s = .next { s with
      dev := s.dev.setSource (srcKey half v.toNat) { s.dev.source (srcKey half v.toNat) with pending := false } })
  ∧ (∀ (s : State) (half core : Nat) (v : Word), s.dev.halfOn half = true → v.toNat < 4096 →
    s.dev.mayRing (.hub half core) half v.toNat = false →
    exec (.dbcDoorbell (.hub half core) half v) s = .next { s with dev := s.dev.rcAdd (hubDie half) 0x0F00001C 1 })
  ∧ (∀ (s : State) (half t : Nat) (v : Word) (p : Nat) (rest : List (Nat × Nat)), s.dev.halfOn half = true → t < 52 →
    v.toNat < 4096 → (s.dev.hub (hubKey half t)).stack = (v.toNat, p) :: rest →
    exec (.dbcEoi half t v) s = .next { s with
      dev := (s.dev.setHub (hubKey half t) { s.dev.hub (hubKey half t) with stack := rest }).setSource (srcKey half v.toNat)
        { s.dev.source (srcKey half v.toNat) with active := (s.dev.source (srcKey half v.toNat)).active.erase t } })

/-- A dispatch cycle in which exactly one target selects a source that no HUB task waits on presents it there: the source is
active and no longer pending, and the core is in its handler. A write of ONS_HUB_DONE with zero completes the instance that the
core holds and lets go of it (R285, R303, R443 to R445). -/
def Obligations.DispatchPresents : Prop :=
  (∀ (s : State) (half t src : Nat), s.dev.halfOn half = true → t < 52 → s.dev.targetUp half t = true →
    s.dev.select half t = some src → (∀ u, u < 52 → u ≠ t → s.dev.targetUp half u = true → s.dev.select half u = none) →
    s.dev.hubWaiting half src = [] →
    let k := srcKey half src
    let d := s.dev.setSource k { s.dev.source k with pending := false, active := t :: (s.dev.source k).active }
    exec (.doorbellDispatch half) s = .next { s with
      dev := d.setHub (hubKey half t) ((d.hub (hubKey half t)).enter src (d.srcPrio half src) (d.vector half src)) })
  ∧ (∀ (s : State) (half core tok : Nat) (i : Inst), (s.dev.hub (hubKey half core)).holds = some tok →
    s.dev.insts.find? (fun i => i.op = opHub && i.token = tok && i.started && i.state = 1) = some i →
    s.dev.attemptRuns i.ctx i.newer = true →
    exec (.hubDoneWrite half core 0) s = .next { s with
      dev := (s.dev.setHub (hubKey half core) { s.dev.hub (hubKey half core) with holds := none }).updInst i
        (fun j => { j with state := 2 }) })

/-! ## Fabric membership (R314, R323, R331, R332) -/

/-- fab.join from DETACHED enters TRAINING and waits; repeated with its parameters once JOINED it answers with the bell.
fab.leave of a device without a job, fab.bind, fab.group and fab.query, each where it completes. -/
def Obligations.FabricCommands : Prop :=
  (∀ (s : State) (h : Hdr) (fabric phys dx dy dz dw period tk1 tk2 cls : Nat), s.dev.inSession h false → s.dev.fab.state = 0 →
    let p : JoinParams := { fabric := fabric, phys := phys, dims := [dx, dy, dz, dw], period := period, tk1 := tk1, tk2 := tk2 }
    p.ok = true → s.dev.classIs cls = true →
    ∃ d : Dev, exec (.fabJoin h fabric phys dx dy dz dw period tk1 tk2 cls) s = .next { s with dev := d.settle }
      ∧ d.fab.state = 1 ∧ d.fab.params = p ∧ d.mem = s.dev.mem ∧ d.ctxs = s.dev.ctxs
      ∧ ∃ x, x ∈ d.host.inflight ∧ x.h = h ∧ x.cmd = .fabJoin h fabric phys dx dy dz dw period tk1 tk2 cls)
  ∧ (∀ (s : State) (h : Hdr) (cls : Nat) (dx dy dz dw : Nat), s.dev.inSession h true → 3 ≤ s.dev.fab.state →
    s.dev.fab.dims = [dx, dy, dz, dw] →
    exec (.fabJoin h s.dev.fab.fabric s.dev.fab.phys dx dy dz dw s.dev.fab.period s.dev.fab.tk1 s.dev.fab.tk2 cls) s
      = .next { s with dev := (s.dev.take h).completed h St.ok [s.dev.bell % 2 ^ 32, s.dev.bell / 2 ^ 32 % 65536] })
  ∧ (∀ (s : State) (h : Hdr), s.dev.inSession h false → s.dev.fab.state ≠ 0 → s.dev.boundCtxs = [] →
    exec (.fabLeave h) s = .next { s with dev := (s.dev.take h).detach.completed h St.ok [0] })
  ∧ (∀ (s : State) (h : Hdr) (job l group0 count : Nat) (t : List Nat), s.dev.inContext h false → l < 16384 →
    (s.dev.fab.state = 3 ∨ s.dev.fab.state = 5) → s.dev.health.failed = false → (s.dev.ctx h.ctx).bound = false →
    s.dev.dpaValid group0 = true →
    s.dev.groupTable group0 = some t → t.length = count → rising t = true → (∀ m, m ∈ t → m < 16384) → l ∈ t →
    let d := (s.dev.take h).updCtx h.ctx (fun x => { x with bound := true, job := job, logical := l, groups := x.groups.insert 0 t })
    exec (.fabBind h job l group0 count) s = .next { s with
      dev := Dev.completed { d with fab := { d.fab with
        state := 5, remap := s.dev.fab.remap.put 0 l (s.dev.fab.phys + 16384) } } h St.ok [] })
  ∧ (∀ (s : State) (h : Hdr) (group table : Nat) (t : List Nat), s.dev.inContext h false → s.dev.fab.state ≠ 0 → group ≠ 0 →
    s.dev.groupNamed h.ctx group = false → s.dev.dpaValid table = true → s.dev.groupTable table = some t →
    exec (.fabGroup h group table) s = .next { s with
      dev := ((s.dev.take h).updCtx h.ctx (fun x => { x with groups := x.groups.insert group t })).completed h St.ok [] })
  ∧ (∀ (s : State) (h : Hdr), s.dev.inSession h true →
    exec (.fabQuery h) s = .next { s with
      dev := (s.dev.take h).completed h St.ok
        [(s.dev.take h).fabWord 0 4, (s.dev.take h).fabWord 0 0, s.dev.bell % 2 ^ 32, s.dev.bell / 2 ^ 32 % 65536] })

/-- Trained links, the bell lock and the time limits of a join (R331); a heartbeat refreshes the watch of its link, and two seconds
of silence on every link mark a neighbour unresponsive, with a record, and start relief for what it serves (R307, R320). -/
def Obligations.JoinEvents : Prop :=
  (∀ (s : State), s.dev.fab.state = 1 → s.dev.canTrain = true →
    ∃ d : Dev, exec .trainingComplete s = .next { s with dev := d } ∧ d.fab.state = 2 ∧ d.fab.phys = s.dev.fab.phys
      ∧ d.mem = s.dev.mem ∧ d.ctxs = s.dev.ctxs ∧ d.bell = s.dev.bell)
  ∧ (∀ (s : State), s.dev.fab.state = 1 →
    exec .trainingTimeout s = .next { s with
      dev := (s.dev.detach.record { type := Rt.fabric, status := St.fabJoin, opcode := s.dev.fab.fabric }).settle })
  ∧ (∀ (s : State), s.dev.fab.state = 2 →
    exec .bellLock s = .next { s with
      dev := Dev.settle { s.dev with fab := { s.dev.fab with
        state := 3, locked := true, missing := 0, timekeeper := decide (s.dev.fab.phys = s.dev.fab.tk1) } } })
  ∧ (∀ (s : State), s.dev.fab.state = 2 →
    exec .bellLockTimeout s = .next { s with
      dev := (s.dev.detach.record { type := Rt.fabric, status := St.fabJoin, opcode := s.dev.fab.fabric }).settle })
  ∧ (∀ (s : State), s.dev.fab.state = 6 →
    exec .leaveTimeout s = .next { s with dev := ((s.dev.boundCtxs.foldl Dev.relieve s.dev).detach.reapClosing).settle })
  ∧ (∀ (s : State) (port : Nat) (w : Word) (ph : Nat), isUlusil port = true → s.dev.halfOn (portHalf port) = true →
    (s.dev.port port).state ≠ 0 → (s.dev.port port).state ≠ 3 → s.dev.fab.state ≠ 1 → bits w.toNat 1 0 < 2 →
    let d := s.dev.setPort port { s.dev.port port with hbOk := true, peer := bits w.toNat 15 2, peerHalf := ph % 2 }
    exec (.heartbeat port w ph true) s = .next { s with
      dev := { d with fab := { d.fab with silent := d.fab.silent.filter (· ≠ bits w.toNat 15 2) } } })
  ∧ (∀ (s : State) (phys p : Nat), p < 48 → isTorus p = true → (s.dev.port p).state = 2 → (s.dev.port p).peer = phys →
    ∃ d : Dev, exec (.fabUnresponsive phys) s
        = .next { s with dev := (d.record { type := Rt.fabric, status := St.fabUnresponsive, opcode := phys }).deviceOut phys }
      ∧ d.fab.silent = insertNat s.dev.fab.silent phys ∧ d.mem = s.dev.mem ∧ d.ctxs = s.dev.ctxs)

/-- The bell (R315 to R317): the parent's beat is taken and passed on, and gives the number only to a device that waits for
the bell; a missing beat starts the holdover, the secondary takes over, and a bell that stays lost detaches the device. -/
def Obligations.BellEvents : Prop :=
  (∀ (s : State) (port num hops tk q k : Nat) (plus : Bool), parentOf s.dev.fab.dims tk s.dev.fab.phys = some (q, k, plus) →
    2 ≤ s.dev.fab.state → port < 16 → s.dev.portUp port = true → port / 4 = k → portPlus port = plus → (tk = s.dev.fab.tk1 ∨ tk = s.dev.fab.tk2) →
    ∃ d : Dev, exec (.bell port num hops tk true) s = .next { s with dev := d }
      ∧ d.bell = (if s.dev.fab.state = 2 then num % 2 ^ 48 else s.dev.bell)
      ∧ d.fab.beat = true ∧ d.fab.missing = 0 ∧ d.fab.holdover = false ∧ d.fab.hops = (hops + 1) % 256
      ∧ d.mem = s.dev.mem ∧ d.ctxs = s.dev.ctxs)
  ∧ (∀ (s : State), s.dev.fab.locked = true → s.dev.fab.holdover = false → s.dev.fab.timekeeper = false →
    s.dev.fab.secondary = false →
    ∃ d : Dev, exec .bellHoldover s = .next { s with dev := d } ∧ d.fab = { s.dev.fab with holdover := true }
      ∧ d.mem = s.dev.mem ∧ d.bell = s.dev.bell)
  ∧ (∀ (s : State), s.dev.fab.locked = true → s.dev.fab.phys = s.dev.fab.tk2 → s.dev.fab.timekeeper = false →
    s.dev.fab.secondary = false → 8 ≤ s.dev.fab.missing →
    exec .secondaryTimekeeper s = .next { s with
      dev := Dev.startBeat { s.dev with fab := { s.dev.fab with secondary := true, holdover := false, hops := 0, missing := 0 } } })
  ∧ (∀ (s : State), s.dev.fab.locked = true → s.dev.fab.holdover = true → 100 ≤ s.dev.fab.missing → s.dev.fab.state = 3 →
    exec .bellLost s = .next { s with
      dev := ((Dev.stick { s.dev with fab := { s.dev.fab with locked := false } } Sticky.bellLost).record
        { type := Rt.fabric, status := St.bellLost }).detach })

/-! ## Relief (R340, R347, R351, R357) -/

/-- relief.spare, relief.start of a member that this device leads, relief.query, and relief.arm of a bound context whose ring and
spare tables are well formed: UNPROTECTED with the ring of the table and two snapshot areas (R340, R357). -/
def Obligations.ReliefCommands : Prop :=
  (∀ (s : State) (h : Hdr), s.dev.inSession h false → s.dev.fab.state = 3 →
    exec (.reliefSpare h 1) s = .next { s with
      dev := Dev.completed { s.dev.take h with fab := { s.dev.fab with state := 4, claim := none } } h St.ok [] })
  ∧ (∀ (s : State) (h : Hdr), s.dev.inSession h false → s.dev.fab.state = 4 → s.dev.fab.claim = none →
    exec (.reliefSpare h 0) s = .next { s with
      dev := Dev.completed { s.dev.take h with fab := { s.dev.fab with state := 3 } } h St.ok [] })
  ∧ (∀ (s : State) (h : Hdr) (l : Nat), s.dev.inContext h false → (s.dev.ctx h.ctx).bound = true →
    (s.dev.jobOf h.ctx).contains l = true → l ≠ (s.dev.ctx h.ctx).logical → (s.dev.ctx h.ctx).relief.state ≠ 5 →
    s.dev.leads h.ctx l = true →
    let d := (s.dev.take h).startRelief l
    (d.ctx h.ctx).relief.state ≠ 5 →
    exec (.reliefStart h l) s = .next { s with
      dev := (d.enqueue h (.reliefStart h l) ((s.dev.physOf l).getD 0)).settle })
  ∧ (∀ (s : State) (h : Hdr), s.dev.inContext h true →
    exec (.reliefQuery h) s = .next { s with
      dev := (s.dev.take h).completed h St.ok
        [(s.dev.ctx h.ctx).reliefWord 0, (s.dev.ctx h.ctx).relief.epoch, (s.dev.ctx h.ctx).reliefWord 0x10] })
  ∧ (∀ (s : State) (h : Hdr) (ring spares n a b : Nat) (d1 d2 : Dev), s.dev.inContext h false →
    let d := s.dev.take h
    let k := s.dev.ld ring 1
    let ids := (List.range k).map (fun i => s.dev.ld (ring + 8 + 2 * i) 2)
    let sp := (List.range (s.dev.ld spares 2)).map (fun i => s.dev.ld (spares + 8 + 2 * i) 2)
    (s.dev.ctx h.ctx).relief.state = 0 → (s.dev.ctx h.ctx).bound = true → s.dev.dpaValid ring = true →
    s.dev.dpaValid spares = true → 3 ≤ k → k ≤ 8 → s.dev.ld (ring + 2) 6 = 0 → s.dev.ld (spares + 2) 6 = 0 → ids.Nodup →
    (∀ p, p ∈ sp → p < 16384) → ids[s.dev.ld (ring + 1) 1]? = some (s.dev.ctx h.ctx).logical →
    (∀ l, l ∈ ids → l ∈ s.dev.jobOf h.ctx) →
    d.memAlloc (.cmd h.ctx d.host.nextId) h.ctx (n * 2 ^ 21) 0 2 true = .ends St.ok a d1 →
    d1.memAlloc (.cmd h.ctx d.host.nextId) h.ctx (n * 2 ^ 21) 0 2 true = .ends St.ok b d2 →
    ∃ e : Dev, exec (.reliefArm h ring spares n) s = .next { s with dev := e.completed h St.ok [] }
      ∧ (e.ctx h.ctx).relief.state = 1 ∧ (e.ctx h.ctx).relief.ring = ids ∧ (e.ctx h.ctx).relief.spares = sp
      ∧ (e.ctx h.ctx).relief.snap = [a, b] ∧ (e.ctx h.ctx).relief.inRing = true ∧ e.mem = d2.mem ∧ e.allocs = d2.allocs)

/-- The notices of a relief: an armed context without a step takes the subject and holds (R347); a leave notice starts the
relief as a failure does (R333); a digest notice is recorded, and the first within 24 h does no more (R330). -/
def Obligations.ReliefNotices : Prop :=
  (∀ (s : State) (job l c : Nat), s.dev.jobCtxs job = [c] → (s.dev.jobOf c).contains l = true →
    (s.dev.ctx c).relief.spare = none → (s.dev.ctx c).relief.state = 2 → (s.dev.ctx c).relief.subjects = [] →
    (s.dev.ctx c).relief.weak = [] → (s.dev.ctx c).logical ≠ l → (s.dev.ctx c).older = none → (s.dev.ctx c).newer = none →
    s.dev.mustRollBack c l = false →
    exec (.reliefNotice job l) s = .next { s with
      dev := (s.dev.updRelief c (fun r => { r with
        state := 3, subject := some l, spare := none, refused := [], lead := false, resume := 0, ready := [] })).reliefRecord c
        St.reliefStarted l })
  ∧ (∀ (s : State) (job l c : Nat), c ∈ s.dev.jobCtxs job → (s.dev.jobOf c).contains l = true →
    exec (.leaveNotice job l) s = .next { s with dev := s.dev.startRelief l })
  ∧ (∀ (s : State) (src cseq : Nat), (∀ t, t ∈ s.dev.fab.digestTimes → t + 86400 ≤ s.dev.opTime) →
    exec (.digestNotice src cseq) s = .next { s with
      dev := (Dev.stick { s.dev with fab := { s.dev.fab with digestTimes := [s.dev.opTime] } } Sticky.digestNamed).record
        { type := Rt.fabric, unit := hubUnit s.dev.fwHalf 3, status := St.digestMismatch, opcode := src, addr := cseq } })

/-- Spares (R343, R347 steps 2 to 6, R351): a spare accepts the first claim and answers it; the lead stages the remap at the switch
bell on acceptance and claims the next spare on silence; once the spare is ready it names the resume bell; a rebuilt
spare restores its contexts, serves the job and reports ready; the upkeep of a commit sets the protected epoch. -/
def Obligations.SpareEvents : Prop :=
  (∀ (s : State) (lead job l : Nat), s.dev.fab.state = 4 → s.dev.fab.claim = none → s.dev.health.failed = false →
    exec (.spareClaim lead job l) s = .next { s with
      dev := Dev.emit { s.dev with fab := { s.dev.fab with claim := some (lead, job * 16384 + l) } }
        (.notice 5 0 lead [s.dev.fab.phys, 0]) })
  ∧ (∀ (s : State) (c p : Nat), (s.dev.ctx c).relief.claimed = some p → (s.dev.ctx c).relief.lead = true →
    (s.dev.ctx c).relief.state = 3 → (s.dev.ctx c).relief.spare = none →
    exec (.spareClaimTimeout c) s = .next { s with dev := (s.dev.nextSpare c p).settle })
  ∧ (∀ (s : State) (c p l : Nat), (s.dev.ctx c).relief.subject = some l → (s.dev.ctx c).relief.lead = true →
    (s.dev.ctx c).relief.state = 3 → (s.dev.ctx c).relief.claimed = some p → (s.dev.ctx c).relief.spare = none →
    let bell := s.dev.bell + s.dev.remapLead c
    exec (.spareClaimAnswer c p true) s = .next { s with
      dev := (((((s.dev.updRelief c (fun r => { r with spare := some p })).stageRemap l p bell).tellJob 6 c [l, p, bell]).emit
        (.notice 6 c p [l, p, bell]))).settle })
  ∧ (∀ (s : State) (c l p : Nat), (s.dev.ctx c).relief.subject = some l → (s.dev.ctx c).relief.spare = some p →
    (s.dev.ctx c).relief.lead = true → (s.dev.ctx c).relief.state = 3 → (s.dev.ctx c).relief.ready = [] →
    s.dev.physOf l = some p →
    ∃ (bell : Nat) (d : Dev), s.dev.bell + 2 ≤ bell
      ∧ exec (.spareReady c) s = .next { s with dev := (d.jobCtxs (s.dev.ctx c).job).foldl (fun d k => d.nameResume k l bell) d }
      ∧ d.ctxs = s.dev.ctxs ∧ d.mem = s.dev.mem ∧ .notice 8 c p [l, bell] ∈ d.out)
  ∧ (∀ (s : State) (c l : Nat), (s.dev.ctx c).relief.subject = some l → (s.dev.ctx c).relief.state = 3 →
    (s.dev.ctx c).relief.ready = [] →
    exec (.reliefLeadTimeout c s.dev.fab.phys) s = .next { s with dev := s.dev.takeLead c l })
  ∧ (∀ (s : State) (lead job l : Nat) (units : List RebuiltUnit) (rows : List ParityRow) (snaps : List Nat),
    s.dev.fab.claim = some (lead, job * 16384 + l) → s.dev.fab.state = 4 → s.dev.physOf l = some s.dev.fab.phys → snaps ≠ [] →
    let free := units.foldl (fun d u => d.writeMem u.dpa (u.data.take parityUnit)) { s.dev with fab := { s.dev.fab with claim := none } }
    units.any (·.poison) = false → free.unitsOk units (snaps.headD 0) = true →
    let r := snaps.foldl (fun (x : Status × Dev) a => if x.1 = St.ok then x.2.restoreSpare l a rows else x)
      (St.ok, { free with fab := s.dev.fab })
    r.1 = St.ok →
    exec (.reliefRebuildDone job l ⟨units, rows⟩ snaps) s = .next { s with
      dev := Dev.emit { r.2 with fab := { r.2.fab with state := 5, claim := none } } (.notice 7 0 lead [s.dev.fab.phys, job, l]) })
  ∧ (∀ (s : State) (c step : Nat) (counts : List Nat) (rows : List ParityRow), (s.dev.ctx c).relief.inRing = true →
    (s.dev.ctx c).relief.upkeep = true → (s.dev.ctx c).relief.state = 2 →
    ∃ d : Dev, exec (.parityUpkeepDone c step ⟨true, counts, rows⟩) s = .next { s with dev := d }
      ∧ (d.ctx c).relief.epoch = step ∧ (d.ctx c).relief.upkeep = false ∧ (d.ctx c).relief.state = 2
      ∧ (d.ctx c).relief.prot = ((s.dev.ctx c).relief.prot || (s.dev.ctx c).relief.firstUpkeep)
      ∧ d.mem = s.dev.mem ∧ d.allocs = s.dev.allocs ∧ d.fab = s.dev.fab)

/-! ## Health and the pit log (R365 to R373, R377, R379, R382) -/

/-- hlt.read of one unit, log.read, log.clear, hlt.canary, hlt.sticky and hlt.query, each where it completes or, for
hlt.canary, starts to wait. -/
def Obligations.HealthCommands : Prop :=
  (∀ (s : State) (h : Hdr) (unit buf : Nat), s.dev.inSession h true → unit ≠ 0xFFFF → unitKnown unit = true →
    exec (.hltRead h unit buf) s = .next { s with
      dev := ((s.dev.take h).storeHost buf ((s.dev.hist unit).bytes unit)).completed h St.ok [1] })
  ∧ (∀ (s : State) (h : Hdr) (first count buf : Nat), s.dev.inSession h true →
    let l := (s.dev.log.records.reverse.drop first).take count
    exec (.logRead h first count buf) s = .next { s with
      dev := ((s.dev.take h).storeHost buf (l.flatMap Record.bytes)).completed h St.ok [l.length, s.dev.log.records.length] })
  ∧ (∀ (s : State) (h : Hdr), s.dev.inSession h true →
    exec (.logClear h s.dev.log.epoch) s = .next { s with
      dev := Dev.completed { s.dev.take h with
        log := { records := [], epoch := (s.dev.log.epoch + 1) % 32768, dropped := 0 } } h St.ok [(s.dev.log.epoch + 1) % 32768] })
  ∧ (∀ (s : State) (h : Hdr) (e : Nat), s.dev.inSession h true → e ≠ s.dev.log.epoch →
    exec (.logClear h e) s = .next { s with dev := (s.dev.take h).completed h St.ok [s.dev.log.epoch] })
  ∧ (∀ (s : State) (h : Hdr) (unit u : Nat), s.dev.inSession h false → canaryUnit unit = some u → s.dev.dieOn (unitDie u) = true →
    let d := (s.dev.take h).addCanary u false
    exec (.hltCanary h unit) s = .next { s with
      dev := (d.enqueue h (.hltCanary h unit) 0).settle })
  ∧ (∀ (s : State) (h : Hdr) (unit : Nat), s.dev.inSession h false → canaryUnit unit = none →
    exec (.hltCanary h unit) s = .next { s with dev := (s.dev.take h).completed h St.unitInvalid [] })
  ∧ (∀ (s : State) (h : Hdr) (index : Nat) (clear : Word), s.dev.inSession h (decide (clear = 0)) → index ≤ 3 →
    exec (.hltSticky h index clear) s = .next { s with
      dev := ((s.dev.take h).stickyClear index clear).completed h St.ok [(s.dev.take h).hltWord (0x20 + 4 * index)] })
  ∧ (∀ (s : State) (h : Hdr), s.dev.inSession h true →
    let d := s.dev.take h
    exec (.hltQuery h) s = .next { s with dev := d.completed h St.ok [d.hltWord 0, d.hltWord 4, d.logWord 0, d.logWord 4] })

/-- A record goes into the pit log at the next position with the current epoch, and where the log takes no more it counts as
dropped (R377, R379). -/
def Obligations.RecordAppends : Prop :=
  (∀ (l : PitLog) (r : Record), l.records.length < 32512 →
    l.append r = { l with records := { r with slot := some l.records.length, epoch := l.epoch } :: l.records })
  ∧ (∀ (l : PitLog) (r : Record), 32512 ≤ l.records.length → l.records.length < 32768 → r.severity ≠ 3 → r.type ≠ Rt.health →
    r.type ≠ Rt.relief → l.append r = { l with dropped := l.dropped + 1 })
  ∧ (∀ (l : PitLog) (r : Record), 32768 ≤ l.records.length → l.append r = { l with dropped := l.dropped + 1 })

/-- Canaries (R367, R370 to R372): a unit outside the compute cores enters RUNNING; a result and a run of more than 80 ms end it; a
hand-off without a slice boundary fails the task sequencer; a test put off for 2 h is recorded; a suspect unit is released after 7
days of operation without an event, and not before. -/
def Obligations.CanaryEvents : Prop :=
  (∀ (s : State) (unit u : Nat), canaryUnit unit = some u → isCoreUnit u = false → unitSub u ≠ 0 → s.dev.canaryDue u = true →
    s.dev.canary? u = none → s.dev.canTest u = true →
    exec (.canaryStart unit) s = .next { s with dev := ((s.dev.addCanary u false).canaryRuns u).settle })
  ∧ (∀ (s : State) (unit u : Nat) (q : Canary) (pass : Bool), canaryUnit unit = some u → s.dev.canary? u = some q → q.state = 3 →
    exec (.canaryResult unit pass) s = .next { s with dev := s.dev.canaryEnds q.unit pass }
    ∧ exec (.canaryRunTimeout unit) s = .next { s with dev := s.dev.canaryEnds q.unit false })
  ∧ (∀ (s : State) (unit u : Nat) (q : Canary), canaryUnit unit = some u → s.dev.canary? u = some q → q.state = 2 →
    isCoreUnit q.unit = true →
    exec (.canaryHandoffTimeout unit) s = .next { s with
      dev := (((s.dev.dropCanary q.unit).setHist q.unit { s.dev.hist q.unit with held := true }).canaryEnter q.unit false).leaveHeld
        (unitDie q.unit) (unitCluster q.unit) (unitCore q.unit) })
  ∧ (∀ (s : State) (unit u : Nat), canaryUnit unit = some u → s.dev.canaryDue u = true → s.dev.canary? u = none →
    exec (.canaryDeferred unit) s = .next { s with
      dev := ((s.dev.addCanary u false).updCanary u (fun q => { q with deferred := true })).record
        { type := Rt.canary, unit := u, status := St.canaryDeferred } })
  ∧ (∀ (s : State) (unit u : Nat), canaryUnit unit = some u → isCoreUnit u = false → s.dev.isSuspect u = true →
    bit (s.dev.committed 16 0x0B000008) 18 = true → (s.dev.hist u).canaryBell + s.dev.suspectPeriod ≤ s.dev.bell →
    exec (.suspectCanaryDue unit) s = .next { s with dev := s.dev.addCanary u false })
  ∧ (∀ (s : State) (u : Nat), (s.dev.hist u).state = 1 →
    max (s.dev.hist u).suspectOp (s.dev.hist u).watchOp + 604800 ≤ s.dev.opTime →
    exec (.suspectRelease u) s = .next { s with
      dev := (s.dev.setHist u { s.dev.hist u with state := 0, canaryFail := 0, suspectOp := 0 }).record
        { type := Rt.health, unit := u, status := St.unitReleased } })
  ∧ (∀ (s : State) (u : Nat), s.dev.opTime < max (s.dev.hist u).suspectOp (s.dev.hist u).watchOp + 604800 →
    exec (.suspectRelease u) s = .next s)

/-- A slot moves to the cluster's spare, a permanent core leaves, and a poll reads the RC counters and enters its events in
order (R42, R365, R366, R368). -/
def Obligations.CoreService : Prop :=
  (∀ (s : State) (die cl slot n sp : Nat), die < 16 → cl < 4 → slot < 8 → s.dev.dieOn die = true →
    at' (s.dev.cluster (die * 4 + cl)).slots slot none = some n → s.dev.goodSpare die cl = some sp →
    s.dev.coreSuspect die cl n = true → (s.dev.core (coreKey die cl n)).busy = false →
    exec (.spareHandoff die cl slot) s = .next { s with dev := s.dev.moveSlot die cl slot sp })
  ∧ (∀ (s : State) (die cl n sub : Nat), die < 16 → cl < 4 → n < 9 → sub < 7 → (s.dev.hist (coreUnit die cl n sub)).state = 2 →
    s.dev.health.mapped.contains (coreKey die cl n) = false → (s.dev.core (coreKey die cl n)).busy = false →
    exec (.coreMapOut die cl n) s = .next { s with
      dev := (((s.dev.dropCanary (coreUnit die cl n 0)).setCore (coreKey die cl n)
        { s.dev.core (coreKey die cl n) with canary := false }).mapOut die cl n).losePark die cl n })
  ∧ (∀ (s : State) (l : List UnitEvent), 5 ≤ s.dev.host.state → at' s.dev.fw.svc 4 0 = 0 → s.dev.fw.handing = false →
    exec (.healthPoll l) s = .next { s with
      dev := l.foldl Dev.pollEvent { s.dev with rc := s.dev.rc.filter (fun (p : Nat × Word) => decide (64 * 2 ^ 32 ≤ p.1)) } })

/-! ## Configuration and power commands (R403, R458, R465, R469, R487) -/

/-- cfg.stage applies its list whole or refuses it whole; cfg.commit of a group that one half has arms it and waits; cfg.overlay
of a mode the image holds names the switch and waits, and is refused for a code that no mode has; cfg.query answers. -/
def Obligations.ConfigCommands : Prop :=
  (∀ (s : State) (h : Hdr) (list count : Nat), s.dev.inFreeSession h false →
    let l := readEntries s.dev.hostMem list count
    (∀ e, e ∈ l → s.dev.skips e = false ∧ e.fail = none) →
    exec (.cfgStage h list count) s = .next { s with dev := (l.foldl Dev.applyEntry (s.dev.take h)).completed h St.ok [count] })
  ∧ (∀ (s : State) (h : Hdr) (list count : Nat) (e : CfgEntry) (st : Status), s.dev.inFreeSession h false →
    (readEntries s.dev.hostMem list count).find? (fun e => s.dev.skips e || e.fail.isSome) = some e →
    st = (if s.dev.skips e then St.cfgRegister else (e.fail).getD 0) →
    exec (.cfgStage h list count) s = .next { s with dev := (s.dev.take h).completed h st [] })
  ∧ (∀ (s : State) (h : Hdr) (gid half : Nat), s.dev.inFreeSession h false → [0, 1].filter ((s.dev.take h).groupIn gid) = [half] →
    (s.dev.take h).mayArm gid half = true →
    let d := (s.dev.take h).arm gid half none
    exec (.cfgCommitCmd h gid) s = .next { s with
      dev := (d.enqueue h (.cfgCommitCmd h gid) 0).settle })
  ∧ (∀ (s : State) (h : Hdr) (code : Nat), s.dev.inFreeSession h false → isModeCode code = false →
    exec (.cfgOverlay h code) s = .next { s with
      dev := ((s.dev.take h).cfgRefusedAll code St.cfgOverlay).completed h St.cfgOverlay [] })
  ∧ (∀ (s : State) (h : Hdr) (code : Nat), s.dev.inFreeSession h false → isModeCode code = true →
    (code = pretrain ∨ (overlay? s.dev.fw.cfgImage code).isSome = true) →
    let d := (s.dev.take h).switchStaged code
    let l := ((0xC004, 0) :: d.namedGroups (overlayOf s.dev.fw.cfgImage s.dev.outgoing ++ overlayOf s.dev.fw.cfgImage code)).dedup
    l.all (fun g => d.mayArm g.1 g.2) = true →
    ∃ e : Dev, exec (.cfgOverlay h code) s = .next { s with dev := e.settle }
      ∧ e.fw.switchTo = some (code, none) ∧ e.mem = s.dev.mem ∧ e.ctxs = s.dev.ctxs
      ∧ ∃ x, x ∈ e.host.inflight ∧ x.h = h ∧ x.cmd = .cfgOverlay h code)
  ∧ (∀ (s : State) (h : Hdr) (gid half : Nat), s.dev.inFreeSession h true → half ≤ 1 → s.dev.groupIn gid half = true →
    let differs := (groupOffsets gid).any (fun o => decide (s.dev.staged (hubDie half) o ≠ s.dev.committed (hubDie half) o))
    let p := (s.dev.bank.done.find? (doneKey gid half)).getD (0, 0)
    exec (.cfgQuery h gid half) s = .next { s with
      dev := (s.dev.take h).completed h St.ok
        [flag differs 0 + flag (s.dev.groupArmed gid half) 1 + p.1.toNat * 65536, p.2 % 2 ^ 32, p.2 / 2 ^ 32 % 65536] })

/-- pwr.limit of the module's power, in range and within the ceiling, is staged and armed; above the ceiling it is clamped with
a record, and below the range it is refused; pwr.query and pwr.telemetry answer (R403, R419, R487). -/
def Obligations.PowerCommands : Prop :=
  (∀ (s : State) (h : Hdr) (v : Nat), s.dev.inFreeSession h false → ceilDiv (classPower s.dev.classNo) 10 ≤ v →
    v ≤ s.dev.hwLimit 0x00020008 →
    let d := (s.dev.take h).stagePut 16 0x00020008 (rwsReset 16 0x00020008) v
    d.mayArm 0xC005 0 = true →
    exec (.pwrLimit h 0 v) s = .next { s with dev := (d.arm 0xC005 0 none).completed h St.ok [v] })
  ∧ (∀ (s : State) (h : Hdr) (v : Nat), s.dev.inFreeSession h false → ceilDiv (classPower s.dev.classNo) 10 ≤ v →
    s.dev.hwLimit 0x00020008 < v →
    let d := (s.dev.take h).stagePut 16 0x00020008 (rwsReset 16 0x00020008) (s.dev.hwLimit 0x00020008)
    d.mayArm 0xC005 0 = true →
    exec (.pwrLimit h 0 v) s = .next { s with
      dev := (((d.arm 0xC005 0 none).stick Sticky.limitClamped).record
        { type := Rt.power, status := St.limitClamped, opcode := 0xC005 }).completed h St.limitClamped [s.dev.hwLimit 0x00020008] })
  ∧ (∀ (s : State) (h : Hdr) (v : Nat), s.dev.inFreeSession h false → v < ceilDiv (classPower s.dev.classNo) 10 →
    exec (.pwrLimit h 0 v) s = .next { s with dev := (s.dev.take h).completed h St.pwrRange [] })
  ∧ (∀ (s : State) (h : Hdr), s.dev.inSession h true →
    let d := s.dev.take h
    exec (.pwrQuery h) s = .next { s with
      dev := d.completed h St.ok [d.pwrWord 0x04, d.pwrWord 0x18, d.pwrWord 0x1C, d.pwrWord 0x20] })
  ∧ (∀ (s : State) (h : Hdr) (period buf : Nat), s.dev.inFreeSession h false → (period = 0 ∨ 10 ≤ period) →
    exec (.pwrTelemetry h period buf) s = .next { s with
      dev := Dev.completed { s.dev.take h with pwr := { s.dev.pwr with
        telPeriod := period, telBuf := buf, telIndex := 0, telCount := 0, telDue := false } } h St.ok [] })

/-! ## Power (R478 to R484, R487, R490) -/

/-- Power-up: the supply starts it, the class is fixed once, the domains follow one another, and after the last
one power is good. Power-down: the fall of PWR_EN, a power fault and a thermal trip start it with their record; its end clears
memory and the bell, leaves what MRAM keeps, and starts the power-up that a return of the supply has asked for (R478 to R483). -/
def Obligations.PowerUp : Prop :=
  (∀ (s : State), s.dev.pwr.phase = 0 →
    ∃ d : Dev, exec .supplyInRange s = .next { s with dev := d } ∧ d.pwr.phase = 1 ∧ d.pwr.supply = true ∧ d.pwr.cls = none
      ∧ d.pwr.domains = [26, 27, 28] ∧ d.health.isolated = [] ∧ d.cycles = s.dev.cycles + 1 ∧ d.mem = s.dev.mem ∧ d.log = s.dev.log)
  ∧ (∀ (s : State) (id rise : Nat) (fluid : Bool), s.dev.pwr.phase = 1 → id < 4 → s.dev.pwr.cls = none → s.dev.pwr.pwrEn = false →
    ∃ d : Dev, exec (.classSelected id rise fluid) s = .next { s with dev := d } ∧ d.pwr.phase = 2
      ∧ d.pwr.cls = some (max (strapClass id) (sensedClass rise fluid)) ∧ d.mem = s.dev.mem ∧ d.ctxs = s.dev.ctxs)
  ∧ (∀ (s : State) (n m : Nat) (rest : List Nat), s.dev.pwr.phase = 3 → s.dev.pwr.todo = n :: m :: rest →
    exec (.domainInTolerance n) s = .next { s with
      dev := { s.dev with pwr := { s.dev.pwr with phase := 3, todo := m :: rest, domains := insertNat s.dev.pwr.domains m } } })
  ∧ (∀ (s : State) (n : Nat), s.dev.pwr.phase = 3 → s.dev.pwr.todo = [n] →
    ∃ d : Dev, exec (.domainInTolerance n) s = .next { s with dev := d } ∧ d.pwr = { s.dev.pwr with phase := 4, good := true, todo := [] }
      ∧ d.mem = s.dev.mem ∧ d.ctxs = s.dev.ctxs)
  ∧ (∀ (s : State) (n : Nat) (rest : List Nat), s.dev.pwr.phase = 3 → s.dev.pwr.todo = n :: rest →
    ∃ d : Dev, exec (.domainToleranceTimeout n) s = .next { s with dev := d } ∧ d.pwr.phase = 6 ∧ d.pwr.todo = []
      ∧ d.pwr.domains = s.dev.pwr.domains.filter (fun k => decide (26 ≤ k) && decide (k ≤ 28)) ∧ d.mem = s.dev.mem)
  ∧ (∀ (s : State), s.dev.pwr.phase = 2 → s.dev.pwr.pwrEn = false →
    exec .pwrEnRise s = .next { s with dev := Dev.startDomains { s.dev with pwr := { s.dev.pwr with pwrEn := true } } })
  ∧ (∀ (s : State), s.dev.pwr.phase = 4 → s.dev.pwr.pwrEn = true →
    ∃ d : Dev, exec .pwrEnFall s = .next { s with dev := d.record { type := Rt.power, status := St.powerDown } }
      ∧ d.pwr = { s.dev.pwr with phase := 5, good := false, todo := [], held := false, pwrEn := false } ∧ d.fab.hbState = 3
      ∧ d.mem = s.dev.mem ∧ d.ctxs = s.dev.ctxs)
  ∧ (∀ (s : State), s.dev.pwr.phase = 4 →
    ∃ d : Dev, exec .powerFault s = .next { s with dev := d.record { type := Rt.power, status := St.powerFault } }
      ∧ d.pwr = { s.dev.pwr with phase := 5, good := false, todo := [], held := false, supply := false }
      ∧ d.mem = s.dev.mem ∧ d.ctxs = s.dev.ctxs)
  ∧ (∀ (s : State), s.dev.pwr.phase = 4 →
    ∃ d : Dev, exec .thermTrip s = .next { s with dev := d.record { type := Rt.power, status := St.thermTrip } }
      ∧ d.pwr = { s.dev.pwr with phase := 5, good := false, todo := [], held := false, tripPin := true, thermHold := true }
      ∧ d.mem = s.dev.mem ∧ d.ctxs = s.dev.ctxs)
  ∧ (∀ (s : State), s.dev.pwr.phase = 5 → s.dev.pwr.supply = true → (s.dev.pwr.held = true → s.dev.pwr.thermHold = false) →
    ∃ d : Dev, exec .powerDownComplete s = .next { s with dev := d }
      ∧ d.pwr.phase = (if s.dev.pwr.held then 1 else 7) ∧ d.mem = [] ∧ d.poison = [] ∧ d.bell = 0
      ∧ d.ctxs = [] ∧ d.host.state = 0 ∧ d.host.linkUp = false ∧ d.log = s.dev.log ∧ d.health.hist = s.dev.health.hist)
  ∧ (∀ (s : State), s.dev.pwr.thermHold = true → s.dev.pwr.held = false →
    exec .sensorsBelow85C s = .next { s with dev := { s.dev with pwr := { s.dev.pwr with thermHold := false } } })

/-- A throttle step lowers the clock that its limit requires by 25 MHz, 100 MHz for a domain current, and raises it by 25 MHz
up to the limit in force; a telemetry sample that is due goes into the host's ring (R484, R487). -/
def Obligations.ThrottleAndTelemetry : Prop :=
  (∀ (s : State) (cause half domain : Nat) (t : Nat × Nat × Nat), s.dev.pwr.phase = 4 → cause < 4 → half < 2 → domain < 30 →
    s.dev.throttle? (throttleKey cause half domain) = some t →
    exec (.throttleStep cause half domain false) s = .next { s with
      dev := s.dev.setThrottle (throttleKey cause half domain) (some (t.2.2 - if cause = 2 then 100 else 25)) }
    ∧ exec (.throttleStep cause half domain true) s = .next { s with
      dev := s.dev.setThrottle (throttleKey cause half domain)
        (if s.dev.committed 16 0x0002000C ≤ t.2.2 + 25 then none else some (t.2.2 + 25)) })
  ∧ (∀ (s : State) (input power hottest energy hotW hotE : Nat), s.dev.pwr.phase = 4 → s.dev.pwr.telDue = true →
    s.dev.pwr.telPeriod ≠ 0 → at' s.dev.fw.svc 8 0 = 0 → s.dev.fw.handing = false → s.dev.host.linkUp = true →
    ∃ (d : Dev) (b : List Byte), exec (.telemetrySample input power hottest energy hotW hotE) s = .next { s with dev := d }
      ∧ b.length = 64 ∧ d.hostMem = s.dev.hostMem.writeBytes (s.dev.pwr.telBuf + s.dev.pwr.telIndex % 256 * 64) b
      ∧ d.pwr.telIndex = s.dev.pwr.telIndex + 1 ∧ d.pwr.telDue = false ∧ d.pwr.power = word power ∧ d.mem = s.dev.mem)

/-! ## The host interface (R387 to R400, R405 to R410) -/

/-- Loading: START, GO and ABORT change the host state where R394 names them, and nowhere else; a change of the host state fires
vector 1, once the link is up and the vector unmasked (R394, R400). -/
def Obligations.LoadingStates : Prop :=
  (∀ (s : State), s.dev.host.linkUp = true →
    ((s.dev.host.state = 0 ∨ s.dev.host.state = 4) → exec .loadStart s = .next { s with dev := (s.dev.loadBit 0).hostState 1 })
    ∧ (s.dev.host.state = 1 → exec .loadGo s = .next { s with dev := (s.dev.loadBit 1).hostState 2 }
        ∧ exec .loadAbort s = .next { s with dev := (s.dev.loadBit 2).hostState 0 })
    ∧ (s.dev.host.state ≠ 0 → s.dev.host.state ≠ 4 → exec .loadStart s = .next { s with dev := s.dev.loadBit 0 })
    ∧ (s.dev.host.state ≠ 1 → exec .loadGo s = .next { s with dev := s.dev.loadBit 1 }
        ∧ exec .loadAbort s = .next { s with dev := s.dev.loadBit 2 }))
  ∧ (∀ (d : Dev) (k : Nat), k < 3 → ∃ w : Word, d.loadBit k = { d with host := { d.host with loadCtl := w } }
      ∧ ∀ j, j < 3 → bit w.toNat j = (bit d.host.loadCtl.toNat j || j == k))
  ∧ (∀ (d : Dev) (n : Nat), d.host.state ≠ n → d.host.linkUp = true → bit (d.host.msix.get 0 7).toNat 0 = false →
    d.hostState n = { d with host := { d.host with state := n }, out := .msix 1 :: d.out })

/-- The image's verdict: the first failing check is reported and the load rejected; an image that passes starts the Headframe; a
start that takes too long is rejected; the base configuration is loaded and the device reaches READY, or its status is reported and
the load rejected (R393, R394, R463). -/
def Obligations.ImageVerified : Prop :=
  (∀ (s : State) (revoked : Bool) (keyHash minSvn : Nat), s.dev.host.state = 2 →
    ∃ d : Dev, exec (.imageVerifyDone revoked keyHash minSvn) s = .next { s with dev := d }
      ∧ d.host.state = (if s.dev.imageCheck revoked keyHash minSvn = 0 then 3 else 4)
      ∧ d.host.bootResult = s.dev.imageCheck revoked keyHash minSvn ∧ d.mem = s.dev.mem ∧ d.ctxs = s.dev.ctxs)
  ∧ (∀ (s : State), s.dev.host.state = 3 →
    ∃ d : Dev, exec .startTimeout s = .next { s with dev := d } ∧ d.host.state = 4 ∧ d.host.bootResult = 9 ∧ d.mem = s.dev.mem)
  ∧ (∀ (d : Dev) (revoked : Bool) (keyHash minSvn : Nat), d.host.staging.readLE 0 4 ≠ 0x314C4B57 →
    d.imageCheck revoked keyHash minSvn = 1)
  ∧ (∀ (s : State), s.dev.host.state = 3 → s.dev.fw.complexes.any (·.active) = true →
    let r := s.dev.loadConfig (s.dev.host.staging.window cfgAt s.dev.host.cfgBytes.toNat) s.dev.host.cfgBytes.toNat
    r.1 = St.ok →
    ∃ d : Dev, exec .baseConfigLoad s = .next { s with dev := d } ∧ d.host.state = 5 ∧ d.fw.mode = pretrain
      ∧ d.fw.cfgImage = s.dev.host.staging.window cfgAt s.dev.host.cfgBytes.toNat ∧ d.bank = r.2.bank ∧ d.mem = r.2.mem)
  ∧ (∀ (s : State), s.dev.host.state = 3 → s.dev.fw.complexes.any (·.active) = true →
    imageWellFormed (s.dev.host.staging.window cfgAt s.dev.host.cfgBytes.toNat) s.dev.host.cfgBytes.toNat = false →
    ∃ d : Dev, exec .baseConfigLoad s = .next { s with dev := d } ∧ d.host.state = 4 ∧ d.host.bootResult = 8
      ∧ d.host.cfgStatus = St.cfgImage ∧ d.bank = s.dev.bank ∧ d.mem = s.dev.mem)

/-- The rings (R396, R399): enabling a ring set with aligned bases starts both rings at index 0 with PHASE 1 and a misaligned
one sets CONFIG_ERR; the event ring likewise; a tail write is held. -/
def Obligations.RingControl : Prop :=
  (∀ (s : State) (set : Nat) (v : Word), set < 4 → s.dev.host.linkUp = true → bit v.toNat 0 = true →
    (s.dev.ring set).enabled = false → (s.dev.ring set).cmdBase.toNat % 4096 = 0 → (s.dev.ring set).cplBase.toNat % 4096 = 0 →
    4 ≤ (s.dev.ring set).sizeLog.toNat % 16 → (s.dev.ring set).sizeLog.toNat % 16 ≤ 12 → (s.dev.ring set).queue = [] →
    exec (.ringEnableWrite set v) s = .next { s with
      dev := s.dev.setRing set { s.dev.ring set with
        ctl := 1, enabled := true, configErr := false, cmdHead := 0, cplTail := 0, phase := true, cplOut := 0 } })
  ∧ (∀ (s : State) (set : Nat) (v : Word), set < 4 → s.dev.host.linkUp = true → bit v.toNat 0 = true →
    (s.dev.ring set).cmdBase.toNat % 4096 ≠ 0 →
    exec (.ringEnableWrite set v) s = .next { s with
      dev := s.dev.setRing set { s.dev.ring set with ctl := 1, enabled := false, configErr := true } })
  ∧ (∀ (s : State) (v : Word), s.dev.host.linkUp = true → bit v.toNat 0 = true → s.dev.host.evt.enabled = false →
    s.dev.host.evt.base.toNat % 4096 = 0 → 6 ≤ s.dev.host.evt.size.toNat % 32 → s.dev.host.evt.size.toNat % 32 ≤ 16 →
    s.dev.host.evt.shadow.toNat % 8 = 0 →
    exec (.eventRingEnableWrite v) s = .next { s with
      dev := { s.dev with host := { s.dev.host with evt := { s.dev.host.evt with ctl := 1, enabled := true, configErr := false, tail := 0 } } } })
  ∧ (∀ (s : State) (set tail : Nat), set < 4 → s.dev.host.linkUp = true →
    exec (.cmdTailDoorbell set tail) s = .next { s with dev := s.dev.setRing set { s.dev.ring set with cmdTail := word tail } })

/-- A completion is written at the tail of its ring with the phase; while the driver has consumed no
slot it waits. A queued record is written to the event ring, with the shadow tail after it (R399). -/
def Obligations.CompletionPosted : Prop :=
  (∀ (d : Dev) (k : Nat) (c : Completion), k < 4 → (d.ring k).queue = [] → (d.ring k).enabled = true → (d.ring k).cplOut < (d.ring k).size →
    (d.postCpl k c).hostMem = d.hostMem.writeBytes ((d.ring k).cplBase.toNat + 32 * (d.ring k).cplTail) (c.bytes (d.ring k).phase)
    ∧ ((d.postCpl k c).ring k).cplOut = (d.ring k).cplOut + 1
    ∧ ((d.postCpl k c).ring k).cplTail = ((d.ring k).cplTail + 1) % (d.ring k).size
    ∧ ((d.postCpl k c).ring k).queue = [] ∧ (d.postCpl k c).mem = d.mem ∧ (d.postCpl k c).ctxs = d.ctxs)
  ∧ (∀ (d : Dev) (k : Nat) (c : Completion), (d.ring k).queue = [] → (d.ring k).size ≤ (d.ring k).cplOut →
    ((d.postCpl k c).ring k).queue = [c] ∧ (d.postCpl k c).hostMem = d.hostMem)
  ∧ (∀ (s : State) (r : Record) (rest : List Record), s.dev.evtReady = true → s.dev.host.evt.unreported = 0 →
    s.dev.host.evt.queue = r :: rest →
    ∃ d : Dev, exec .eventDeliver s = .next { s with dev := d } ∧ d.host.evt.queue = rest
      ∧ d.host.evt.tail = (s.dev.host.evt.tail + 1) % 2 ^ (s.dev.host.evt.size.toNat % 32)
      ∧ d.hostMem = (s.dev.hostMem.writeBytes (s.dev.host.evt.base.toNat + 128 * s.dev.host.evt.tail) r.bytes).writeBytes
          s.dev.host.evt.shadow.toNat (leBytes 4 ((s.dev.host.evt.tail + 1) % 2 ^ (s.dev.host.evt.size.toNat % 32)))
      ∧ d.mem = s.dev.mem ∧ d.log = s.dev.log)

/-- An answer changes nothing of the device but the host interface, host memory and what leaves the device; with nothing in flight,
no port operation waiting and no context closing, nothing follows a command but its own effect (R399). -/
def Obligations.AnswerFrame : Prop :=
  (∀ (d : Dev) (h : Hdr) (re : Bool) (st : Status) (ws : List Nat),
    let e := d.answer h re st ws
    e.mem = d.mem ∧ e.poison = d.poison ∧ e.bank = d.bank ∧ e.rw = d.rw ∧ e.rc = d.rc ∧ e.ctxs = d.ctxs ∧ e.slots = d.slots
    ∧ e.pools = d.pools ∧ e.seqs = d.seqs ∧ e.allocs = d.allocs ∧ e.extents = d.extents ∧ e.insts = d.insts ∧ e.cores = d.cores
    ∧ e.hubs = d.hubs ∧ e.sources = d.sources ∧ e.fab = d.fab ∧ e.xc = d.xc ∧ e.health = d.health ∧ e.log = d.log ∧ e.fw = d.fw
    ∧ e.pwr = d.pwr ∧ e.bell = d.bell ∧ e.host.inflight = d.host.inflight ∧ e.host.state = d.host.state)
  ∧ (∀ (d : Dev), d.calm → d.settle = d)

/-- The window (R390, R391): reads give memory's bytes, all ones where a check fails, and an abort on poison; writes store, and
a refused access is counted; in LOADING the staging area is accessed instead. -/
def Obligations.Bar2Window : Prop :=
  (∀ (s : State) (off n : Nat), s.dev.host.linkUp = true → off + n ≤ 2 ^ 36 → s.dev.host.state ≠ 1 →
    bit s.dev.host.winCtl.toNat 0 = true → s.dev.winPass (s.dev.winBase + off) n = true →
    exec (.bar2Read off n) s = .next { s with
      dev := s.dev.emit (.bar2Data (if (s.dev.poisoned? (s.dev.winBase + off) n).isSome then none
        else some (s.dev.mem.readBytes (s.dev.winBase + off) n))) })
  ∧ (∀ (s : State) (off n : Nat), s.dev.host.linkUp = true → off + n ≤ 2 ^ 36 → s.dev.host.state ≠ 1 →
    bit s.dev.host.winCtl.toNat 0 = true → s.dev.winPass (s.dev.winBase + off) n = false →
    exec (.bar2Read off n) s = .next { s with
      dev := (s.dev.rcAdd 64 0x48 1).emit (.bar2Data (some (List.replicate n 0xFF#8))) })
  ∧ (∀ (s : State) (off : Nat) (b : List Byte), s.dev.host.linkUp = true → off + b.length ≤ 2 ^ 36 → s.dev.host.state ≠ 1 →
    bit s.dev.host.winCtl.toNat 0 = true → bit s.dev.host.winCtl.toNat 1 = true →
    s.dev.winPass (s.dev.winBase + off) b.length = true → s.dev.guard? (s.dev.winBase + off) b.length = none →
    exec (.bar2Write off b) s = .next { s with dev := s.dev.writeMem (s.dev.winBase + off) b })
  ∧ (∀ (s : State) (off : Nat) (b : List Byte), s.dev.host.linkUp = true → off + b.length ≤ 0x1400000 → s.dev.host.state = 1 →
    exec (.bar2Write off b) s = .next { s with
      dev := { s.dev with host := { s.dev.host with staging := s.dev.host.staging.writeBytes off b } } })

/-- A device write stores its bytes and changes no other byte. -/
def Obligations.WriteMemFrame : Prop :=
  ∀ (d : Dev) (a : Nat) (b : List Byte),
    (∀ x, (x < a ∨ a + b.length ≤ x) → (d.writeMem a b).mem.read x = d.mem.read x)
    ∧ (∀ i (hi : i < b.length), (d.writeMem a b).mem.read (a + i) = b[i])

/-- Heartbeats, orphaning and the link (R387, R388, R394, R406 to R409). -/
def Obligations.HostLinkEvents : Prop :=
  (∀ (s : State) (v : Word), s.dev.host.linkUp = true → s.dev.host.state ≠ 7 →
    exec (.hostHeartbeatWrite v) s = .next { s with dev := { s.dev with host := { s.dev.host with heartbeat := v } } })
  ∧ (∀ (s : State), s.dev.host.state = 6 → exec .hostHeartbeatLost s = .next { s with dev := s.dev.orphanAll 1 })
  ∧ (∀ (s : State), s.dev.host.orphanCause ≠ 0 → s.dev.host.orphanUs = 0 →
    exec .orphanGraceExpiry s = .next { s with
      dev := (((List.range 8).filter (fun c => (s.dev.ctx c).isOpen && (s.dev.ctx c).orphaned && !(s.dev.ctx c).closing)).foldl
        Dev.startClose s.dev).reapClosing.settleHost })
  ∧ (∀ (s : State), s.dev.host.linkUp = true →
    exec .hotReset s = .next { s with dev := (s.dev.linkEvent 3).linkTrain s.dev.host.badLambdas }
    ∧ exec .flr s = .next { s with dev := s.dev.linkEvent 4 })
  ∧ (∀ (s : State), ∃ d : Dev, exec .hostLinkDown s = .next { s with dev := d } ∧ d.host.linkUp = false ∧ d.host.width = 0
      ∧ d.host.rings = [] ∧ d.host.winCtl = 0 ∧ d.mem = s.dev.mem ∧ d.fab = s.dev.fab ∧ d.health.hist = s.dev.health.hist)
  ∧ (∀ (s : State) (lam : Nat), lam < 8 → s.dev.host.badLambdas.contains lam = false → s.dev.host.linkUp = true →
    exec (.hostWavelengthLoss lam) s = .next { s with dev := s.dev.linkTrain (insertNat s.dev.host.badLambdas lam) })
  ∧ (∀ (s : State), s.dev.host.linkUp = false → s.dev.pwr.good = true → s.dev.dieOn 25 = true →
    exec .hostLinkUp s = .next { s with dev := s.dev.linkTrain s.dev.host.badLambdas })

/-- Losing the host orphans every session and every open context, starts the grace and enters ORPHANED; contexts, memory and
the fabric stay as they are otherwise (R407). -/
def Obligations.OrphanAll : Prop :=
  ∀ (d : Dev) (cause : Nat), 5 ≤ d.host.state → d.host.state ≠ 7 →
    let e := d.orphanAll cause
    e.host.state = 7 ∧ e.host.orphanCause = cause ∧ e.host.orphanUs = d.host.grace * 1000000
    ∧ (∀ k, k < 4 → (e.ring k).session = false ∧ (e.ring k).enabled = false)
    ∧ (∀ c, c < 8 → (d.ctx c).isOpen = true → (e.ctx c).orphaned = true ∧ (e.ctx c).owner = none)
    ∧ e.mem = d.mem ∧ e.allocs = d.allocs ∧ e.fab = d.fab ∧ e.insts = d.insts

/-! ## Headframe firmware (R414 to R428) -/

/-- Ticks and shedding: a tick adds what the core's services were granted to its time; a window in which a core was busy for
more than 95 % raises the shed level by one, at most to 3, and the tenth quiet window in a row lowers it (R414, R417). -/
def Obligations.TicksAndShedding : Prop :=
  (∀ (s : State) (core : Nat) (work : List Nat), s.dev.fwRuns = true → s.dev.cplx.cores.contains core = true →
    let g := grants s.dev.fw.shed ((coreSvcs core).filter (fun i => at' s.dev.fw.svc i 0 = 0)) work
    exec (.kernelTick s.dev.fwHalf core work) s = .next { s with
      dev := s.dev.updCplx (fun x => { x with
        busy := setAt x.busy core (at' x.busy core 0 + (g.map (·.2)).sum)
        granted := g.foldl (fun (l : List Nat) p => setAt l p.1 p.2) x.granted }) })
  ∧ (∀ (s : State), s.dev.fwRuns = true → s.dev.cplx.busy.any (fun t => decide (9500 < t)) = true → s.dev.fw.shed < 3 →
    ∃ d : Dev, exec (.shedWindowEnd s.dev.fwHalf) s = .next { s with dev := d } ∧ d.fw.shed = s.dev.fw.shed + 1 ∧ d.fw.quiet = 0
      ∧ d.mem = s.dev.mem ∧ d.ctxs = s.dev.ctxs)
  ∧ (∀ (s : State), s.dev.fwRuns = true → s.dev.cplx.busy.all (fun t => decide (t < 8000)) = true → 9 ≤ s.dev.fw.quiet →
    ∃ d : Dev, exec (.shedWindowEnd s.dev.fwHalf) s = .next { s with dev := d } ∧ d.fw.shed = s.dev.fw.shed - 1 ∧ d.fw.quiet = 0
      ∧ d.mem = s.dev.mem ∧ d.ctxs = s.dev.ctxs)
  ∧ (∀ (shed : Nat) (run work : List Nat), ((grants shed run work).map (·.2)).sum ≤ max 1000 ((run.map svcShare).sum))

/-- Restarts and hand-over (R416, R420 to R425): a service, a core or the complex restarts and is counted, and the
rest stays; done, every service runs again and absence ends; a long absence pauses admission and at last says that the device
failed. The third restart within 60 s hands over to the standby; without one the device fails; a Headframe core that is due is
tested and its result entered. -/
def Obligations.FirmwareRestarts : Prop :=
  (∀ (s : State) (prio : Nat), s.dev.fwRuns = true → 1 ≤ prio → prio ≤ 9 → at' s.dev.fw.svc (prio - 1) 0 = 0 →
    exec (.serviceException prio) s = .next { s with
      dev := s.dev.startRestart 0 (hubUnitIx s.dev.fwHalf 0xA (svcCore (prio - 1))) [prio - 1] s.dev.cplx.restartingCores })
  ∧ (∀ (s : State) (core : Nat), s.dev.fwRuns = true → s.dev.cplx.cores.contains core = true →
    exec (.watchdogBite core) s = .next { s with
      dev := if 2 ≤ s.dev.cplx.restarting then s.dev.startRestart 2 0xFFFF (List.range 9) [0, 1, 2, 3]
        else s.dev.startRestart 1 (hubUnitIx s.dev.fwHalf 0xA core) (coreSvcs core) [core] })
  ∧ (∀ (s : State), s.dev.fwRuns = true → s.dev.cplx.restarting = 2 →
    exec .coreRestartTimeout s = .next { s with dev := s.dev.startRestart 2 0xFFFF (List.range 9) [0, 1, 2, 3] })
  ∧ (∀ (d : Dev) (level unit : Nat) (svcs cores : List Nat),
    let e := d.startRestart level unit svcs cores
    e.fw.lastRestart = d.bell ∧ e.fw.restarts = setAt d.fw.restarts level (at' d.fw.restarts level 0 + 1)
    ∧ e.mem = d.mem ∧ e.ctxs = d.ctxs ∧ e.insts = d.insts ∧ e.fab = d.fab ∧ e.bank = d.bank)
  ∧ (∀ (s : State), s.dev.fwRuns = true → s.dev.cplx.restarting ≠ 0 → s.dev.host.inflight = [] →
    ∃ d : Dev, exec (.fwRestartDone true) s = .next { s with dev := d.settle } ∧ d.fw.absentSince = none ∧ d.fw.shed = 0
      ∧ d.fw.paused = false ∧ d.fw.svc = [0, 0, 0, 0, 0, 0, 0, 0, 0] ∧ d.mem = s.dev.mem ∧ d.ctxs = s.dev.ctxs)
  ∧ (∀ (s : State), s.dev.fw.absentSince.isSome = true → s.dev.fw.paused = false →
    exec .fwAbsent s = .next { s with
      dev := Dev.record { s.dev with fw := { s.dev.fw with paused := true } } { type := Rt.firmware, status := St.fwAbsent } })
  ∧ (∀ (s : State), s.dev.fw.absentSince.isSome = true → s.dev.fwRuns = false →
    exec .fwAbsentFailed s = .next { s with dev := { s.dev with fab := { s.dev.fab with hbState := 3 } } })
  ∧ (∀ (s : State), s.dev.fwRuns = true → 3 ≤ s.dev.recentRestarts.length →
    (at' s.dev.fw.complexes (1 - s.dev.fwHalf) {}).standby = true →
    ∃ d : Dev, exec (.handover 0) s = .next { s with dev := d }
      ∧ d.fw.complexes = setAt (setAt s.dev.fw.complexes s.dev.fwHalf { out := true }) (1 - s.dev.fwHalf) { active := true, tookOver := true }
      ∧ d.fw.handing = true ∧ d.mem = s.dev.mem ∧ d.ctxs = s.dev.ctxs)
  ∧ (∀ (s : State), s.dev.fwRuns = true → 3 ≤ s.dev.recentRestarts.length →
    (at' s.dev.fw.complexes (1 - s.dev.fwHalf) {}).standby = false →
    exec (.handover 0) s = .next { s with dev := s.dev.failDevice (hubUnit s.dev.fwHalf 0xA) })
  ∧ (∀ (s : State), s.dev.fw.handing = true → s.dev.host.inflight = [] →
    ∃ d : Dev, exec .handoverDone s = .next { s with dev := d.settle } ∧ d.fw.handing = false ∧ d.fw.absentSince = none
      ∧ d.mem = s.dev.mem ∧ d.ctxs = s.dev.ctxs)
  ∧ (∀ (s : State) (half core : Nat) (pass : Bool), s.dev.coreTestDue half core = true →
    let u := hubUnitIx half 0xA core
    exec (.headframeCoreTest half core pass) s = .next { s with
      dev := (((s.dev.addCanary u false).canaryRuns u).settle.dropCanary u).canaryEnter u pass })

/-- The management port (R411, R426 to R428): subscribing and reading the log answer; the oldest event of a subscription is
pushed, leaves the queue when it arrives and is retried when not; an SPDM request has its own connection. -/
def Obligations.ManagementPort : Prop :=
  (∀ (s : State) (n : Nat), s.dev.mgmtUp = true → s.dev.freeSub = some n →
    exec (.redfishRequest 0 0) s = .next { s with
      dev := Dev.emit { s.dev with fw := { s.dev.fw with subs := s.dev.fw.subs ++ [{ id := n, sse := false }] } } (.redfishAnswer 0 [n]) })
  ∧ (∀ (s : State) (k : Nat) (r : Record), s.dev.mgmtUp = true → s.dev.log.records.reverse[k]? = some r →
    exec (.redfishRequest 3 k) s = .next { s with dev := s.dev.emit (.redfishAnswer 3 (r.bytes.map BitVec.toNat)) })
  ∧ (∀ (s : State) (id : Nat) (ok : Bool) (q : Subscription) (r : Record) (rest : List Record), s.dev.mgmtUp = true →
    at' s.dev.fw.svc 6 0 = 0 → s.dev.fw.subs.find? (fun q => q.id = id) = some q → q.dropped = 0 → q.queue = r :: rest →
    let d := (s.dev.emit (.redfish id r)).updSub id (fun q =>
      if ok then { q with queue := rest, stage := 0 } else { q with stage := min 14 (q.stage + 1) })
    (q.stage = 0 → exec (.redfishPush id ok) s = .next { s with dev := d })
    ∧ (q.stage ≠ 0 → exec (.redfishRetry id ok) s = .next { s with dev := d }))
  ∧ (∀ (s : State) (req : List Byte), s.dev.mgmtUp = true → 4 ≤ req.length → req.length ≤ 4096 →
    let a := Config.spdmAnswer (s.dev.measuredMsg :: (s.dev.fw.spdmTcp ++ [req]))
    let d : Dev := { s.dev with fw := { s.dev.fw with spdmTcp := s.dev.fw.spdmTcp ++ [req] } }
    exec (.spdmTcpRequest req) s = .next { s with dev := if a.length ≤ 4096 then d.emit (.spdm a) else d })

/-! ## Registers (R9, R44, R339, R373, R389, R453, R458) -/

/-- The reads with a side effect, the sticky bits, and writes: an RC counter is returned and cleared; BEL_NOW_LO and HIF_BELL
latch what their other words will read; only the Headframe clears sticky bits; a write of a staged register reaches the staged
bank; a hub core that reaches no register traps; a commit of a group that may be armed arms it; an entry whose opcode R405 does
not list completes with OPCODE_INVALID. -/
def Obligations.RegisterAccess : Prop :=
  (∀ (s : State) (die off : Nat), isRc die off = true → ((die ≠ 64 ∧ s.dev.dieOn die = true) ∨ (die = 64 ∧ s.dev.host.linkUp = true)) →
    exec (.rcCounterRead die off) s = .next { s with
      dev := (s.dev.rcPut die off 0).emit (.readValue (word (s.dev.rcGet die off))) })
  ∧ (∀ (s : State) (die since : Nat), (die = 16 ∨ die = 17) → s.dev.dieOn die = true →
    exec (.belNowRead die since) s = .next { s with
      dev := ((s.dev.rwPut die 0x0A000004 0 (s.dev.bell / 2 ^ 32 % 65536)).rwPut die 0x0A000014 0 (since % 2 ^ 32)).emit
        (.readValue (word s.dev.bell)) })
  ∧ (∀ (s : State), s.dev.host.linkUp = true →
    exec .hifBellRead s = .next { s with
      dev := Dev.emit { s.dev with host := { s.dev.host with
        bellHiLatch := word (s.dev.bell / 2 ^ 32 % 65536 + flag s.dev.fab.locked 16) } } (.readValue (word s.dev.bell)) })
  ∧ (∀ (s : State) (core index : Nat) (v : Word), index < 4 → s.dev.halfOn 0 = true →
    dieHalf 16 = s.dev.fwHalf → s.dev.dpaValid (ctlDpa 16 (0x0B000020 + 4 * index)) = true →
    exec (.stickyClearWrite (.headframe core) index v) s = .next { s with
      dev := { s.dev with health := { s.dev.health with
        sticky := setAt s.dev.health.sticky index (at' s.dev.health.sticky index 0 &&& ~~~v) } } })
  ∧ (∀ (s : State) (half core index : Nat) (v : Word), exec (.stickyClearWrite (.hub half core) index v) s = .next s)
  ∧ (∀ (s : State) (core die off : Nat) (v : Word) (r : RwsReg), (die = 16 ∨ die = 17) → off % 4 = 0 → s.dev.dieOn die = true →
    rwsReg die off = some r → s.dev.dpaValid (ctlDpa die off) = true → dieHalf die = s.dev.fwHalf →
    exec (.registerWrite (.headframe core) die off v) s = .next { s with
      dev := s.dev.stagePut die off r.reset (Nat.land v.toNat r.mask) })
  ∧ (∀ (s : State) (core die off : Nat) (v : Word), off % 4 = 0 → s.dev.dpaValid (ctlDpa die off) = true →
    dieHalf die ≠ s.dev.fwHalf →
    exec (.registerWrite (.headframe core) die off v) s = .next { s with
      dev := s.dev.sendCrosscut s.dev.fwHalf {
        cls := 2, src := hubDie s.dev.fwHalf, dst := die, window := core, gen := 0, poison := false
        words := [word (ctlDpa die off), word (ctlDpa die off / 2 ^ 32), v] } })
  ∧ (∀ (s : State) (core die off : Nat) (v : Word), off % 4 = 0 → s.dev.dpaValid (ctlDpa die off) = false →
    exec (.registerWrite (.headframe core) die off v) s = .next { s with dev := s.dev.hfTrap core faultStore (ctlDpa die off) })
  ∧ (∀ (s : State) (half core die off : Nat) (v : Word), s.dev.halfOn half = true → core < 48 →
    s.dev.hubReaches half core die off = false →
    exec (.registerWrite (.hub half core) die off v) s = .next { s with dev := s.dev.hubTrap half core faultStore (ctlDpa die off) })
  ∧ (∀ (s : State) (core half : Nat) (v : Word), v.toNat < 65536 → s.dev.halfOn half = true → s.dev.groupIn v.toNat half = true →
    s.dev.mayArm v.toNat half = true → s.dev.dpaValid (ctlDpa (hubDie half) 0x10000000) = true → half = s.dev.fwHalf →
    exec (.cfgCommitWrite (.headframe core) half v) s = .next { s with dev := s.dev.arm v.toNat half none })
  ∧ (∀ (s : State) (h : Hdr) (opcode : Nat), s.dev.takes h = true → assignedOpcode opcode = false →
    exec (.opcodeInvalid h opcode) s = .next { s with dev := (s.dev.take h).answer h false St.opcodeInvalid [] })

/-! ## The bell boundary (R318) -/

/-- At a boundary the bell count advances by one and the operating time by one bell; nothing that acts at the boundary
changes either. A device that has not powered up passes no bell. -/
def Obligations.BellBoundary : Prop :=
  (∀ (s : State), s.dev.pwr.phase = 4 →
    ∃ d : Dev, exec .bellBoundary s = .next { s with dev := d } ∧ d.bell = (s.dev.bell + 1) % 2 ^ 48
      ∧ d.opUs = s.dev.opUs + max s.dev.fab.period 1 * 10)
  ∧ (∀ (s : State), s.dev.pwr.phase ≠ 4 → exec .bellBoundary s = .next s)

/-! ## Admission, engines and the ends of instances (R213, R240, R282 to R284, R290) -/

/-- An eligible instance whose checks pass and whose reservation succeeds is admitted with all it reserved, and one that fails a
check ends with its status; one that is not eligible changes nothing but the order in which instances became eligible; an admission that has waited too long ends, with those that wait behind it for the same sequence. -/
def Obligations.Admission : Prop :=
  (∀ (s : State) (c : Nat) (newer : Bool) (task mb : Nat) (g : GraphHdr) (run : StepRun),
    let dn := s.dev.noteReady c newer
    dn.attemptGraph c newer = some g → (dn.ctx c).step? newer = some run → dn.eligible c newer g run task mb = true →
    dn.fw.paused = false → dn.pwr.phase ≠ 5 → dn.pausedHalf ((dn.graphTask g task).half % 2) = false →
    dn.inst? c newer task mb = none →
    let t := dn.graphTask g task
    let w := dn.admWork g run (dn.newInst c newer run t task mb)
    let d := dn.admOpen t
    (∀ st, d.checkFail w = some st →
      exec (.instanceAdmit c newer task mb) s = .next { s with dev := d.admStop w.x st clsFixed })
    ∧ (d.checkFail w = none → t.op ≠ opUpdate → d.admPinned w = false → d.admHeld w run = false →
      ∀ (e : Dev) (y : Inst), d.reserve w = .takes e y →
      exec (.instanceAdmit c newer task mb) s = .next { s with dev := e.admitInst w run y }))
  ∧ (∀ (s : State) (c : Nat) (newer : Bool) (task mb : Nat),
    let dn := s.dev.noteReady c newer
    (∀ g run, dn.attemptGraph c newer = some g → (dn.ctx c).step? newer = some run → dn.eligible c newer g run task mb = false) →
    exec (.instanceAdmit c newer task mb) s = .next { s with dev := dn })
  ∧ (∀ (s : State) (c : Nat) (newer : Bool) (task mb : Nat) (x : Inst), s.dev.inst? c newer task mb = some x → x.state = 0 →
    x.waitPool.isSome = true →
    exec (.pageExhausted c newer task mb) s = .next { s with
      dev := (s.dev.insts.filter (fun i => i.state = 0 && i.waitPool.isSome && (i.is c newer task mb
        || (s.dev.appendsTo i).any (fun a => (s.dev.appendsTo x).contains a)))).foldl
        (fun d i => d.endWait i St.pageExhausted (hubUnit i.half 1)) s.dev })
  ∧ (∀ (s : State) (c : Nat) (newer : Bool) (task mb : Nat) (x : Inst), s.dev.inst? c newer task mb = some x → x.state = 0 →
    x.fetches ≠ [] →
    exec (.hbmAdmitDeadline c newer task mb) s = .next { s with dev := s.dev.endWait x St.hbmExhausted (hubUnit x.half 0xD) })

/-- A core takes the next slice of the instance that comes first in the order of issue, among those admitted and those that it
admits, which its engines can take: the slice lies in a slot of an engine that runs the task, the instance has issued up to its
end, and memory is as the admission left it (R283, R284). -/
def Obligations.SliceIssued : Prop :=
  ∀ (s : State) (die cl core : Nat) (b : Dev) (w : Work), s.dev.coreIssues die cl core = true →
    let key := coreKey die cl core
    (s.dev.core key).act.length = 4 → (s.dev.core key).nxt.length = 4 →
    let all := s.dev.insts.map (fun i => (s.dev, i)) ++ s.dev.admittable (dieHalf die)
    let cands := (s.dev.issueOrder (all.filter (fun q => q.1.issuable q.2 && q.2.half = dieHalf die))).filterMap
      (fun q => (q.1.work q.2).map (fun w => (q.1, w)))
    cands.find? (fun q => (enginesFor q.2).any (fun e => (s.dev.core key).takes e) && !q.1.namesParked q.2) = some (b, w) →
    ∃ (d : Dev) (e : Nat), exec (.sliceIssue die cl core) s = .next { s with dev := d } ∧ e ∈ enginesFor w
      ∧ (b = s.dev ∨ ∃ c newer task mb, b = instanceAdmitEff c newer task mb s.dev)
      ∧ (at' (d.core key).act e none = some (b.sliceOf w) ∨ at' (d.core key).nxt e none = some (b.sliceOf w))
      ∧ (∀ i, i ∈ d.insts → i.is w.x.ctx w.x.newer w.x.task w.x.mb = true → i.issued = (b.sliceOf w).hi)
      ∧ d.mem = b.mem ∧ d.poison = b.poison ∧ d.allocs = b.allocs ∧ d.insts.length = b.insts.length

/-- Tiles and groups (R84, R92, R93, R121 to R123, R228, R277): a tile whose attempt the engine judges good is written; the first
failure of a tile is counted and goes to its replay; a replay that fails makes the unit suspect and the tile goes to another
engine; a foreign tile runs on its host and a failure there goes to the core's level; a mismatch of the attention engine leaves
the tile where it is; a group of the VU is written, or counted and run again; a slice whose tiles are all written leaves its
engine. -/
def Obligations.TilesAndGroups : Prop :=
  (∀ (s : State) (die cl core tile : Nat) (f : TileFault) (sl : Slice) (q : TileEnd),
    s.dev.actSlice (coreKey die cl core) 0 = some sl → sl.nextTile = some tile → s.dev.dieOn die = true →
    (f.walk = true → sl.bound = false) → sl.refold = false → s.dev.tileEnd (coreKey die cl core) 0 tile f = some q →
    exec (.fTileDrain die cl core tile f) s = .next { s with
      dev := if q.passes then s.dev.passTile die cl core 0 (engUnit die cl core 0) tile f q
        else (s.dev.failFirst die cl core 0 tile q).stopDrained (coreKey die cl core) 0 })
  ∧ (∀ (s : State) (die cl core eng tile : Nat) (f : TileFault) (sl : Slice) (q : TileEnd), eng < 2 →
    s.dev.actSlice (coreKey die cl core) (eng + 1) = some sl → at' (s.dev.core (coreKey die cl core)).arr eng none = none →
    sl.failed = [] → sl.nextTile = some tile → s.dev.dieOn die = true → (f.walk = true → sl.bound = false) → sl.refold = false →
    s.dev.tileEnd (coreKey die cl core) (eng + 1) tile f = some q →
    exec (.bTileDrain die cl core eng tile f) s = .next { s with
      dev := (if q.passes then s.dev.passTile die cl core (eng + 1) (engUnit die cl core (eng + 1)) tile f q
        else (s.dev.failFirst die cl core (eng + 1) tile q).stopDrained (coreKey die cl core) (eng + 1)).boundary
          (coreKey die cl core) (eng + 1) })
  ∧ (∀ (s : State) (die cl core tile : Nat) (f : TileFault) (sl : Slice) (q : TileEnd),
    s.dev.actSlice (coreKey die cl core) 0 = some sl → sl.failed.any (fun f => f.1 = tile) = true → s.dev.dieOn die = true →
    (f.walk = true → sl.bound = false) → sl.refold = false → s.dev.tileEnd (coreKey die cl core) 0 tile f = some q →
    exec (.tileReplay die cl core tile f) s = .next { s with
      dev := if q.passes then s.dev.passTile die cl core 0 (engUnit die cl core 0) tile f q
        else ((((s.dev.failCount die cl core 0 q.part q.lane q.w.x.ctx).markSuspect (failUnit die cl core 0 q.part)).goForeign
          die cl core 0 tile).stopDrained (coreKey die cl core) 0) })
  ∧ (∀ (s : State) (die cl core eng : Nat) (f : TileFault) (t : ForeignTile) (sl : Slice) (q : TileEnd), eng < 2 →
    s.dev.dieOn die = true →
    let key := coreKey die cl core
    let e := t.requester - 1
    at' (s.dev.core key).arr eng none = some t →
    let d := s.dev.setCore key { s.dev.core key with arr := setAt (s.dev.core key).arr eng none }
    d.actSlice key e = some sl → (f.walk = true → sl.bound = false) → sl.refold = false → d.tileEnd key e t.tile f = some q →
    let d1 := if e = 0 then d.rcAddLo die (coreBlock cl core (eng + 2) + 0x18) 1 else d.rcAddHi die (coreBlock cl core (eng + 2) + 0x18) 1
    exec (.foreignTileRun die cl core eng f) s = .next { s with
      dev := (if q.passes then d1.passTile die cl core e (engUnit die cl core (eng + 1)) t.tile f q
        else ((d1.failCount die cl core (eng + 1) false true q.w.x.ctx).coreLevel die cl core e).stopDrained key e).boundary key (eng + 1) })
  ∧ (∀ (s : State) (die cl core tile : Nat) (f : TileFault) (sl : Slice),
    s.dev.actSlice (coreKey die cl core) 0 = some sl → sl.nextTile = some tile → s.dev.dieOn die = true → f.walk = true →
    sl.bound = true →
    exec (.fTileDrain die cl core tile f) s = .next { s with
      dev := (s.dev.walkFailed die cl core 0 sl).stopDrained (coreKey die cl core) 0 })
  ∧ (∀ (s : State) (die cl core group fail : Nat) (sl : Slice) (w : Work), s.dev.actSlice (coreKey die cl core) 3 = some sl →
    ((List.range (sl.hi - sl.lo)).map (sl.lo + ·)).find? (fun g => !sl.drained.contains g) = some group →
    s.dev.dieOn die = true → s.dev.sliceWork sl = some w → (fail ≤ 1 ∨ fail = 3) →
    let key := coreKey die cl core
    let u := engUnit die cl core 3
    let d1 := s.dev.failCount die cl core 3 false true sl.ctx
    exec (.vuGroupDone die cl core group fail) s = .next { s with
      dev := if fail = 0 then ((s.dev.writeGroup w u group).updAct key 3
            (fun x => { x with drained := x.drained ++ [group], refold := false })).stopDrained key 3
        else if sl.failed = [] then (d1.updAct key 3 (fun x => { x with failed := [(group, 3)] })).stopDrained key 3
        else ((d1.markSuspect u).coreLevel die cl core 3).stopDrained key 3 })
  ∧ (∀ (s : State) (die cl core : Nat) (sl : Slice) (x : Inst), s.dev.actSlice (coreKey die cl core) 0 = some sl →
    sl.allWritten = true → s.dev.sliceInst sl = some x → x.written = x.tiles → x.issued = x.tiles → x.nfPos = 0 →
    exec (.sliceComplete die cl core) s = .next { s with
      dev := ((s.dev.updInst x (fun i => { i with state := 2 })).nextSlice (coreKey die cl core) 0).leaveHeld die cl core })

/-- The ends of work (R140, R146, R253, R265, R290, R293, R330): a copy moves the source's lines with their poison; a collective
with its result, and a ladder conversion that has recorded its rung, have done their work; an instance whose work is done leaves
the device; a drained attempt votes; a step past its timeout declares TIMEOUT. -/
def Obligations.WorkEnds : Prop :=
  (∀ (s : State) (c : Nat) (newer : Bool) (task mb : Nat) (w : Work) (a b : TD), (s.dev.inst? c newer task mb).bind s.dev.work = some w →
    w.x.op = opCopy → w.x.state = 1 → s.dev.inputsReady w.x = true → s.dev.attemptRuns c newer = true →
    let dv := s.dev.withWindows w.x
    dv.inTd w 0 = some a → s.dev.outTd w 1 = some b → (s.dev.firstWrite w).2 = true →
    let runs := copyRuns a b
    let parts := runs.flatMap (fun q => lineParts dv (xlate c mb q.1) q.2.1 q.2.2)
    let puts (bad : Bool) : List (Nat × List Byte) := b.outPuts ((parts.filter (fun p => p.2.2 = bad)).map (fun p => (p.1, p.2.1)))
    let d := ((s.dev.firstWrite w).1.putOut w.x (puts false) false).putOut w.x (puts true) true
    exec (.copyDone c newer task mb) s = .next { s with
      dev := (runs.foldl (fun (d : Dev) q => d.deepWrites w.x [(q.2.1, dv.mem.readBytes (xlate c mb q.1) q.2.2)]
        (dv.poisoned? (xlate c mb q.1) q.2.2).isSome) d).updInst w.x (fun i => { i with state := 2 }) })
  ∧ (∀ (s : State) (c : Nat) (newer : Bool) (task mb : Nat) (x : Inst) (r : StepRun) (q : Coll),
    s.dev.inst? c newer task mb = some x → (s.dev.ctx c).step? newer = some r →
    s.dev.coll? c (s.dev.collSeq c newer task mb) r.gen = some q → x.op = opCollective → x.state = 1 → q.result.isSome = true →
    q.failed = none →
    exec (.collectiveComplete c newer task mb) s = .next { s with dev := s.dev.updInst x (fun i => { i with state := 2 }) })
  ∧ (∀ (s : State) (c : Nat) (newer : Bool) (task mb : Nat) (w : Work) (r : StepRun) (y : TD),
    (s.dev.inst? c newer task mb).bind s.dev.work = some w → (s.dev.ctx c).step? newer = some r →
    r.rungs.any (fun q => q.1 = task && q.2.1 = mb) = false → w.x.state = 2 → w.t.op = opConvert → w.t.ladder = true →
    w.t.recompute = false → s.dev.rawTd w 1 = some y → startRung y.fmt < w.x.rung → (s.dev.ctx c).fbOver = true →
    exec (.ladderConvertDone c newer task mb) s = .next { s with
      dev := (s.dev.updStep c newer (fun r => { r with rungs := r.rungs ++ [(task, mb, w.x.rung)] })).updCtx c
        (fun x => { x with fbCount := x.fbCount + s.dev.ladderReaders w }) })
  ∧ (∀ (s : State) (c task mb since : Nat) (w : Work) (r : StepRun),
    ((s.dev.noteReady c true).inst? c true task mb).bind (s.dev.noteReady c true).work = some w →
    ((s.dev.noteReady c true).ctx c).newer = some r → (s.dev.noteReady c true).mayComplete w r = true →
    ∃ d : Dev, exec (.instanceComplete c true task mb since) s = .next { s with dev := d.settle }
      ∧ d.inst? c true task mb = none ∧ d.bell = s.dev.bell)
  ∧ (∀ (s : State) (c : Nat) (newer : Bool),
    exec (.attemptDrained c newer) s = .next { s with dev := (s.dev.drained c newer).settle })
  ∧ (∀ (s : State) (c : Nat) (newer : Bool) (r : StepRun), (s.dev.ctx c).step? newer = some r → r.attempts ≠ 0 → r.live = true →
    r.firstBell + r.limit ≤ s.dev.bell →
    exec (.stepTimeout c newer) s = .next { s with dev := s.dev.declare c newer St.stepTimeout clsTimeout none })
  ∧ (∀ (s : State) (c : Nat) (newer : Bool) (r : StepRun), (s.dev.ctx c).step? newer = some r → s.dev.bell < r.firstBell + r.limit →
    exec (.stepTimeout c newer) s = .next s)

/-- The Update Engine (R156, R157, R161, R162): the ready tensor that comes first starts; a tensor that ends is written; a
first mismatch of the copies in an attempt writes nothing and has it run once more; a value that is not finite writes
nothing. -/
def Obligations.UpdateTensors : Prop :=
  (∀ (s : State) (c : Nat) (newer : Bool) (task : Nat) (x : Inst) (j : UpdJob), s.dev.inst? c newer task 0 = some x →
    s.dev.updJob c newer task = some j → s.dev.updReady x = true →
    (∀ y, y ∈ s.dev.insts → y.half = x.half → s.dev.updReady y = true →
      (s.dev.updRank x).1 < (s.dev.updRank y).1
      ∨ ((s.dev.updRank x).1 = (s.dev.updRank y).1 ∧ (s.dev.updRank x).2 ≤ (s.dev.updRank y).2)) →
    (∀ y, y ∈ s.dev.insts → ¬ (y.op = opUpdate ∧ y.half = x.half ∧ y.state = 1 ∧ y.started = true)) →
    s.dev.updPoison c x.mb j = none → j.r.refreshes j.step = false →
    exec (.updateTensorStart c newer task) s = .next { s with
      dev := s.dev.updInst x (fun y => { y with started := true, token := j.r.prog }) })
  ∧ (∀ (s : State) (c : Nat) (newer : Bool) (task : Nat) (x : Inst) (j : UpdJob), s.dev.inst? c newer task 0 = some x →
    s.dev.updJob c newer task = some j → x.op = opUpdate → x.state = 1 → x.started = true → j.r.refreshes j.step = false →
    let o := s.dev.updCompute c x.mb j
    o.bad = none →
    exec (.updateTensorDone c newer task false) s = .next { s with
      dev := (if (s.dev.clipTensorNorm c x.mb j).nonfinite then s.dev.updCtx c (fun y => { y with nf := true }) else s.dev).updWrite x j o })
  ∧ (∀ (s : State) (c : Nat) (newer : Bool) (task i : Nat) (x : Inst) (j : UpdJob), s.dev.inst? c newer task 0 = some x →
    s.dev.updJob c newer task = some j → x.op = opUpdate → x.state = 1 → x.started = true → j.r.refreshes j.step = false →
    (s.dev.updCompute c x.mb j).bad = some i →
    ∃ d : Dev, exec (.updateTensorDone c newer task false) s = .next { s with dev := d }
      ∧ d.mem = s.dev.mem ∧ d.poison = s.dev.poison ∧ d.slots = s.dev.slots ∧ d.log = s.dev.log
      ∧ (d.ctx c).nf = true)
  ∧ (∀ (s : State) (c : Nat) (newer : Bool) (task : Nat) (x : Inst) (j : UpdJob) (r : StepRun), s.dev.inst? c newer task 0 = some x →
    s.dev.updJob c newer task = some j → x.op = opUpdate → x.state = 1 → x.started = true →
    (s.dev.ctx c).step? newer = some r → r.updRun = 0 →
    let u := hubUnit x.half 2
    ((s.dev.hist u).loc u).1.tA = none →
    ∃ d : Dev, exec (.updateTensorDone c newer task true) s = .next { s with dev := d }
      ∧ d.mem = s.dev.mem ∧ d.poison = s.dev.poison ∧ d.slots = s.dev.slots ∧ (d.ctx c).lockstep = true
      ∧ ((d.ctx c).step? newer).elim 0 (·.updRun) = 1
      ∧ d.insts = s.dev.insts.map (fun i => if i.is x.ctx x.newer x.task x.mb then { i with runs := i.runs + 1 } else i))

/-! ## Packets, links and exchanges (R292, R297, R305 to R313, R330) -/

/-- Packets that arrive here whole: they are acknowledged on their link and do what their type says, in the half they are for or,
where the other half takes them, across the crosscut; one for another device is passed on. -/
def Obligations.Packets : Prop :=
  (∀ (s : State) (port c : Nat) (b : Bool) (k : Packet) (data : List Byte), s.dev.delivers port 0 k →
    let d := s.dev.linkTake port k
    d.receiver k = some (c, b) →
    let key := rxKey c k.dstHalf k.tag
    let a : Packet := {
      dst := k.src, dstHalf := k.srcHalf, src := s.dev.fab.phys, srcHalf := portHalf port, ldst := k.ldst, vc := 1, type := 1,
      gen := k.gen, tag := k.tag, len := 1, poison := false, express := false, lane := 0, ctx := c, rsv := false }
    (k.dstHalf % 2 = portHalf port →
      exec (.ulusilWritePacket port k data) s = .next { s with
        dev := Dev.sendPacket { d with fab := { d.fab with
          rx := d.fab.rx.insert key (d.fab.rx.get [] key ++ data)
          rxPoison := if k.poison then insertNat d.fab.rxPoison key else d.fab.rxPoison } } (portHalf port) none a [] })
    ∧ (k.dstHalf % 2 ≠ portHalf port → d.halfOn (k.dstHalf % 2) = true →
      exec (.ulusilWritePacket port k data) s = .next { s with
        dev := (d.packetAcross k c b data).sendPacket (portHalf port) none a [] }))
  ∧ (∀ (s : State) (port : Nat) (k : Packet) (data : List Byte),
    (s.dev.delivers port 1 k → exec (.writeAckPacket port k) s = .next { s with dev := s.dev.linkTake port k })
    ∧ (s.dev.delivers port 4 k → exec (.controlPacket port k data) s = .next { s with dev := s.dev.linkTake port k })
    ∧ (s.dev.delivers port 5 k → exec (.managementPacket port k data) s = .next { s with dev := (s.dev.linkTake port k).manage data }))
  ∧ (∀ (s : State) (port c : Nat) (b : Bool) (k : Packet) (p : Part), (s.dev.linkTake port k).receiver k = some (c, b) →
    k.dstHalf % 2 = portHalf port → k.poison = false →
    (s.dev.delivers port 2 k → exec (.collectiveContribution port k p) s = .next { s with
      dev := (s.dev.linkTake port k).takePart c k.gen k.tag false p })
    ∧ (s.dev.delivers port 3 k → exec (.collectiveResult port k p) s = .next { s with
      dev := (s.dev.linkTake port k).takePart c k.gen k.tag true p }))
  ∧ (∀ (s : State) (port : Nat) (k : Packet), s.dev.linkOn port = true → k.type = 1 → k.rsv = false → 0 < k.len → k.len ≤ 64 →
    k.dst ≠ s.dev.fab.phys →
    exec (.writeAckPacket port k) s = .next { s with
      dev := (s.dev.linkTake port k).sendPacket (portHalf port) (some (portDim port)) k [] })

/-- The exchanges of a bound context (R292, R297): a notice abandons a running attempt with PEER; the votes of the other devices
are kept, and decided on where this device is the root; a decision is applied; a context that is not bound takes part in none. -/
def Obligations.Exchanges : Prop :=
  (∀ (s : State) (c src : Nat) (r : StepRun), (s.dev.ctx c).bound = true → (s.dev.jobOf c).contains src = true →
    (s.dev.ctx c).older = some r → r.state = 2 →
    exec (.abandonNotice c src) s = .next { s with dev := s.dev.declare c false St.ok clsPeer none })
  ∧ (∀ (s : State) (c src : Nat) (v : Vote) (r : StepRun), (s.dev.ctx c).bound = true → (s.dev.jobOf c).contains src = true →
    (s.dev.ctx c).older = some r → r.state = 5 →
    exec (.abandonVote c src v) s = .next { s with
      dev := (s.dev.updStep c false (fun r => { r with votes := r.votes.filter (fun x => x.1 ≠ src) ++ [(src, v)] })).reduceAbandon c false })
  ∧ (∀ (s : State) (c : Nat) (dec : Decision) (r : StepRun), (s.dev.ctx c).bound = true → (s.dev.ctx c).older = some r → r.state = 5 →
    exec (.abandonDecision c dec) s = .next { s with dev := s.dev.applyAbandon c false dec })
  ∧ (∀ (s : State) (c src since : Nat) (v : Vote) (r : StepRun), (s.dev.ctx c).bound = true → (s.dev.jobOf c).contains src = true →
    (s.dev.ctx c).older = some r → (r.state = 2 ∨ r.state = 3) →
    exec (.sealVote c src v since) s = .next { s with
      dev := (s.dev.updStep c false (fun r => { r with votes := r.votes.filter (fun x => x.1 ≠ src) ++ [(src, v)] })).reduceSeal c since })
  ∧ (∀ (s : State) (c : Nat) (dec : Decision) (r : StepRun), (s.dev.ctx c).bound = true → (s.dev.ctx c).older = some r → r.state = 3 →
    r.voted = true → r.decision = none → dec.kind ≠ 2 → s.dev.bell < dec.bell →
    exec (.sealDecision c dec) s = .next { s with dev := s.dev.updStep c false (fun r => { r with decision := some dec }) })
  ∧ (∀ (s : State) (c src since : Nat) (v : Vote) (dec : Decision), (s.dev.ctx c).bound = false →
    exec (.abandonNotice c src) s = .next s ∧ exec (.abandonVote c src v) s = .next s ∧ exec (.abandonDecision c dec) s = .next s
    ∧ exec (.sealVote c src v since) s = .next s ∧ exec (.sealDecision c dec) s = .next s)

/-- The links (R305 to R307): an acknowledgement frees flits, a replay request resends from the flit it names and retires the port
on its eighth failing send, credits are held and let what waits go, a failed flit is counted, discarded and asked for again; a port goes on without a
wavelength while four are left. -/
def Obligations.LinkEvents : Prop :=
  (∀ (s : State) (port seq : Nat), s.dev.linkOn port = true → seq < 4096 →
    exec (.ack port seq) s = .next { s with dev := s.dev.ackPort port seq })
  ∧ (∀ (s : State) (port seq : Nat), s.dev.linkOn port = true → seq < 4096 →
    exec (.nak port seq) s = .next { s with
      dev := if flitDead (s.dev.port port).replay seq then s.dev.retirePort port else s.dev.nakPort port seq })
  ∧ (∀ (s : State) (port : Nat) (counts : List Nat), s.dev.linkOn port = true → counts.length = 8 → (∀ n, n ∈ counts → n < 4096) →
    exec (.credit port counts) s = .next { s with
      dev := Dev.pumpPort (s.dev.setPort port { s.dev.port port with creditsIn := counts }) port })
  ∧ (∀ (s : State) (port seq : Nat), s.dev.linkOn port = true → (s.dev.port port).discarding = false → seq < 4096 →
    exec (.flitCrcFail port seq) s = .next { s with
      dev := ((s.dev.rcAdd (hubDie (portHalf port)) (0x09001000 + port % 24 * 32 + 4) 1).setPort port
        { s.dev.port port with discarding := true, rxSeq := seq }).emit (.orderedSet port 3 [seq]) })
  ∧ (∀ (s : State) (port : Nat),
    exec (.portRetire port) s = .next { s with dev := s.dev.retirePort port })
  ∧ (∀ (s : State) (port lam : Nat), isUlusil port = true → s.dev.halfOn (portHalf port) = true →
    let x := s.dev.port port
    let l := x.lambdas.filter (· ≠ lam)
    (4 ≤ l.length → exec (.wavelengthFail port lam) s = .next { s with dev := s.dev.setPort port { x with lambdas := l } })
    ∧ (l.length < 4 → exec (.wavelengthFail port lam) s = .next { s with dev := (s.dev.setPort port { x with lambdas := l }).retirePort port }))
  ∧ (∀ (x : Port) (seq : Nat) (f : Flit), f ∈ ackFlits x.replay seq → f ∈ x.replay)

/-! ## The crosscut, the deep tier and the stash (R23 to R34, R244, R248, R255, R257, R368) -/

/-- Crosscut flits (R27 to R31): a flit in its place in the sequence that passes parity is acknowledged, and with the last flit of
its message the message reaches the ingress; another is discarded, and one that fails parity asks once for a replay; a message
without an open window of its number and generation is counted and dropped; flits are acknowledged and resent; a link retires. -/
def Obligations.Crosscut : Prop :=
  (∀ (s : State) (dir link : Nat) (f : XFlit), s.dev.xcOn dir link = true → flitOk f = true →
    flitSeq f = (s.dev.xlink dir link).rxSeq →
    let x := s.dev.xlink dir link
    let m := joinFlit f (x.rx.find? (flitClass f))
    let d := (s.dev.setXlink dir link { x with
      rxSeq := (x.rxSeq + 1) % 4096, discarding := false
      rx := if flitLast f then x.rx.erase (flitClass f) else x.rx.insert (flitClass f) m }).emit (.crosscutAck dir link (flitSeq f))
    exec (.crosscutMessage dir link f []) s = .next { s with dev := if flitLast f then d.ingress (1 - dir) m else d })
  ∧ (∀ (s : State) (dir link : Nat) (f : XFlit), flitOk f = true → flitSeq f ≠ (s.dev.xlink dir link).rxSeq →
    exec (.crosscutMessage dir link f []) s = .next s)
  ∧ (∀ (s : State) (dir link : Nat) (f : XFlit), s.dev.xcOn dir link = true → flitOk f = false →
    ((s.dev.xlink dir link).discarding = true → flitSeq f = (s.dev.xlink dir link).rxSeq) →
    exec (.crosscutParityFail dir link f) s = .next { s with
      dev := (s.dev.setXlink dir link { s.dev.xlink dir link with discarding := true }).emit
        (.crosscutNak dir link (s.dev.xlink dir link).rxSeq) })
  ∧ (∀ (s : State) (dir link seq : Nat), s.dev.xcOn dir link = true → seq < 4096 →
    exec (.crosscutAck dir link seq) s = .next { s with dev := s.dev.ackLink dir link seq }
    ∧ exec (.crosscutReplayRequest dir link seq) s = .next { s with
        dev := if flitDead (s.dev.xlink dir link).replay seq then s.dev.retireLink dir link else s.dev.nakLink dir link seq })
  ∧ (∀ (s : State) (dir link : Nat), s.dev.xcOn dir link = true →
    exec (.crosscutLinkRetire dir link) s = .next { s with dev := s.dev.retireLink dir link })
  ∧ (∀ (d : Dev) (half : Nat) (m : XMsg), d.xc.fenced = false → m.cls < 2 →
    d.xc.windows.any (fun w => w.half = half && w.num = m.window && w.gen = m.gen && !w.got) = false →
    d.ingress half m = d.rcAdd 16 0x00030010 1)

/-- The flits of a legal message pass parity and carry its number in the sequence and its class, only the last says LAST, and
joined in order they give the message back (R29). -/
def Obligations.FlitsRoundTrip : Prop :=
  ∀ (m : XMsg) (seq : Nat), m.cls < 3 → m.src < 40 → m.dst < 40 → m.window < 65536 → m.gen < 256 → m.words ≠ [] →
    (∀ i, i < msgFlits m → flitOk (xFlit m seq i) = true ∧ flitLegal (xFlit m seq i) = true
      ∧ flitSeq (xFlit m seq i) = seq % 4096 ∧ flitClass (xFlit m seq i) = m.cls
      ∧ flitFirst (xFlit m seq i) = decide (i = 0) ∧ flitLast (xFlit m seq i) = decide (i + 1 = msgFlits m))
    ∧ (List.range (msgFlits m)).foldl (fun (a : Option XMsg) i => some (joinFlit (xFlit m ((seq + i) % 4096) i) a)) none = some m

/-- A deep-tier request ends once: with its data, which is stored and lets the task that reads it go on, with an error, or at
its deadline; a response to none is discarded. A stash move changes no byte. A scrub of a clean line changes nothing and a correctable error is entered; a rebuilt
line is written whole; a retired stash block takes a spare block. -/
def Obligations.DeepAndStash : Prop :=
  (∀ (s : State) (id : Nat) (q : DeepReq) (data : List Byte), s.dev.deep.find? (fun q => q.id = id) = some q → q.kind = 0 →
    exec (.deepResponse id true false data) s = .next { s with
      dev := ((Dev.writeMem { s.dev with deep := s.dev.deep.filter (fun r => r.id ≠ id) } q.target data).inputArrived
        q.ctx q.newer q.task q.mb).settle })
  ∧ (∀ (s : State) (id : Nat) (q : DeepReq), s.dev.deep.find? (fun q => q.id = id) = some q →
    let d : Dev := { s.dev with deep := s.dev.deep.filter (fun r => r.id ≠ id) }
    exec (.deepResponse id false false []) s = .next { s with dev := (d.deepFailed q St.deepError).settle }
    ∧ exec (.deepTimeout id) s = .next { s with dev := (d.deepFailed q St.deepTimeout).settle })
  ∧ (∀ (s : State) (id : Nat) (ok po : Bool) (data : List Byte), s.dev.deep.any (fun q => q.id = id) = false →
    exec (.deepResponse id ok po data) s = .next { s with dev := s.dev.settle })
  ∧ (∀ (s : State) (half : Nat) (q : DeepReq), s.dev.deep = [q] → q.half = half →
    exec (.deepLinkDown half) s = .next { s with dev := (Dev.deepFailed { s.dev with deep := [] } q St.deepError).settle })
  ∧ (∀ (s : State) (half : Nat), s.dev.halfOn half = true →
    ∃ d : Dev, exec (.stashMoveDone half) s = .next { s with dev := d } ∧ d = { s.dev with items := d.items }
      ∧ d.items.length = s.dev.items.length)
  ∧ (∀ (s : State) (half off : Nat), half < 2 → off < 2 ^ 38 →
    let a := half * 2 ^ 47 + off / 64 * 64
    s.dev.dpaValid a = true → s.dev.heldExt (a / 2 ^ 21) = false →
    exec (.scrubLine half off 0) s = .next s
    ∧ exec (.scrubLine half off 1) s = .next { s with dev := s.dev.enterEvent (hbmUnit a) a 0 })
  ∧ (∀ (s : State) (c : Nat) (lines : List (Nat × List Byte)), (s.dev.ctx c).repairs = [] →
    exec (.parityRepairDone c true lines) s = .next { s with dev := s.dev.settle })
  ∧ (∀ (s : State) (c l : Nat) (b : List Byte), (s.dev.ctx c).repairs = [l] → (s.dev.ctx c).relief.inRing = true →
    (s.dev.ctx c).relief.upkeep = false → b.length = 64 →
    exec (.parityRepairDone c true [(64 * l, b)]) s = .next { s with
      dev := (((s.dev.writeMem (64 * l) b).record { type := Rt.memory, status := St.parityRepaired, addr := 64 * l, ctx := some c }).updCtx c
        (fun x => { x with repairs := [], scrubbed := x.scrubbed.filter (· ≠ l) })).settle })
  ∧ (∀ (s : State) (key n : Nat), s.dev.health.pendRetire.contains (0, key) = true →
    at' s.dev.health.stashSpare (halfOf key) 0 = n + 1 →
    exec (.locationRetire 0 key) s = .next { s with
      dev := ((Dev.stick { s.dev with health := { s.dev.health with
        pendRetire := s.dev.health.pendRetire.filter (· ≠ (0, key))
        stashRetired := insertNat s.dev.health.stashRetired (key / 65536)
        stashSpare := setAt s.dev.health.stashSpare (halfOf key) n } } Sticky.mapout).record
          { type := Rt.health, unit := stashUnit key, status := St.locationRetired, addr := key }).refreshHealth })

/-! ## Numbers (R49, R53, R54, R56, R59, R64 to R66, R73) -/

/-- Block scales (R53, R54): E8M0 codes 0x00 to 0xFE scale by 2^(code − 127) and 0xFF makes every element NaN; BFX32 exponents −127
to 127 scale by 2^e, and 0x80 makes every element NaN, with zero mantissas where a converter writes it. -/
def Obligations.BlockScales : Prop :=
  (∀ (d : Dev) (c mb : Nat) (t : TD) (p : Pos), isMx t.fmt = true →
    (d.scaleCode c mb t p ≤ 0xFE → d.blockScale c mb t p = .fin false (pow2 ((d.scaleCode c mb t p : Int) - 127)))
    ∧ (d.scaleCode c mb t p = 0xFF → d.elemValue c mb t p = .nan))
  ∧ (∀ (d : Dev) (c mb : Nat) (t : TD) (p : Pos) (e : Int), t.fmt = 0x0B → -127 ≤ e → e ≤ 127 → d.scaleCode c mb t p = (e % 256).toNat →
    d.blockScale c mb t p = .fin false (pow2 e))
  ∧ (∀ (d : Dev) (c mb : Nat) (t : TD) (p : Pos), t.fmt = 0x0B → d.scaleCode c mb t p = 0x80 → d.elemValue c mb t p = .nan)
  ∧ (∀ (xs : List Machine.Num) (ts : Machine.Num) (e : Int), -128 < e → e ≤ 127 → (convertBfx xs ts e).1 = 0x80 →
    ∀ o, o ∈ (convertBfx xs ts e).2 → o.bits = 0)

/-- The sign of zero (R66): in the formats that encode −0, a source that is or rounds to zero gives the zero of its sign; in
MXINT8, INT8Z and BFX32 it gives 0. -/
def Obligations.SignedZero : Prop :=
  (∀ (code : Nat) (t : FloatFmt) (neg infOk : Bool) (m : Rat), floatFmt code = some t → t.round m = 0 →
    (convertElem code neg m infOk).bits = flag neg (t.ebits + t.f)
    ∧ decodeElem code (convertElem code neg m infOk).bits = .fin neg 0)
  ∧ (∀ (neg infOk : Bool) (m : Rat), roundStep m (pow2 (-6)) = 0 → (convertElem 6 neg m infOk).bits = 0)
  ∧ (∀ (neg : Bool) (ts : Machine.Num) (z : Int), -128 ≤ z → z ≤ 127 → (∃ u : Rat, ts = .fin false u ∧ u ≠ 0) →
    (convertInt8z (.fin neg 0) ts z).bits = (z % 256).toNat)
  ∧ (∀ (neg : Bool) (ts : Machine.Num) (e : Int), (∃ u : Rat, ts = .fin false u ∧ u ≠ 0) → (bfxMantissa (.fin neg 0) ts e).1 = 0)

/-- Every NaN written is the canonical one, whatever the bits of the NaN it was read from, and no operation stops (R73). -/
def Obligations.CanonicalNan : Prop :=
  (∀ (code v : Nat) (ts : Machine.Num) (infOk : Bool), decodeElem code v = .nan →
    (convertPlain 0x08 (decodeElem code v) ts infOk).bits = 0x7FC0 ∧ (convertPlain 0x09 (decodeElem code v) ts infOk).bits = 0x7E00
    ∧ (convertPlain 0x0A (decodeElem code v) ts infOk).bits = 0x7FC00000)
  ∧ (∀ (xs : List Machine.Num) (ts : Machine.Num) (i : Nat), xs[i]? = some .nan →
    (((convertMx 0x04 xs ts).2)[i]?).map (fun o => o.bits) = some 0x7F
    ∧ (((convertMx 0x05 xs ts).2)[i]?).map (fun o => o.bits) = some 0x7E)
  ∧ fp32.bitsOf .nan = 0x7FC00000 ∧ bf16.bitsOf .nan = 0x7FC0
  ∧ (∀ (i : Instr) (s : State), ∃ t, exec i s = .next t)

/-- Every finite encoding of a floating format is the conversion of its own value: decoding and converting back gives the same
bits, without an event. -/
def Obligations.FormatsRoundTrip : Prop :=
  ∀ (code v : Nat) (t : FloatFmt) (neg infOk : Bool) (m : Rat), floatFmt code = some t → v < 2 ^ (1 + t.ebits + t.f) →
    decodeElem code v = .fin neg m → convertElem code neg m infOk = { bits := v, ev := .none }

/-! ## The invariant -/

/-- The device after reset meets the invariant. -/
def Obligations.ResetInv : Prop := State.reset.dev.Inv

/-- Every step keeps the invariant, in every state and for every command: the byte memories stay canonical, the bell count stays
below 2^48, the host, fabric and power states stay legal, and the pit log stays within its capacity. -/
def Obligations.StepKeepsInv : Prop := ∀ (s t : State), s.dev.Inv → step s = .next t → t.dev.Inv

/-- The bell count changes at a bell boundary, by a BELL packet that a device waiting for the bell adopts, and at the end of a
power-down; no other command changes it (R314, R318, R331). -/
def Obligations.OnlyBellsCount : Prop :=
  ∀ (i : Instr) (s t : State), exec i s = .next t → t.dev.bell = s.dev.bell ∨ i = .bellBoundary ∨ i = .powerDownComplete
    ∨ (∃ port num hops tk, i = .bell port num hops tk true ∧ s.dev.fab.state = 2 ∧ t.dev.bell = num % 2 ^ 48)
end

