-- ==== Sys2Proof/Laws/Log.lean ====
section
/-! SUPPORT. What writing a record changes, said once: the pit log, the host's queue, the management subscriptions, the sticky
bits and the free-value counter, and nothing else (R377 to R380). -/

namespace Sys2Proof.Machine

variable (d : Dev) (e : Ev)

theorem Dev.deliver_eq (r : Record) :
    d.deliver r = { d with log := (d.deliver r).log, host := (d.deliver r).host, fw := (d.deliver r).fw } := rfl

/-- A record's frame: every field outside the five is the old one. -/
theorem Dev.record_eq :
    d.record e = { d with
      log := (d.record e).log, host := (d.record e).host, fw := (d.record e).fw, health := (d.record e).health,
      free := (d.record e).free } := by
  unfold Dev.record
  simp only
  split
  · rfl
  · split
    · rfl
    · split <;> rfl

@[simp] theorem Dev.stick_hist (n : Nat) : (d.stick n).health.hist = d.health.hist := rfl

/-- A record leaves the history of every unit as it is. -/
@[simp] theorem Dev.record_hist : (d.record e).health.hist = d.health.hist := by
  unfold Dev.record
  simp only
  split
  · rfl
  · split
    · rfl
    · split <;> rfl

@[simp] theorem Dev.record_mem : (d.record e).mem = d.mem := by rw [Dev.record_eq]
@[simp] theorem Dev.record_poison : (d.record e).poison = d.poison := by rw [Dev.record_eq]
@[simp] theorem Dev.record_hostMem : (d.record e).hostMem = d.hostMem := by rw [Dev.record_eq]
@[simp] theorem Dev.record_ctxs : (d.record e).ctxs = d.ctxs := by rw [Dev.record_eq]
@[simp] theorem Dev.record_insts : (d.record e).insts = d.insts := by rw [Dev.record_eq]
@[simp] theorem Dev.record_slots : (d.record e).slots = d.slots := by rw [Dev.record_eq]
@[simp] theorem Dev.record_cores : (d.record e).cores = d.cores := by rw [Dev.record_eq]
@[simp] theorem Dev.record_bank : (d.record e).bank = d.bank := by rw [Dev.record_eq]
@[simp] theorem Dev.record_rc : (d.record e).rc = d.rc := by rw [Dev.record_eq]
@[simp] theorem Dev.record_allocs : (d.record e).allocs = d.allocs := by rw [Dev.record_eq]
@[simp] theorem Dev.record_extents : (d.record e).extents = d.extents := by rw [Dev.record_eq]
@[simp] theorem Dev.record_items : (d.record e).items = d.items := by rw [Dev.record_eq]
@[simp] theorem Dev.record_seqs : (d.record e).seqs = d.seqs := by rw [Dev.record_eq]
@[simp] theorem Dev.record_xc : (d.record e).xc = d.xc := by rw [Dev.record_eq]
@[simp] theorem Dev.record_fab : (d.record e).fab = d.fab := by rw [Dev.record_eq]
@[simp] theorem Dev.record_bell : (d.record e).bell = d.bell := by rw [Dev.record_eq]
@[simp] theorem Dev.record_out : (d.record e).out = d.out := by rw [Dev.record_eq]

end Sys2Proof.Machine
end

