-- ==== Sys2Proof/Laws/State.lean ====
section
/-! SUPPORT. The small lemmas of State: what each named update leaves unchanged, one lemma per field, and what a read after
a write gives. -/

namespace Sys2Proof.Machine

variable (d : Dev)

/-! ### Dev.setCtx -/

@[simp] theorem Dev.setCtx_bell (c : Nat) (x : Ctx) : (d.setCtx c x).bell = d.bell := rfl
@[simp] theorem Dev.setCtx_opUs (c : Nat) (x : Ctx) : (d.setCtx c x).opUs = d.opUs := rfl
@[simp] theorem Dev.setCtx_cycles (c : Nat) (x : Ctx) : (d.setCtx c x).cycles = d.cycles := rfl
@[simp] theorem Dev.setCtx_free (c : Nat) (x : Ctx) : (d.setCtx c x).free = d.free := rfl
@[simp] theorem Dev.setCtx_out (c : Nat) (x : Ctx) : (d.setCtx c x).out = d.out := rfl
@[simp] theorem Dev.setCtx_mem (c : Nat) (x : Ctx) : (d.setCtx c x).mem = d.mem := rfl
@[simp] theorem Dev.setCtx_hostMem (c : Nat) (x : Ctx) : (d.setCtx c x).hostMem = d.hostMem := rfl
@[simp] theorem Dev.setCtx_poison (c : Nat) (x : Ctx) : (d.setCtx c x).poison = d.poison := rfl
@[simp] theorem Dev.setCtx_bank (c : Nat) (x : Ctx) : (d.setCtx c x).bank = d.bank := rfl
@[simp] theorem Dev.setCtx_rw (c : Nat) (x : Ctx) : (d.setCtx c x).rw = d.rw := rfl
@[simp] theorem Dev.setCtx_rc (c : Nat) (x : Ctx) : (d.setCtx c x).rc = d.rc := rfl
@[simp] theorem Dev.setCtx_host (c : Nat) (x : Ctx) : (d.setCtx c x).host = d.host := rfl
@[simp] theorem Dev.setCtx_slots (c : Nat) (x : Ctx) : (d.setCtx c x).slots = d.slots := rfl
@[simp] theorem Dev.setCtx_pools (c : Nat) (x : Ctx) : (d.setCtx c x).pools = d.pools := rfl
@[simp] theorem Dev.setCtx_seqs (c : Nat) (x : Ctx) : (d.setCtx c x).seqs = d.seqs := rfl
@[simp] theorem Dev.setCtx_retired (c : Nat) (x : Ctx) : (d.setCtx c x).retired = d.retired := rfl
@[simp] theorem Dev.setCtx_allocs (c : Nat) (x : Ctx) : (d.setCtx c x).allocs = d.allocs := rfl
@[simp] theorem Dev.setCtx_extents (c : Nat) (x : Ctx) : (d.setCtx c x).extents = d.extents := rfl
@[simp] theorem Dev.setCtx_resvs (c : Nat) (x : Ctx) : (d.setCtx c x).resvs = d.resvs := rfl
@[simp] theorem Dev.setCtx_items (c : Nat) (x : Ctx) : (d.setCtx c x).items = d.items := rfl
@[simp] theorem Dev.setCtx_insts (c : Nat) (x : Ctx) : (d.setCtx c x).insts = d.insts := rfl
@[simp] theorem Dev.setCtx_nextOrder (c : Nat) (x : Ctx) : (d.setCtx c x).nextOrder = d.nextOrder := rfl
@[simp] theorem Dev.setCtx_chan (c : Nat) (x : Ctx) : (d.setCtx c x).chan = d.chan := rfl
@[simp] theorem Dev.setCtx_cores (c : Nat) (x : Ctx) : (d.setCtx c x).cores = d.cores := rfl
@[simp] theorem Dev.setCtx_clusters (c : Nat) (x : Ctx) : (d.setCtx c x).clusters = d.clusters := rfl
@[simp] theorem Dev.setCtx_hubs (c : Nat) (x : Ctx) : (d.setCtx c x).hubs = d.hubs := rfl
@[simp] theorem Dev.setCtx_sources (c : Nat) (x : Ctx) : (d.setCtx c x).sources = d.sources := rfl
@[simp] theorem Dev.setCtx_deep (c : Nat) (x : Ctx) : (d.setCtx c x).deep = d.deep := rfl
@[simp] theorem Dev.setCtx_nextDeep (c : Nat) (x : Ctx) : (d.setCtx c x).nextDeep = d.nextDeep := rfl
@[simp] theorem Dev.setCtx_fab (c : Nat) (x : Ctx) : (d.setCtx c x).fab = d.fab := rfl
@[simp] theorem Dev.setCtx_xc (c : Nat) (x : Ctx) : (d.setCtx c x).xc = d.xc := rfl
@[simp] theorem Dev.setCtx_health (c : Nat) (x : Ctx) : (d.setCtx c x).health = d.health := rfl
@[simp] theorem Dev.setCtx_log (c : Nat) (x : Ctx) : (d.setCtx c x).log = d.log := rfl
@[simp] theorem Dev.setCtx_fw (c : Nat) (x : Ctx) : (d.setCtx c x).fw = d.fw := rfl
@[simp] theorem Dev.setCtx_pwr (c : Nat) (x : Ctx) : (d.setCtx c x).pwr = d.pwr := rfl

/-! ### Dev.updCtx -/

@[simp] theorem Dev.updCtx_bell (c : Nat) (f : Ctx → Ctx) : (d.updCtx c f).bell = d.bell := rfl
@[simp] theorem Dev.updCtx_opUs (c : Nat) (f : Ctx → Ctx) : (d.updCtx c f).opUs = d.opUs := rfl
@[simp] theorem Dev.updCtx_cycles (c : Nat) (f : Ctx → Ctx) : (d.updCtx c f).cycles = d.cycles := rfl
@[simp] theorem Dev.updCtx_free (c : Nat) (f : Ctx → Ctx) : (d.updCtx c f).free = d.free := rfl
@[simp] theorem Dev.updCtx_out (c : Nat) (f : Ctx → Ctx) : (d.updCtx c f).out = d.out := rfl
@[simp] theorem Dev.updCtx_mem (c : Nat) (f : Ctx → Ctx) : (d.updCtx c f).mem = d.mem := rfl
@[simp] theorem Dev.updCtx_hostMem (c : Nat) (f : Ctx → Ctx) : (d.updCtx c f).hostMem = d.hostMem := rfl
@[simp] theorem Dev.updCtx_poison (c : Nat) (f : Ctx → Ctx) : (d.updCtx c f).poison = d.poison := rfl
@[simp] theorem Dev.updCtx_bank (c : Nat) (f : Ctx → Ctx) : (d.updCtx c f).bank = d.bank := rfl
@[simp] theorem Dev.updCtx_rw (c : Nat) (f : Ctx → Ctx) : (d.updCtx c f).rw = d.rw := rfl
@[simp] theorem Dev.updCtx_rc (c : Nat) (f : Ctx → Ctx) : (d.updCtx c f).rc = d.rc := rfl
@[simp] theorem Dev.updCtx_host (c : Nat) (f : Ctx → Ctx) : (d.updCtx c f).host = d.host := rfl
@[simp] theorem Dev.updCtx_slots (c : Nat) (f : Ctx → Ctx) : (d.updCtx c f).slots = d.slots := rfl
@[simp] theorem Dev.updCtx_pools (c : Nat) (f : Ctx → Ctx) : (d.updCtx c f).pools = d.pools := rfl
@[simp] theorem Dev.updCtx_seqs (c : Nat) (f : Ctx → Ctx) : (d.updCtx c f).seqs = d.seqs := rfl
@[simp] theorem Dev.updCtx_retired (c : Nat) (f : Ctx → Ctx) : (d.updCtx c f).retired = d.retired := rfl
@[simp] theorem Dev.updCtx_allocs (c : Nat) (f : Ctx → Ctx) : (d.updCtx c f).allocs = d.allocs := rfl
@[simp] theorem Dev.updCtx_extents (c : Nat) (f : Ctx → Ctx) : (d.updCtx c f).extents = d.extents := rfl
@[simp] theorem Dev.updCtx_resvs (c : Nat) (f : Ctx → Ctx) : (d.updCtx c f).resvs = d.resvs := rfl
@[simp] theorem Dev.updCtx_items (c : Nat) (f : Ctx → Ctx) : (d.updCtx c f).items = d.items := rfl
@[simp] theorem Dev.updCtx_insts (c : Nat) (f : Ctx → Ctx) : (d.updCtx c f).insts = d.insts := rfl
@[simp] theorem Dev.updCtx_nextOrder (c : Nat) (f : Ctx → Ctx) : (d.updCtx c f).nextOrder = d.nextOrder := rfl
@[simp] theorem Dev.updCtx_chan (c : Nat) (f : Ctx → Ctx) : (d.updCtx c f).chan = d.chan := rfl
@[simp] theorem Dev.updCtx_cores (c : Nat) (f : Ctx → Ctx) : (d.updCtx c f).cores = d.cores := rfl
@[simp] theorem Dev.updCtx_clusters (c : Nat) (f : Ctx → Ctx) : (d.updCtx c f).clusters = d.clusters := rfl
@[simp] theorem Dev.updCtx_hubs (c : Nat) (f : Ctx → Ctx) : (d.updCtx c f).hubs = d.hubs := rfl
@[simp] theorem Dev.updCtx_sources (c : Nat) (f : Ctx → Ctx) : (d.updCtx c f).sources = d.sources := rfl
@[simp] theorem Dev.updCtx_deep (c : Nat) (f : Ctx → Ctx) : (d.updCtx c f).deep = d.deep := rfl
@[simp] theorem Dev.updCtx_nextDeep (c : Nat) (f : Ctx → Ctx) : (d.updCtx c f).nextDeep = d.nextDeep := rfl
@[simp] theorem Dev.updCtx_fab (c : Nat) (f : Ctx → Ctx) : (d.updCtx c f).fab = d.fab := rfl
@[simp] theorem Dev.updCtx_xc (c : Nat) (f : Ctx → Ctx) : (d.updCtx c f).xc = d.xc := rfl
@[simp] theorem Dev.updCtx_health (c : Nat) (f : Ctx → Ctx) : (d.updCtx c f).health = d.health := rfl
@[simp] theorem Dev.updCtx_log (c : Nat) (f : Ctx → Ctx) : (d.updCtx c f).log = d.log := rfl
@[simp] theorem Dev.updCtx_fw (c : Nat) (f : Ctx → Ctx) : (d.updCtx c f).fw = d.fw := rfl
@[simp] theorem Dev.updCtx_pwr (c : Nat) (f : Ctx → Ctx) : (d.updCtx c f).pwr = d.pwr := rfl

/-! ### Dev.setRing -/

@[simp] theorem Dev.setRing_bell (k : Nat) (x : Ring) : (d.setRing k x).bell = d.bell := rfl
@[simp] theorem Dev.setRing_opUs (k : Nat) (x : Ring) : (d.setRing k x).opUs = d.opUs := rfl
@[simp] theorem Dev.setRing_cycles (k : Nat) (x : Ring) : (d.setRing k x).cycles = d.cycles := rfl
@[simp] theorem Dev.setRing_free (k : Nat) (x : Ring) : (d.setRing k x).free = d.free := rfl
@[simp] theorem Dev.setRing_out (k : Nat) (x : Ring) : (d.setRing k x).out = d.out := rfl
@[simp] theorem Dev.setRing_mem (k : Nat) (x : Ring) : (d.setRing k x).mem = d.mem := rfl
@[simp] theorem Dev.setRing_hostMem (k : Nat) (x : Ring) : (d.setRing k x).hostMem = d.hostMem := rfl
@[simp] theorem Dev.setRing_poison (k : Nat) (x : Ring) : (d.setRing k x).poison = d.poison := rfl
@[simp] theorem Dev.setRing_bank (k : Nat) (x : Ring) : (d.setRing k x).bank = d.bank := rfl
@[simp] theorem Dev.setRing_rw (k : Nat) (x : Ring) : (d.setRing k x).rw = d.rw := rfl
@[simp] theorem Dev.setRing_rc (k : Nat) (x : Ring) : (d.setRing k x).rc = d.rc := rfl
@[simp] theorem Dev.setRing_ctxs (k : Nat) (x : Ring) : (d.setRing k x).ctxs = d.ctxs := rfl
@[simp] theorem Dev.setRing_slots (k : Nat) (x : Ring) : (d.setRing k x).slots = d.slots := rfl
@[simp] theorem Dev.setRing_pools (k : Nat) (x : Ring) : (d.setRing k x).pools = d.pools := rfl
@[simp] theorem Dev.setRing_seqs (k : Nat) (x : Ring) : (d.setRing k x).seqs = d.seqs := rfl
@[simp] theorem Dev.setRing_retired (k : Nat) (x : Ring) : (d.setRing k x).retired = d.retired := rfl
@[simp] theorem Dev.setRing_allocs (k : Nat) (x : Ring) : (d.setRing k x).allocs = d.allocs := rfl
@[simp] theorem Dev.setRing_extents (k : Nat) (x : Ring) : (d.setRing k x).extents = d.extents := rfl
@[simp] theorem Dev.setRing_resvs (k : Nat) (x : Ring) : (d.setRing k x).resvs = d.resvs := rfl
@[simp] theorem Dev.setRing_items (k : Nat) (x : Ring) : (d.setRing k x).items = d.items := rfl
@[simp] theorem Dev.setRing_insts (k : Nat) (x : Ring) : (d.setRing k x).insts = d.insts := rfl
@[simp] theorem Dev.setRing_nextOrder (k : Nat) (x : Ring) : (d.setRing k x).nextOrder = d.nextOrder := rfl
@[simp] theorem Dev.setRing_chan (k : Nat) (x : Ring) : (d.setRing k x).chan = d.chan := rfl
@[simp] theorem Dev.setRing_cores (k : Nat) (x : Ring) : (d.setRing k x).cores = d.cores := rfl
@[simp] theorem Dev.setRing_clusters (k : Nat) (x : Ring) : (d.setRing k x).clusters = d.clusters := rfl
@[simp] theorem Dev.setRing_hubs (k : Nat) (x : Ring) : (d.setRing k x).hubs = d.hubs := rfl
@[simp] theorem Dev.setRing_sources (k : Nat) (x : Ring) : (d.setRing k x).sources = d.sources := rfl
@[simp] theorem Dev.setRing_deep (k : Nat) (x : Ring) : (d.setRing k x).deep = d.deep := rfl
@[simp] theorem Dev.setRing_nextDeep (k : Nat) (x : Ring) : (d.setRing k x).nextDeep = d.nextDeep := rfl
@[simp] theorem Dev.setRing_fab (k : Nat) (x : Ring) : (d.setRing k x).fab = d.fab := rfl
@[simp] theorem Dev.setRing_xc (k : Nat) (x : Ring) : (d.setRing k x).xc = d.xc := rfl
@[simp] theorem Dev.setRing_health (k : Nat) (x : Ring) : (d.setRing k x).health = d.health := rfl
@[simp] theorem Dev.setRing_log (k : Nat) (x : Ring) : (d.setRing k x).log = d.log := rfl
@[simp] theorem Dev.setRing_fw (k : Nat) (x : Ring) : (d.setRing k x).fw = d.fw := rfl
@[simp] theorem Dev.setRing_pwr (k : Nat) (x : Ring) : (d.setRing k x).pwr = d.pwr := rfl

/-! ### Dev.setSlot -/

@[simp] theorem Dev.setSlot_bell (k : Nat) (x : Slot) : (d.setSlot k x).bell = d.bell := rfl
@[simp] theorem Dev.setSlot_opUs (k : Nat) (x : Slot) : (d.setSlot k x).opUs = d.opUs := rfl
@[simp] theorem Dev.setSlot_cycles (k : Nat) (x : Slot) : (d.setSlot k x).cycles = d.cycles := rfl
@[simp] theorem Dev.setSlot_free (k : Nat) (x : Slot) : (d.setSlot k x).free = d.free := rfl
@[simp] theorem Dev.setSlot_out (k : Nat) (x : Slot) : (d.setSlot k x).out = d.out := rfl
@[simp] theorem Dev.setSlot_mem (k : Nat) (x : Slot) : (d.setSlot k x).mem = d.mem := rfl
@[simp] theorem Dev.setSlot_hostMem (k : Nat) (x : Slot) : (d.setSlot k x).hostMem = d.hostMem := rfl
@[simp] theorem Dev.setSlot_poison (k : Nat) (x : Slot) : (d.setSlot k x).poison = d.poison := rfl
@[simp] theorem Dev.setSlot_bank (k : Nat) (x : Slot) : (d.setSlot k x).bank = d.bank := rfl
@[simp] theorem Dev.setSlot_rw (k : Nat) (x : Slot) : (d.setSlot k x).rw = d.rw := rfl
@[simp] theorem Dev.setSlot_rc (k : Nat) (x : Slot) : (d.setSlot k x).rc = d.rc := rfl
@[simp] theorem Dev.setSlot_host (k : Nat) (x : Slot) : (d.setSlot k x).host = d.host := rfl
@[simp] theorem Dev.setSlot_ctxs (k : Nat) (x : Slot) : (d.setSlot k x).ctxs = d.ctxs := rfl
@[simp] theorem Dev.setSlot_pools (k : Nat) (x : Slot) : (d.setSlot k x).pools = d.pools := rfl
@[simp] theorem Dev.setSlot_seqs (k : Nat) (x : Slot) : (d.setSlot k x).seqs = d.seqs := rfl
@[simp] theorem Dev.setSlot_retired (k : Nat) (x : Slot) : (d.setSlot k x).retired = d.retired := rfl
@[simp] theorem Dev.setSlot_allocs (k : Nat) (x : Slot) : (d.setSlot k x).allocs = d.allocs := rfl
@[simp] theorem Dev.setSlot_extents (k : Nat) (x : Slot) : (d.setSlot k x).extents = d.extents := rfl
@[simp] theorem Dev.setSlot_resvs (k : Nat) (x : Slot) : (d.setSlot k x).resvs = d.resvs := rfl
@[simp] theorem Dev.setSlot_items (k : Nat) (x : Slot) : (d.setSlot k x).items = d.items := rfl
@[simp] theorem Dev.setSlot_insts (k : Nat) (x : Slot) : (d.setSlot k x).insts = d.insts := rfl
@[simp] theorem Dev.setSlot_nextOrder (k : Nat) (x : Slot) : (d.setSlot k x).nextOrder = d.nextOrder := rfl
@[simp] theorem Dev.setSlot_chan (k : Nat) (x : Slot) : (d.setSlot k x).chan = d.chan := rfl
@[simp] theorem Dev.setSlot_cores (k : Nat) (x : Slot) : (d.setSlot k x).cores = d.cores := rfl
@[simp] theorem Dev.setSlot_clusters (k : Nat) (x : Slot) : (d.setSlot k x).clusters = d.clusters := rfl
@[simp] theorem Dev.setSlot_hubs (k : Nat) (x : Slot) : (d.setSlot k x).hubs = d.hubs := rfl
@[simp] theorem Dev.setSlot_sources (k : Nat) (x : Slot) : (d.setSlot k x).sources = d.sources := rfl
@[simp] theorem Dev.setSlot_deep (k : Nat) (x : Slot) : (d.setSlot k x).deep = d.deep := rfl
@[simp] theorem Dev.setSlot_nextDeep (k : Nat) (x : Slot) : (d.setSlot k x).nextDeep = d.nextDeep := rfl
@[simp] theorem Dev.setSlot_fab (k : Nat) (x : Slot) : (d.setSlot k x).fab = d.fab := rfl
@[simp] theorem Dev.setSlot_xc (k : Nat) (x : Slot) : (d.setSlot k x).xc = d.xc := rfl
@[simp] theorem Dev.setSlot_health (k : Nat) (x : Slot) : (d.setSlot k x).health = d.health := rfl
@[simp] theorem Dev.setSlot_log (k : Nat) (x : Slot) : (d.setSlot k x).log = d.log := rfl
@[simp] theorem Dev.setSlot_fw (k : Nat) (x : Slot) : (d.setSlot k x).fw = d.fw := rfl
@[simp] theorem Dev.setSlot_pwr (k : Nat) (x : Slot) : (d.setSlot k x).pwr = d.pwr := rfl

/-! ### Dev.setCore -/

@[simp] theorem Dev.setCore_bell (k : Nat) (x : Core) : (d.setCore k x).bell = d.bell := rfl
@[simp] theorem Dev.setCore_opUs (k : Nat) (x : Core) : (d.setCore k x).opUs = d.opUs := rfl
@[simp] theorem Dev.setCore_cycles (k : Nat) (x : Core) : (d.setCore k x).cycles = d.cycles := rfl
@[simp] theorem Dev.setCore_free (k : Nat) (x : Core) : (d.setCore k x).free = d.free := rfl
@[simp] theorem Dev.setCore_out (k : Nat) (x : Core) : (d.setCore k x).out = d.out := rfl
@[simp] theorem Dev.setCore_mem (k : Nat) (x : Core) : (d.setCore k x).mem = d.mem := rfl
@[simp] theorem Dev.setCore_hostMem (k : Nat) (x : Core) : (d.setCore k x).hostMem = d.hostMem := rfl
@[simp] theorem Dev.setCore_poison (k : Nat) (x : Core) : (d.setCore k x).poison = d.poison := rfl
@[simp] theorem Dev.setCore_bank (k : Nat) (x : Core) : (d.setCore k x).bank = d.bank := rfl
@[simp] theorem Dev.setCore_rw (k : Nat) (x : Core) : (d.setCore k x).rw = d.rw := rfl
@[simp] theorem Dev.setCore_rc (k : Nat) (x : Core) : (d.setCore k x).rc = d.rc := rfl
@[simp] theorem Dev.setCore_host (k : Nat) (x : Core) : (d.setCore k x).host = d.host := rfl
@[simp] theorem Dev.setCore_ctxs (k : Nat) (x : Core) : (d.setCore k x).ctxs = d.ctxs := rfl
@[simp] theorem Dev.setCore_slots (k : Nat) (x : Core) : (d.setCore k x).slots = d.slots := rfl
@[simp] theorem Dev.setCore_pools (k : Nat) (x : Core) : (d.setCore k x).pools = d.pools := rfl
@[simp] theorem Dev.setCore_seqs (k : Nat) (x : Core) : (d.setCore k x).seqs = d.seqs := rfl
@[simp] theorem Dev.setCore_retired (k : Nat) (x : Core) : (d.setCore k x).retired = d.retired := rfl
@[simp] theorem Dev.setCore_allocs (k : Nat) (x : Core) : (d.setCore k x).allocs = d.allocs := rfl
@[simp] theorem Dev.setCore_extents (k : Nat) (x : Core) : (d.setCore k x).extents = d.extents := rfl
@[simp] theorem Dev.setCore_resvs (k : Nat) (x : Core) : (d.setCore k x).resvs = d.resvs := rfl
@[simp] theorem Dev.setCore_items (k : Nat) (x : Core) : (d.setCore k x).items = d.items := rfl
@[simp] theorem Dev.setCore_insts (k : Nat) (x : Core) : (d.setCore k x).insts = d.insts := rfl
@[simp] theorem Dev.setCore_nextOrder (k : Nat) (x : Core) : (d.setCore k x).nextOrder = d.nextOrder := rfl
@[simp] theorem Dev.setCore_chan (k : Nat) (x : Core) : (d.setCore k x).chan = d.chan := rfl
@[simp] theorem Dev.setCore_clusters (k : Nat) (x : Core) : (d.setCore k x).clusters = d.clusters := rfl
@[simp] theorem Dev.setCore_hubs (k : Nat) (x : Core) : (d.setCore k x).hubs = d.hubs := rfl
@[simp] theorem Dev.setCore_sources (k : Nat) (x : Core) : (d.setCore k x).sources = d.sources := rfl
@[simp] theorem Dev.setCore_deep (k : Nat) (x : Core) : (d.setCore k x).deep = d.deep := rfl
@[simp] theorem Dev.setCore_nextDeep (k : Nat) (x : Core) : (d.setCore k x).nextDeep = d.nextDeep := rfl
@[simp] theorem Dev.setCore_fab (k : Nat) (x : Core) : (d.setCore k x).fab = d.fab := rfl
@[simp] theorem Dev.setCore_xc (k : Nat) (x : Core) : (d.setCore k x).xc = d.xc := rfl
@[simp] theorem Dev.setCore_health (k : Nat) (x : Core) : (d.setCore k x).health = d.health := rfl
@[simp] theorem Dev.setCore_log (k : Nat) (x : Core) : (d.setCore k x).log = d.log := rfl
@[simp] theorem Dev.setCore_fw (k : Nat) (x : Core) : (d.setCore k x).fw = d.fw := rfl
@[simp] theorem Dev.setCore_pwr (k : Nat) (x : Core) : (d.setCore k x).pwr = d.pwr := rfl

/-! ### Dev.setHub -/

@[simp] theorem Dev.setHub_bell (k : Nat) (x : HubCore) : (d.setHub k x).bell = d.bell := rfl
@[simp] theorem Dev.setHub_opUs (k : Nat) (x : HubCore) : (d.setHub k x).opUs = d.opUs := rfl
@[simp] theorem Dev.setHub_cycles (k : Nat) (x : HubCore) : (d.setHub k x).cycles = d.cycles := rfl
@[simp] theorem Dev.setHub_free (k : Nat) (x : HubCore) : (d.setHub k x).free = d.free := rfl
@[simp] theorem Dev.setHub_out (k : Nat) (x : HubCore) : (d.setHub k x).out = d.out := rfl
@[simp] theorem Dev.setHub_mem (k : Nat) (x : HubCore) : (d.setHub k x).mem = d.mem := rfl
@[simp] theorem Dev.setHub_hostMem (k : Nat) (x : HubCore) : (d.setHub k x).hostMem = d.hostMem := rfl
@[simp] theorem Dev.setHub_poison (k : Nat) (x : HubCore) : (d.setHub k x).poison = d.poison := rfl
@[simp] theorem Dev.setHub_bank (k : Nat) (x : HubCore) : (d.setHub k x).bank = d.bank := rfl
@[simp] theorem Dev.setHub_rw (k : Nat) (x : HubCore) : (d.setHub k x).rw = d.rw := rfl
@[simp] theorem Dev.setHub_rc (k : Nat) (x : HubCore) : (d.setHub k x).rc = d.rc := rfl
@[simp] theorem Dev.setHub_host (k : Nat) (x : HubCore) : (d.setHub k x).host = d.host := rfl
@[simp] theorem Dev.setHub_ctxs (k : Nat) (x : HubCore) : (d.setHub k x).ctxs = d.ctxs := rfl
@[simp] theorem Dev.setHub_slots (k : Nat) (x : HubCore) : (d.setHub k x).slots = d.slots := rfl
@[simp] theorem Dev.setHub_pools (k : Nat) (x : HubCore) : (d.setHub k x).pools = d.pools := rfl
@[simp] theorem Dev.setHub_seqs (k : Nat) (x : HubCore) : (d.setHub k x).seqs = d.seqs := rfl
@[simp] theorem Dev.setHub_retired (k : Nat) (x : HubCore) : (d.setHub k x).retired = d.retired := rfl
@[simp] theorem Dev.setHub_allocs (k : Nat) (x : HubCore) : (d.setHub k x).allocs = d.allocs := rfl
@[simp] theorem Dev.setHub_extents (k : Nat) (x : HubCore) : (d.setHub k x).extents = d.extents := rfl
@[simp] theorem Dev.setHub_resvs (k : Nat) (x : HubCore) : (d.setHub k x).resvs = d.resvs := rfl
@[simp] theorem Dev.setHub_items (k : Nat) (x : HubCore) : (d.setHub k x).items = d.items := rfl
@[simp] theorem Dev.setHub_insts (k : Nat) (x : HubCore) : (d.setHub k x).insts = d.insts := rfl
@[simp] theorem Dev.setHub_nextOrder (k : Nat) (x : HubCore) : (d.setHub k x).nextOrder = d.nextOrder := rfl
@[simp] theorem Dev.setHub_chan (k : Nat) (x : HubCore) : (d.setHub k x).chan = d.chan := rfl
@[simp] theorem Dev.setHub_cores (k : Nat) (x : HubCore) : (d.setHub k x).cores = d.cores := rfl
@[simp] theorem Dev.setHub_clusters (k : Nat) (x : HubCore) : (d.setHub k x).clusters = d.clusters := rfl
@[simp] theorem Dev.setHub_sources (k : Nat) (x : HubCore) : (d.setHub k x).sources = d.sources := rfl
@[simp] theorem Dev.setHub_deep (k : Nat) (x : HubCore) : (d.setHub k x).deep = d.deep := rfl
@[simp] theorem Dev.setHub_nextDeep (k : Nat) (x : HubCore) : (d.setHub k x).nextDeep = d.nextDeep := rfl
@[simp] theorem Dev.setHub_fab (k : Nat) (x : HubCore) : (d.setHub k x).fab = d.fab := rfl
@[simp] theorem Dev.setHub_xc (k : Nat) (x : HubCore) : (d.setHub k x).xc = d.xc := rfl
@[simp] theorem Dev.setHub_health (k : Nat) (x : HubCore) : (d.setHub k x).health = d.health := rfl
@[simp] theorem Dev.setHub_log (k : Nat) (x : HubCore) : (d.setHub k x).log = d.log := rfl
@[simp] theorem Dev.setHub_fw (k : Nat) (x : HubCore) : (d.setHub k x).fw = d.fw := rfl
@[simp] theorem Dev.setHub_pwr (k : Nat) (x : HubCore) : (d.setHub k x).pwr = d.pwr := rfl

/-! ### Dev.setSource -/

@[simp] theorem Dev.setSource_bell (k : Nat) (x : Source) : (d.setSource k x).bell = d.bell := rfl
@[simp] theorem Dev.setSource_opUs (k : Nat) (x : Source) : (d.setSource k x).opUs = d.opUs := rfl
@[simp] theorem Dev.setSource_cycles (k : Nat) (x : Source) : (d.setSource k x).cycles = d.cycles := rfl
@[simp] theorem Dev.setSource_free (k : Nat) (x : Source) : (d.setSource k x).free = d.free := rfl
@[simp] theorem Dev.setSource_out (k : Nat) (x : Source) : (d.setSource k x).out = d.out := rfl
@[simp] theorem Dev.setSource_mem (k : Nat) (x : Source) : (d.setSource k x).mem = d.mem := rfl
@[simp] theorem Dev.setSource_hostMem (k : Nat) (x : Source) : (d.setSource k x).hostMem = d.hostMem := rfl
@[simp] theorem Dev.setSource_poison (k : Nat) (x : Source) : (d.setSource k x).poison = d.poison := rfl
@[simp] theorem Dev.setSource_bank (k : Nat) (x : Source) : (d.setSource k x).bank = d.bank := rfl
@[simp] theorem Dev.setSource_rw (k : Nat) (x : Source) : (d.setSource k x).rw = d.rw := rfl
@[simp] theorem Dev.setSource_rc (k : Nat) (x : Source) : (d.setSource k x).rc = d.rc := rfl
@[simp] theorem Dev.setSource_host (k : Nat) (x : Source) : (d.setSource k x).host = d.host := rfl
@[simp] theorem Dev.setSource_ctxs (k : Nat) (x : Source) : (d.setSource k x).ctxs = d.ctxs := rfl
@[simp] theorem Dev.setSource_slots (k : Nat) (x : Source) : (d.setSource k x).slots = d.slots := rfl
@[simp] theorem Dev.setSource_pools (k : Nat) (x : Source) : (d.setSource k x).pools = d.pools := rfl
@[simp] theorem Dev.setSource_seqs (k : Nat) (x : Source) : (d.setSource k x).seqs = d.seqs := rfl
@[simp] theorem Dev.setSource_retired (k : Nat) (x : Source) : (d.setSource k x).retired = d.retired := rfl
@[simp] theorem Dev.setSource_allocs (k : Nat) (x : Source) : (d.setSource k x).allocs = d.allocs := rfl
@[simp] theorem Dev.setSource_extents (k : Nat) (x : Source) : (d.setSource k x).extents = d.extents := rfl
@[simp] theorem Dev.setSource_resvs (k : Nat) (x : Source) : (d.setSource k x).resvs = d.resvs := rfl
@[simp] theorem Dev.setSource_items (k : Nat) (x : Source) : (d.setSource k x).items = d.items := rfl
@[simp] theorem Dev.setSource_insts (k : Nat) (x : Source) : (d.setSource k x).insts = d.insts := rfl
@[simp] theorem Dev.setSource_nextOrder (k : Nat) (x : Source) : (d.setSource k x).nextOrder = d.nextOrder := rfl
@[simp] theorem Dev.setSource_chan (k : Nat) (x : Source) : (d.setSource k x).chan = d.chan := rfl
@[simp] theorem Dev.setSource_cores (k : Nat) (x : Source) : (d.setSource k x).cores = d.cores := rfl
@[simp] theorem Dev.setSource_clusters (k : Nat) (x : Source) : (d.setSource k x).clusters = d.clusters := rfl
@[simp] theorem Dev.setSource_hubs (k : Nat) (x : Source) : (d.setSource k x).hubs = d.hubs := rfl
@[simp] theorem Dev.setSource_deep (k : Nat) (x : Source) : (d.setSource k x).deep = d.deep := rfl
@[simp] theorem Dev.setSource_nextDeep (k : Nat) (x : Source) : (d.setSource k x).nextDeep = d.nextDeep := rfl
@[simp] theorem Dev.setSource_fab (k : Nat) (x : Source) : (d.setSource k x).fab = d.fab := rfl
@[simp] theorem Dev.setSource_xc (k : Nat) (x : Source) : (d.setSource k x).xc = d.xc := rfl
@[simp] theorem Dev.setSource_health (k : Nat) (x : Source) : (d.setSource k x).health = d.health := rfl
@[simp] theorem Dev.setSource_log (k : Nat) (x : Source) : (d.setSource k x).log = d.log := rfl
@[simp] theorem Dev.setSource_fw (k : Nat) (x : Source) : (d.setSource k x).fw = d.fw := rfl
@[simp] theorem Dev.setSource_pwr (k : Nat) (x : Source) : (d.setSource k x).pwr = d.pwr := rfl

/-! ### Dev.setPort -/

@[simp] theorem Dev.setPort_bell (k : Nat) (x : Port) : (d.setPort k x).bell = d.bell := rfl
@[simp] theorem Dev.setPort_opUs (k : Nat) (x : Port) : (d.setPort k x).opUs = d.opUs := rfl
@[simp] theorem Dev.setPort_cycles (k : Nat) (x : Port) : (d.setPort k x).cycles = d.cycles := rfl
@[simp] theorem Dev.setPort_free (k : Nat) (x : Port) : (d.setPort k x).free = d.free := rfl
@[simp] theorem Dev.setPort_out (k : Nat) (x : Port) : (d.setPort k x).out = d.out := rfl
@[simp] theorem Dev.setPort_mem (k : Nat) (x : Port) : (d.setPort k x).mem = d.mem := rfl
@[simp] theorem Dev.setPort_hostMem (k : Nat) (x : Port) : (d.setPort k x).hostMem = d.hostMem := rfl
@[simp] theorem Dev.setPort_poison (k : Nat) (x : Port) : (d.setPort k x).poison = d.poison := rfl
@[simp] theorem Dev.setPort_bank (k : Nat) (x : Port) : (d.setPort k x).bank = d.bank := rfl
@[simp] theorem Dev.setPort_rw (k : Nat) (x : Port) : (d.setPort k x).rw = d.rw := rfl
@[simp] theorem Dev.setPort_rc (k : Nat) (x : Port) : (d.setPort k x).rc = d.rc := rfl
@[simp] theorem Dev.setPort_host (k : Nat) (x : Port) : (d.setPort k x).host = d.host := rfl
@[simp] theorem Dev.setPort_ctxs (k : Nat) (x : Port) : (d.setPort k x).ctxs = d.ctxs := rfl
@[simp] theorem Dev.setPort_slots (k : Nat) (x : Port) : (d.setPort k x).slots = d.slots := rfl
@[simp] theorem Dev.setPort_pools (k : Nat) (x : Port) : (d.setPort k x).pools = d.pools := rfl
@[simp] theorem Dev.setPort_seqs (k : Nat) (x : Port) : (d.setPort k x).seqs = d.seqs := rfl
@[simp] theorem Dev.setPort_retired (k : Nat) (x : Port) : (d.setPort k x).retired = d.retired := rfl
@[simp] theorem Dev.setPort_allocs (k : Nat) (x : Port) : (d.setPort k x).allocs = d.allocs := rfl
@[simp] theorem Dev.setPort_extents (k : Nat) (x : Port) : (d.setPort k x).extents = d.extents := rfl
@[simp] theorem Dev.setPort_resvs (k : Nat) (x : Port) : (d.setPort k x).resvs = d.resvs := rfl
@[simp] theorem Dev.setPort_items (k : Nat) (x : Port) : (d.setPort k x).items = d.items := rfl
@[simp] theorem Dev.setPort_insts (k : Nat) (x : Port) : (d.setPort k x).insts = d.insts := rfl
@[simp] theorem Dev.setPort_nextOrder (k : Nat) (x : Port) : (d.setPort k x).nextOrder = d.nextOrder := rfl
@[simp] theorem Dev.setPort_chan (k : Nat) (x : Port) : (d.setPort k x).chan = d.chan := rfl
@[simp] theorem Dev.setPort_cores (k : Nat) (x : Port) : (d.setPort k x).cores = d.cores := rfl
@[simp] theorem Dev.setPort_clusters (k : Nat) (x : Port) : (d.setPort k x).clusters = d.clusters := rfl
@[simp] theorem Dev.setPort_hubs (k : Nat) (x : Port) : (d.setPort k x).hubs = d.hubs := rfl
@[simp] theorem Dev.setPort_sources (k : Nat) (x : Port) : (d.setPort k x).sources = d.sources := rfl
@[simp] theorem Dev.setPort_deep (k : Nat) (x : Port) : (d.setPort k x).deep = d.deep := rfl
@[simp] theorem Dev.setPort_nextDeep (k : Nat) (x : Port) : (d.setPort k x).nextDeep = d.nextDeep := rfl
@[simp] theorem Dev.setPort_xc (k : Nat) (x : Port) : (d.setPort k x).xc = d.xc := rfl
@[simp] theorem Dev.setPort_health (k : Nat) (x : Port) : (d.setPort k x).health = d.health := rfl
@[simp] theorem Dev.setPort_log (k : Nat) (x : Port) : (d.setPort k x).log = d.log := rfl
@[simp] theorem Dev.setPort_fw (k : Nat) (x : Port) : (d.setPort k x).fw = d.fw := rfl
@[simp] theorem Dev.setPort_pwr (k : Nat) (x : Port) : (d.setPort k x).pwr = d.pwr := rfl

/-! ### Dev.setHist -/

@[simp] theorem Dev.setHist_bell (k : Nat) (x : Hist) : (d.setHist k x).bell = d.bell := rfl
@[simp] theorem Dev.setHist_opUs (k : Nat) (x : Hist) : (d.setHist k x).opUs = d.opUs := rfl
@[simp] theorem Dev.setHist_cycles (k : Nat) (x : Hist) : (d.setHist k x).cycles = d.cycles := rfl
@[simp] theorem Dev.setHist_free (k : Nat) (x : Hist) : (d.setHist k x).free = d.free := rfl
@[simp] theorem Dev.setHist_out (k : Nat) (x : Hist) : (d.setHist k x).out = d.out := rfl
@[simp] theorem Dev.setHist_mem (k : Nat) (x : Hist) : (d.setHist k x).mem = d.mem := rfl
@[simp] theorem Dev.setHist_hostMem (k : Nat) (x : Hist) : (d.setHist k x).hostMem = d.hostMem := rfl
@[simp] theorem Dev.setHist_poison (k : Nat) (x : Hist) : (d.setHist k x).poison = d.poison := rfl
@[simp] theorem Dev.setHist_bank (k : Nat) (x : Hist) : (d.setHist k x).bank = d.bank := rfl
@[simp] theorem Dev.setHist_rw (k : Nat) (x : Hist) : (d.setHist k x).rw = d.rw := rfl
@[simp] theorem Dev.setHist_rc (k : Nat) (x : Hist) : (d.setHist k x).rc = d.rc := rfl
@[simp] theorem Dev.setHist_host (k : Nat) (x : Hist) : (d.setHist k x).host = d.host := rfl
@[simp] theorem Dev.setHist_ctxs (k : Nat) (x : Hist) : (d.setHist k x).ctxs = d.ctxs := rfl
@[simp] theorem Dev.setHist_slots (k : Nat) (x : Hist) : (d.setHist k x).slots = d.slots := rfl
@[simp] theorem Dev.setHist_pools (k : Nat) (x : Hist) : (d.setHist k x).pools = d.pools := rfl
@[simp] theorem Dev.setHist_seqs (k : Nat) (x : Hist) : (d.setHist k x).seqs = d.seqs := rfl
@[simp] theorem Dev.setHist_retired (k : Nat) (x : Hist) : (d.setHist k x).retired = d.retired := rfl
@[simp] theorem Dev.setHist_allocs (k : Nat) (x : Hist) : (d.setHist k x).allocs = d.allocs := rfl
@[simp] theorem Dev.setHist_extents (k : Nat) (x : Hist) : (d.setHist k x).extents = d.extents := rfl
@[simp] theorem Dev.setHist_resvs (k : Nat) (x : Hist) : (d.setHist k x).resvs = d.resvs := rfl
@[simp] theorem Dev.setHist_items (k : Nat) (x : Hist) : (d.setHist k x).items = d.items := rfl
@[simp] theorem Dev.setHist_insts (k : Nat) (x : Hist) : (d.setHist k x).insts = d.insts := rfl
@[simp] theorem Dev.setHist_nextOrder (k : Nat) (x : Hist) : (d.setHist k x).nextOrder = d.nextOrder := rfl
@[simp] theorem Dev.setHist_chan (k : Nat) (x : Hist) : (d.setHist k x).chan = d.chan := rfl
@[simp] theorem Dev.setHist_cores (k : Nat) (x : Hist) : (d.setHist k x).cores = d.cores := rfl
@[simp] theorem Dev.setHist_clusters (k : Nat) (x : Hist) : (d.setHist k x).clusters = d.clusters := rfl
@[simp] theorem Dev.setHist_hubs (k : Nat) (x : Hist) : (d.setHist k x).hubs = d.hubs := rfl
@[simp] theorem Dev.setHist_sources (k : Nat) (x : Hist) : (d.setHist k x).sources = d.sources := rfl
@[simp] theorem Dev.setHist_deep (k : Nat) (x : Hist) : (d.setHist k x).deep = d.deep := rfl
@[simp] theorem Dev.setHist_nextDeep (k : Nat) (x : Hist) : (d.setHist k x).nextDeep = d.nextDeep := rfl
@[simp] theorem Dev.setHist_fab (k : Nat) (x : Hist) : (d.setHist k x).fab = d.fab := rfl
@[simp] theorem Dev.setHist_xc (k : Nat) (x : Hist) : (d.setHist k x).xc = d.xc := rfl
@[simp] theorem Dev.setHist_log (k : Nat) (x : Hist) : (d.setHist k x).log = d.log := rfl
@[simp] theorem Dev.setHist_fw (k : Nat) (x : Hist) : (d.setHist k x).fw = d.fw := rfl
@[simp] theorem Dev.setHist_pwr (k : Nat) (x : Hist) : (d.setHist k x).pwr = d.pwr := rfl

/-! ### Dev.emit -/

@[simp] theorem Dev.emit_bell (e : Emit) : (d.emit e).bell = d.bell := rfl
@[simp] theorem Dev.emit_opUs (e : Emit) : (d.emit e).opUs = d.opUs := rfl
@[simp] theorem Dev.emit_cycles (e : Emit) : (d.emit e).cycles = d.cycles := rfl
@[simp] theorem Dev.emit_free (e : Emit) : (d.emit e).free = d.free := rfl
@[simp] theorem Dev.emit_mem (e : Emit) : (d.emit e).mem = d.mem := rfl
@[simp] theorem Dev.emit_hostMem (e : Emit) : (d.emit e).hostMem = d.hostMem := rfl
@[simp] theorem Dev.emit_poison (e : Emit) : (d.emit e).poison = d.poison := rfl
@[simp] theorem Dev.emit_bank (e : Emit) : (d.emit e).bank = d.bank := rfl
@[simp] theorem Dev.emit_rw (e : Emit) : (d.emit e).rw = d.rw := rfl
@[simp] theorem Dev.emit_rc (e : Emit) : (d.emit e).rc = d.rc := rfl
@[simp] theorem Dev.emit_host (e : Emit) : (d.emit e).host = d.host := rfl
@[simp] theorem Dev.emit_ctxs (e : Emit) : (d.emit e).ctxs = d.ctxs := rfl
@[simp] theorem Dev.emit_slots (e : Emit) : (d.emit e).slots = d.slots := rfl
@[simp] theorem Dev.emit_pools (e : Emit) : (d.emit e).pools = d.pools := rfl
@[simp] theorem Dev.emit_seqs (e : Emit) : (d.emit e).seqs = d.seqs := rfl
@[simp] theorem Dev.emit_retired (e : Emit) : (d.emit e).retired = d.retired := rfl
@[simp] theorem Dev.emit_allocs (e : Emit) : (d.emit e).allocs = d.allocs := rfl
@[simp] theorem Dev.emit_extents (e : Emit) : (d.emit e).extents = d.extents := rfl
@[simp] theorem Dev.emit_resvs (e : Emit) : (d.emit e).resvs = d.resvs := rfl
@[simp] theorem Dev.emit_items (e : Emit) : (d.emit e).items = d.items := rfl
@[simp] theorem Dev.emit_insts (e : Emit) : (d.emit e).insts = d.insts := rfl
@[simp] theorem Dev.emit_nextOrder (e : Emit) : (d.emit e).nextOrder = d.nextOrder := rfl
@[simp] theorem Dev.emit_chan (e : Emit) : (d.emit e).chan = d.chan := rfl
@[simp] theorem Dev.emit_cores (e : Emit) : (d.emit e).cores = d.cores := rfl
@[simp] theorem Dev.emit_clusters (e : Emit) : (d.emit e).clusters = d.clusters := rfl
@[simp] theorem Dev.emit_hubs (e : Emit) : (d.emit e).hubs = d.hubs := rfl
@[simp] theorem Dev.emit_sources (e : Emit) : (d.emit e).sources = d.sources := rfl
@[simp] theorem Dev.emit_deep (e : Emit) : (d.emit e).deep = d.deep := rfl
@[simp] theorem Dev.emit_nextDeep (e : Emit) : (d.emit e).nextDeep = d.nextDeep := rfl
@[simp] theorem Dev.emit_fab (e : Emit) : (d.emit e).fab = d.fab := rfl
@[simp] theorem Dev.emit_xc (e : Emit) : (d.emit e).xc = d.xc := rfl
@[simp] theorem Dev.emit_health (e : Emit) : (d.emit e).health = d.health := rfl
@[simp] theorem Dev.emit_log (e : Emit) : (d.emit e).log = d.log := rfl
@[simp] theorem Dev.emit_fw (e : Emit) : (d.emit e).fw = d.fw := rfl
@[simp] theorem Dev.emit_pwr (e : Emit) : (d.emit e).pwr = d.pwr := rfl

/-! ### Dev.drawn -/

@[simp] theorem Dev.drawn_bell : (d.drawn).bell = d.bell := rfl
@[simp] theorem Dev.drawn_opUs : (d.drawn).opUs = d.opUs := rfl
@[simp] theorem Dev.drawn_cycles : (d.drawn).cycles = d.cycles := rfl
@[simp] theorem Dev.drawn_out : (d.drawn).out = d.out := rfl
@[simp] theorem Dev.drawn_mem : (d.drawn).mem = d.mem := rfl
@[simp] theorem Dev.drawn_hostMem : (d.drawn).hostMem = d.hostMem := rfl
@[simp] theorem Dev.drawn_poison : (d.drawn).poison = d.poison := rfl
@[simp] theorem Dev.drawn_bank : (d.drawn).bank = d.bank := rfl
@[simp] theorem Dev.drawn_rw : (d.drawn).rw = d.rw := rfl
@[simp] theorem Dev.drawn_rc : (d.drawn).rc = d.rc := rfl
@[simp] theorem Dev.drawn_host : (d.drawn).host = d.host := rfl
@[simp] theorem Dev.drawn_ctxs : (d.drawn).ctxs = d.ctxs := rfl
@[simp] theorem Dev.drawn_slots : (d.drawn).slots = d.slots := rfl
@[simp] theorem Dev.drawn_pools : (d.drawn).pools = d.pools := rfl
@[simp] theorem Dev.drawn_seqs : (d.drawn).seqs = d.seqs := rfl
@[simp] theorem Dev.drawn_retired : (d.drawn).retired = d.retired := rfl
@[simp] theorem Dev.drawn_allocs : (d.drawn).allocs = d.allocs := rfl
@[simp] theorem Dev.drawn_extents : (d.drawn).extents = d.extents := rfl
@[simp] theorem Dev.drawn_resvs : (d.drawn).resvs = d.resvs := rfl
@[simp] theorem Dev.drawn_items : (d.drawn).items = d.items := rfl
@[simp] theorem Dev.drawn_insts : (d.drawn).insts = d.insts := rfl
@[simp] theorem Dev.drawn_nextOrder : (d.drawn).nextOrder = d.nextOrder := rfl
@[simp] theorem Dev.drawn_chan : (d.drawn).chan = d.chan := rfl
@[simp] theorem Dev.drawn_cores : (d.drawn).cores = d.cores := rfl
@[simp] theorem Dev.drawn_clusters : (d.drawn).clusters = d.clusters := rfl
@[simp] theorem Dev.drawn_hubs : (d.drawn).hubs = d.hubs := rfl
@[simp] theorem Dev.drawn_sources : (d.drawn).sources = d.sources := rfl
@[simp] theorem Dev.drawn_deep : (d.drawn).deep = d.deep := rfl
@[simp] theorem Dev.drawn_nextDeep : (d.drawn).nextDeep = d.nextDeep := rfl
@[simp] theorem Dev.drawn_fab : (d.drawn).fab = d.fab := rfl
@[simp] theorem Dev.drawn_xc : (d.drawn).xc = d.xc := rfl
@[simp] theorem Dev.drawn_health : (d.drawn).health = d.health := rfl
@[simp] theorem Dev.drawn_log : (d.drawn).log = d.log := rfl
@[simp] theorem Dev.drawn_fw : (d.drawn).fw = d.fw := rfl
@[simp] theorem Dev.drawn_pwr : (d.drawn).pwr = d.pwr := rfl

/-! ### Dev.store -/

@[simp] theorem Dev.store_bell (a : Nat) (b : List Byte) : (d.store a b).bell = d.bell := rfl
@[simp] theorem Dev.store_opUs (a : Nat) (b : List Byte) : (d.store a b).opUs = d.opUs := rfl
@[simp] theorem Dev.store_cycles (a : Nat) (b : List Byte) : (d.store a b).cycles = d.cycles := rfl
@[simp] theorem Dev.store_free (a : Nat) (b : List Byte) : (d.store a b).free = d.free := rfl
@[simp] theorem Dev.store_out (a : Nat) (b : List Byte) : (d.store a b).out = d.out := rfl
@[simp] theorem Dev.store_hostMem (a : Nat) (b : List Byte) : (d.store a b).hostMem = d.hostMem := rfl
@[simp] theorem Dev.store_poison (a : Nat) (b : List Byte) : (d.store a b).poison = d.poison := rfl
@[simp] theorem Dev.store_bank (a : Nat) (b : List Byte) : (d.store a b).bank = d.bank := rfl
@[simp] theorem Dev.store_rw (a : Nat) (b : List Byte) : (d.store a b).rw = d.rw := rfl
@[simp] theorem Dev.store_rc (a : Nat) (b : List Byte) : (d.store a b).rc = d.rc := rfl
@[simp] theorem Dev.store_host (a : Nat) (b : List Byte) : (d.store a b).host = d.host := rfl
@[simp] theorem Dev.store_ctxs (a : Nat) (b : List Byte) : (d.store a b).ctxs = d.ctxs := rfl
@[simp] theorem Dev.store_slots (a : Nat) (b : List Byte) : (d.store a b).slots = d.slots := rfl
@[simp] theorem Dev.store_pools (a : Nat) (b : List Byte) : (d.store a b).pools = d.pools := rfl
@[simp] theorem Dev.store_seqs (a : Nat) (b : List Byte) : (d.store a b).seqs = d.seqs := rfl
@[simp] theorem Dev.store_retired (a : Nat) (b : List Byte) : (d.store a b).retired = d.retired := rfl
@[simp] theorem Dev.store_allocs (a : Nat) (b : List Byte) : (d.store a b).allocs = d.allocs := rfl
@[simp] theorem Dev.store_extents (a : Nat) (b : List Byte) : (d.store a b).extents = d.extents := rfl
@[simp] theorem Dev.store_resvs (a : Nat) (b : List Byte) : (d.store a b).resvs = d.resvs := rfl
@[simp] theorem Dev.store_items (a : Nat) (b : List Byte) : (d.store a b).items = d.items := rfl
@[simp] theorem Dev.store_insts (a : Nat) (b : List Byte) : (d.store a b).insts = d.insts := rfl
@[simp] theorem Dev.store_nextOrder (a : Nat) (b : List Byte) : (d.store a b).nextOrder = d.nextOrder := rfl
@[simp] theorem Dev.store_chan (a : Nat) (b : List Byte) : (d.store a b).chan = d.chan := rfl
@[simp] theorem Dev.store_cores (a : Nat) (b : List Byte) : (d.store a b).cores = d.cores := rfl
@[simp] theorem Dev.store_clusters (a : Nat) (b : List Byte) : (d.store a b).clusters = d.clusters := rfl
@[simp] theorem Dev.store_hubs (a : Nat) (b : List Byte) : (d.store a b).hubs = d.hubs := rfl
@[simp] theorem Dev.store_sources (a : Nat) (b : List Byte) : (d.store a b).sources = d.sources := rfl
@[simp] theorem Dev.store_deep (a : Nat) (b : List Byte) : (d.store a b).deep = d.deep := rfl
@[simp] theorem Dev.store_nextDeep (a : Nat) (b : List Byte) : (d.store a b).nextDeep = d.nextDeep := rfl
@[simp] theorem Dev.store_fab (a : Nat) (b : List Byte) : (d.store a b).fab = d.fab := rfl
@[simp] theorem Dev.store_xc (a : Nat) (b : List Byte) : (d.store a b).xc = d.xc := rfl
@[simp] theorem Dev.store_health (a : Nat) (b : List Byte) : (d.store a b).health = d.health := rfl
@[simp] theorem Dev.store_log (a : Nat) (b : List Byte) : (d.store a b).log = d.log := rfl
@[simp] theorem Dev.store_fw (a : Nat) (b : List Byte) : (d.store a b).fw = d.fw := rfl
@[simp] theorem Dev.store_pwr (a : Nat) (b : List Byte) : (d.store a b).pwr = d.pwr := rfl

/-! ### Dev.storeHost -/

@[simp] theorem Dev.storeHost_bell (a : Nat) (b : List Byte) : (d.storeHost a b).bell = d.bell := rfl
@[simp] theorem Dev.storeHost_opUs (a : Nat) (b : List Byte) : (d.storeHost a b).opUs = d.opUs := rfl
@[simp] theorem Dev.storeHost_cycles (a : Nat) (b : List Byte) : (d.storeHost a b).cycles = d.cycles := rfl
@[simp] theorem Dev.storeHost_free (a : Nat) (b : List Byte) : (d.storeHost a b).free = d.free := rfl
@[simp] theorem Dev.storeHost_out (a : Nat) (b : List Byte) : (d.storeHost a b).out = d.out := rfl
@[simp] theorem Dev.storeHost_mem (a : Nat) (b : List Byte) : (d.storeHost a b).mem = d.mem := rfl
@[simp] theorem Dev.storeHost_poison (a : Nat) (b : List Byte) : (d.storeHost a b).poison = d.poison := rfl
@[simp] theorem Dev.storeHost_bank (a : Nat) (b : List Byte) : (d.storeHost a b).bank = d.bank := rfl
@[simp] theorem Dev.storeHost_rw (a : Nat) (b : List Byte) : (d.storeHost a b).rw = d.rw := rfl
@[simp] theorem Dev.storeHost_rc (a : Nat) (b : List Byte) : (d.storeHost a b).rc = d.rc := rfl
@[simp] theorem Dev.storeHost_host (a : Nat) (b : List Byte) : (d.storeHost a b).host = d.host := rfl
@[simp] theorem Dev.storeHost_ctxs (a : Nat) (b : List Byte) : (d.storeHost a b).ctxs = d.ctxs := rfl
@[simp] theorem Dev.storeHost_slots (a : Nat) (b : List Byte) : (d.storeHost a b).slots = d.slots := rfl
@[simp] theorem Dev.storeHost_pools (a : Nat) (b : List Byte) : (d.storeHost a b).pools = d.pools := rfl
@[simp] theorem Dev.storeHost_seqs (a : Nat) (b : List Byte) : (d.storeHost a b).seqs = d.seqs := rfl
@[simp] theorem Dev.storeHost_retired (a : Nat) (b : List Byte) : (d.storeHost a b).retired = d.retired := rfl
@[simp] theorem Dev.storeHost_allocs (a : Nat) (b : List Byte) : (d.storeHost a b).allocs = d.allocs := rfl
@[simp] theorem Dev.storeHost_extents (a : Nat) (b : List Byte) : (d.storeHost a b).extents = d.extents := rfl
@[simp] theorem Dev.storeHost_resvs (a : Nat) (b : List Byte) : (d.storeHost a b).resvs = d.resvs := rfl
@[simp] theorem Dev.storeHost_items (a : Nat) (b : List Byte) : (d.storeHost a b).items = d.items := rfl
@[simp] theorem Dev.storeHost_insts (a : Nat) (b : List Byte) : (d.storeHost a b).insts = d.insts := rfl
@[simp] theorem Dev.storeHost_nextOrder (a : Nat) (b : List Byte) : (d.storeHost a b).nextOrder = d.nextOrder := rfl
@[simp] theorem Dev.storeHost_chan (a : Nat) (b : List Byte) : (d.storeHost a b).chan = d.chan := rfl
@[simp] theorem Dev.storeHost_cores (a : Nat) (b : List Byte) : (d.storeHost a b).cores = d.cores := rfl
@[simp] theorem Dev.storeHost_clusters (a : Nat) (b : List Byte) : (d.storeHost a b).clusters = d.clusters := rfl
@[simp] theorem Dev.storeHost_hubs (a : Nat) (b : List Byte) : (d.storeHost a b).hubs = d.hubs := rfl
@[simp] theorem Dev.storeHost_sources (a : Nat) (b : List Byte) : (d.storeHost a b).sources = d.sources := rfl
@[simp] theorem Dev.storeHost_deep (a : Nat) (b : List Byte) : (d.storeHost a b).deep = d.deep := rfl
@[simp] theorem Dev.storeHost_nextDeep (a : Nat) (b : List Byte) : (d.storeHost a b).nextDeep = d.nextDeep := rfl
@[simp] theorem Dev.storeHost_fab (a : Nat) (b : List Byte) : (d.storeHost a b).fab = d.fab := rfl
@[simp] theorem Dev.storeHost_xc (a : Nat) (b : List Byte) : (d.storeHost a b).xc = d.xc := rfl
@[simp] theorem Dev.storeHost_health (a : Nat) (b : List Byte) : (d.storeHost a b).health = d.health := rfl
@[simp] theorem Dev.storeHost_log (a : Nat) (b : List Byte) : (d.storeHost a b).log = d.log := rfl
@[simp] theorem Dev.storeHost_fw (a : Nat) (b : List Byte) : (d.storeHost a b).fw = d.fw := rfl
@[simp] theorem Dev.storeHost_pwr (a : Nat) (b : List Byte) : (d.storeHost a b).pwr = d.pwr := rfl

/-! ### Dev.writeMem -/

@[simp] theorem Dev.writeMem_bell (a : Nat) (b : List Byte) : (d.writeMem a b).bell = d.bell := rfl
@[simp] theorem Dev.writeMem_opUs (a : Nat) (b : List Byte) : (d.writeMem a b).opUs = d.opUs := rfl
@[simp] theorem Dev.writeMem_cycles (a : Nat) (b : List Byte) : (d.writeMem a b).cycles = d.cycles := rfl
@[simp] theorem Dev.writeMem_free (a : Nat) (b : List Byte) : (d.writeMem a b).free = d.free := rfl
@[simp] theorem Dev.writeMem_out (a : Nat) (b : List Byte) : (d.writeMem a b).out = d.out := rfl
@[simp] theorem Dev.writeMem_hostMem (a : Nat) (b : List Byte) : (d.writeMem a b).hostMem = d.hostMem := rfl
@[simp] theorem Dev.writeMem_bank (a : Nat) (b : List Byte) : (d.writeMem a b).bank = d.bank := rfl
@[simp] theorem Dev.writeMem_rw (a : Nat) (b : List Byte) : (d.writeMem a b).rw = d.rw := rfl
@[simp] theorem Dev.writeMem_rc (a : Nat) (b : List Byte) : (d.writeMem a b).rc = d.rc := rfl
@[simp] theorem Dev.writeMem_host (a : Nat) (b : List Byte) : (d.writeMem a b).host = d.host := rfl
@[simp] theorem Dev.writeMem_ctxs (a : Nat) (b : List Byte) : (d.writeMem a b).ctxs = d.ctxs := rfl
@[simp] theorem Dev.writeMem_slots (a : Nat) (b : List Byte) : (d.writeMem a b).slots = d.slots := rfl
@[simp] theorem Dev.writeMem_pools (a : Nat) (b : List Byte) : (d.writeMem a b).pools = d.pools := rfl
@[simp] theorem Dev.writeMem_seqs (a : Nat) (b : List Byte) : (d.writeMem a b).seqs = d.seqs := rfl
@[simp] theorem Dev.writeMem_retired (a : Nat) (b : List Byte) : (d.writeMem a b).retired = d.retired := rfl
@[simp] theorem Dev.writeMem_allocs (a : Nat) (b : List Byte) : (d.writeMem a b).allocs = d.allocs := rfl
@[simp] theorem Dev.writeMem_extents (a : Nat) (b : List Byte) : (d.writeMem a b).extents = d.extents := rfl
@[simp] theorem Dev.writeMem_resvs (a : Nat) (b : List Byte) : (d.writeMem a b).resvs = d.resvs := rfl
@[simp] theorem Dev.writeMem_items (a : Nat) (b : List Byte) : (d.writeMem a b).items = d.items := rfl
@[simp] theorem Dev.writeMem_insts (a : Nat) (b : List Byte) : (d.writeMem a b).insts = d.insts := rfl
@[simp] theorem Dev.writeMem_nextOrder (a : Nat) (b : List Byte) : (d.writeMem a b).nextOrder = d.nextOrder := rfl
@[simp] theorem Dev.writeMem_chan (a : Nat) (b : List Byte) : (d.writeMem a b).chan = d.chan := rfl
@[simp] theorem Dev.writeMem_cores (a : Nat) (b : List Byte) : (d.writeMem a b).cores = d.cores := rfl
@[simp] theorem Dev.writeMem_clusters (a : Nat) (b : List Byte) : (d.writeMem a b).clusters = d.clusters := rfl
@[simp] theorem Dev.writeMem_hubs (a : Nat) (b : List Byte) : (d.writeMem a b).hubs = d.hubs := rfl
@[simp] theorem Dev.writeMem_sources (a : Nat) (b : List Byte) : (d.writeMem a b).sources = d.sources := rfl
@[simp] theorem Dev.writeMem_deep (a : Nat) (b : List Byte) : (d.writeMem a b).deep = d.deep := rfl
@[simp] theorem Dev.writeMem_nextDeep (a : Nat) (b : List Byte) : (d.writeMem a b).nextDeep = d.nextDeep := rfl
@[simp] theorem Dev.writeMem_fab (a : Nat) (b : List Byte) : (d.writeMem a b).fab = d.fab := rfl
@[simp] theorem Dev.writeMem_xc (a : Nat) (b : List Byte) : (d.writeMem a b).xc = d.xc := rfl
@[simp] theorem Dev.writeMem_health (a : Nat) (b : List Byte) : (d.writeMem a b).health = d.health := rfl
@[simp] theorem Dev.writeMem_log (a : Nat) (b : List Byte) : (d.writeMem a b).log = d.log := rfl
@[simp] theorem Dev.writeMem_fw (a : Nat) (b : List Byte) : (d.writeMem a b).fw = d.fw := rfl
@[simp] theorem Dev.writeMem_pwr (a : Nat) (b : List Byte) : (d.writeMem a b).pwr = d.pwr := rfl

/-! ### Dev.rwPut -/

@[simp] theorem Dev.rwPut_bell (i o r v : Nat) : (d.rwPut i o r v).bell = d.bell := rfl
@[simp] theorem Dev.rwPut_opUs (i o r v : Nat) : (d.rwPut i o r v).opUs = d.opUs := rfl
@[simp] theorem Dev.rwPut_cycles (i o r v : Nat) : (d.rwPut i o r v).cycles = d.cycles := rfl
@[simp] theorem Dev.rwPut_free (i o r v : Nat) : (d.rwPut i o r v).free = d.free := rfl
@[simp] theorem Dev.rwPut_out (i o r v : Nat) : (d.rwPut i o r v).out = d.out := rfl
@[simp] theorem Dev.rwPut_mem (i o r v : Nat) : (d.rwPut i o r v).mem = d.mem := rfl
@[simp] theorem Dev.rwPut_hostMem (i o r v : Nat) : (d.rwPut i o r v).hostMem = d.hostMem := rfl
@[simp] theorem Dev.rwPut_poison (i o r v : Nat) : (d.rwPut i o r v).poison = d.poison := rfl
@[simp] theorem Dev.rwPut_bank (i o r v : Nat) : (d.rwPut i o r v).bank = d.bank := rfl
@[simp] theorem Dev.rwPut_rc (i o r v : Nat) : (d.rwPut i o r v).rc = d.rc := rfl
@[simp] theorem Dev.rwPut_host (i o r v : Nat) : (d.rwPut i o r v).host = d.host := rfl
@[simp] theorem Dev.rwPut_ctxs (i o r v : Nat) : (d.rwPut i o r v).ctxs = d.ctxs := rfl
@[simp] theorem Dev.rwPut_slots (i o r v : Nat) : (d.rwPut i o r v).slots = d.slots := rfl
@[simp] theorem Dev.rwPut_pools (i o r v : Nat) : (d.rwPut i o r v).pools = d.pools := rfl
@[simp] theorem Dev.rwPut_seqs (i o r v : Nat) : (d.rwPut i o r v).seqs = d.seqs := rfl
@[simp] theorem Dev.rwPut_retired (i o r v : Nat) : (d.rwPut i o r v).retired = d.retired := rfl
@[simp] theorem Dev.rwPut_allocs (i o r v : Nat) : (d.rwPut i o r v).allocs = d.allocs := rfl
@[simp] theorem Dev.rwPut_extents (i o r v : Nat) : (d.rwPut i o r v).extents = d.extents := rfl
@[simp] theorem Dev.rwPut_resvs (i o r v : Nat) : (d.rwPut i o r v).resvs = d.resvs := rfl
@[simp] theorem Dev.rwPut_items (i o r v : Nat) : (d.rwPut i o r v).items = d.items := rfl
@[simp] theorem Dev.rwPut_insts (i o r v : Nat) : (d.rwPut i o r v).insts = d.insts := rfl
@[simp] theorem Dev.rwPut_nextOrder (i o r v : Nat) : (d.rwPut i o r v).nextOrder = d.nextOrder := rfl
@[simp] theorem Dev.rwPut_chan (i o r v : Nat) : (d.rwPut i o r v).chan = d.chan := rfl
@[simp] theorem Dev.rwPut_cores (i o r v : Nat) : (d.rwPut i o r v).cores = d.cores := rfl
@[simp] theorem Dev.rwPut_clusters (i o r v : Nat) : (d.rwPut i o r v).clusters = d.clusters := rfl
@[simp] theorem Dev.rwPut_hubs (i o r v : Nat) : (d.rwPut i o r v).hubs = d.hubs := rfl
@[simp] theorem Dev.rwPut_sources (i o r v : Nat) : (d.rwPut i o r v).sources = d.sources := rfl
@[simp] theorem Dev.rwPut_deep (i o r v : Nat) : (d.rwPut i o r v).deep = d.deep := rfl
@[simp] theorem Dev.rwPut_nextDeep (i o r v : Nat) : (d.rwPut i o r v).nextDeep = d.nextDeep := rfl
@[simp] theorem Dev.rwPut_fab (i o r v : Nat) : (d.rwPut i o r v).fab = d.fab := rfl
@[simp] theorem Dev.rwPut_xc (i o r v : Nat) : (d.rwPut i o r v).xc = d.xc := rfl
@[simp] theorem Dev.rwPut_health (i o r v : Nat) : (d.rwPut i o r v).health = d.health := rfl
@[simp] theorem Dev.rwPut_log (i o r v : Nat) : (d.rwPut i o r v).log = d.log := rfl
@[simp] theorem Dev.rwPut_fw (i o r v : Nat) : (d.rwPut i o r v).fw = d.fw := rfl
@[simp] theorem Dev.rwPut_pwr (i o r v : Nat) : (d.rwPut i o r v).pwr = d.pwr := rfl

/-! ### Dev.rcPut -/

@[simp] theorem Dev.rcPut_bell (i o v : Nat) : (d.rcPut i o v).bell = d.bell := rfl
@[simp] theorem Dev.rcPut_opUs (i o v : Nat) : (d.rcPut i o v).opUs = d.opUs := rfl
@[simp] theorem Dev.rcPut_cycles (i o v : Nat) : (d.rcPut i o v).cycles = d.cycles := rfl
@[simp] theorem Dev.rcPut_free (i o v : Nat) : (d.rcPut i o v).free = d.free := rfl
@[simp] theorem Dev.rcPut_out (i o v : Nat) : (d.rcPut i o v).out = d.out := rfl
@[simp] theorem Dev.rcPut_mem (i o v : Nat) : (d.rcPut i o v).mem = d.mem := rfl
@[simp] theorem Dev.rcPut_hostMem (i o v : Nat) : (d.rcPut i o v).hostMem = d.hostMem := rfl
@[simp] theorem Dev.rcPut_poison (i o v : Nat) : (d.rcPut i o v).poison = d.poison := rfl
@[simp] theorem Dev.rcPut_bank (i o v : Nat) : (d.rcPut i o v).bank = d.bank := rfl
@[simp] theorem Dev.rcPut_rw (i o v : Nat) : (d.rcPut i o v).rw = d.rw := rfl
@[simp] theorem Dev.rcPut_host (i o v : Nat) : (d.rcPut i o v).host = d.host := rfl
@[simp] theorem Dev.rcPut_ctxs (i o v : Nat) : (d.rcPut i o v).ctxs = d.ctxs := rfl
@[simp] theorem Dev.rcPut_slots (i o v : Nat) : (d.rcPut i o v).slots = d.slots := rfl
@[simp] theorem Dev.rcPut_pools (i o v : Nat) : (d.rcPut i o v).pools = d.pools := rfl
@[simp] theorem Dev.rcPut_seqs (i o v : Nat) : (d.rcPut i o v).seqs = d.seqs := rfl
@[simp] theorem Dev.rcPut_retired (i o v : Nat) : (d.rcPut i o v).retired = d.retired := rfl
@[simp] theorem Dev.rcPut_allocs (i o v : Nat) : (d.rcPut i o v).allocs = d.allocs := rfl
@[simp] theorem Dev.rcPut_extents (i o v : Nat) : (d.rcPut i o v).extents = d.extents := rfl
@[simp] theorem Dev.rcPut_resvs (i o v : Nat) : (d.rcPut i o v).resvs = d.resvs := rfl
@[simp] theorem Dev.rcPut_items (i o v : Nat) : (d.rcPut i o v).items = d.items := rfl
@[simp] theorem Dev.rcPut_insts (i o v : Nat) : (d.rcPut i o v).insts = d.insts := rfl
@[simp] theorem Dev.rcPut_nextOrder (i o v : Nat) : (d.rcPut i o v).nextOrder = d.nextOrder := rfl
@[simp] theorem Dev.rcPut_chan (i o v : Nat) : (d.rcPut i o v).chan = d.chan := rfl
@[simp] theorem Dev.rcPut_cores (i o v : Nat) : (d.rcPut i o v).cores = d.cores := rfl
@[simp] theorem Dev.rcPut_clusters (i o v : Nat) : (d.rcPut i o v).clusters = d.clusters := rfl
@[simp] theorem Dev.rcPut_hubs (i o v : Nat) : (d.rcPut i o v).hubs = d.hubs := rfl
@[simp] theorem Dev.rcPut_sources (i o v : Nat) : (d.rcPut i o v).sources = d.sources := rfl
@[simp] theorem Dev.rcPut_deep (i o v : Nat) : (d.rcPut i o v).deep = d.deep := rfl
@[simp] theorem Dev.rcPut_nextDeep (i o v : Nat) : (d.rcPut i o v).nextDeep = d.nextDeep := rfl
@[simp] theorem Dev.rcPut_fab (i o v : Nat) : (d.rcPut i o v).fab = d.fab := rfl
@[simp] theorem Dev.rcPut_xc (i o v : Nat) : (d.rcPut i o v).xc = d.xc := rfl
@[simp] theorem Dev.rcPut_health (i o v : Nat) : (d.rcPut i o v).health = d.health := rfl
@[simp] theorem Dev.rcPut_log (i o v : Nat) : (d.rcPut i o v).log = d.log := rfl
@[simp] theorem Dev.rcPut_fw (i o v : Nat) : (d.rcPut i o v).fw = d.fw := rfl
@[simp] theorem Dev.rcPut_pwr (i o v : Nat) : (d.rcPut i o v).pwr = d.pwr := rfl

/-! ## Reads after writes in finite maps -/

section Maps
variable {α : Type}

@[simp] theorem SMap.find?_insert_self (m : SMap α) (i : Nat) (x : α) : (m.insert i x).find? i = some x := by
  induction m with
  | nil => simp [SMap.insert, SMap.find?]
  | cons p r ih =>
    obtain ⟨k, v⟩ := p
    simp only [SMap.insert]
    split
    · simp [SMap.find?]
    · split
      · simp [SMap.find?]
      · next h => simp [SMap.find?, ih, Ne.symm h]

theorem SMap.find?_insert_ne (m : SMap α) {i j : Nat} (x : α) (h : i ≠ j) : (m.insert i x).find? j = m.find? j := by
  induction m with
  | nil => simp [SMap.insert, SMap.find?, h]
  | cons p r ih =>
    obtain ⟨k, v⟩ := p
    simp only [SMap.insert]
    split
    · simp [SMap.find?, h]
    · split
      · next _ e => subst e; simp [SMap.find?, h]
      · simp [SMap.find?, ih]

theorem SMap.find?_erase_ne (m : SMap α) {i j : Nat} (h : i ≠ j) : (m.erase i).find? j = m.find? j := by
  induction m with
  | nil => rfl
  | cons p r ih =>
    obtain ⟨k, v⟩ := p
    simp only [SMap.erase]
    split
    · next e => subst e; simp [SMap.find?, h, ih]
    · simp [SMap.find?, ih]

theorem SMap.sortedFrom_none (m : SMap α) {lo : Nat} (h : SMap.sortedFrom (some lo) m = true) : SMap.sortedFrom none m = true := by
  cases m with
  | nil => rfl
  | cons p r => simp only [SMap.sortedFrom, Bool.and_eq_true] at h ⊢; exact h.2

@[simp] theorem SMap.find?_erase_self (m : SMap α) (i : Nat) : (m.erase i).find? i = none := by
  induction m with
  | nil => rfl
  | cons p r ih =>
    obtain ⟨k, v⟩ := p
    simp only [SMap.erase]
    split
    · exact ih
    · next e => simp [SMap.find?, Ne.symm e, ih]

theorem SMap.get_insert_self (m : SMap α) (dflt : α) (i : Nat) (x : α) : SMap.get (m.insert i x) dflt i = x := by
  simp [SMap.get]

/-- Reading another key after a write gives what it gave before. -/
theorem SMap.get_put_ne [DecidableEq α] (m : SMap α) (dflt : α) {i j : Nat} (x : α) (h : i ≠ j) :
    SMap.get (m.put dflt i x) dflt j = SMap.get m dflt j := by
  unfold SMap.put SMap.get
  split
  · rw [SMap.find?_erase_ne m h]
  · rw [SMap.find?_insert_ne m x h]

/-- Reading a key after writing it gives the value written. -/
@[simp] theorem SMap.get_put_self [DecidableEq α] (m : SMap α) (dflt : α) (i : Nat) (x : α) : SMap.get (m.put dflt i x) dflt i = x := by
  unfold SMap.put SMap.get
  split
  · next e => rw [SMap.find?_erase_self m i, e]; rfl
  · simp

/-! ## The canonical form is kept -/

theorem SMap.sortedFrom_mono (m : SMap α) {a b : Nat} (h : SMap.sortedFrom (some b) m = true) (hab : a ≤ b) :
    SMap.sortedFrom (some a) m = true := by
  cases m with
  | nil => rfl
  | cons p r => simp only [SMap.sortedFrom, Bool.and_eq_true, decide_eq_true_eq] at h ⊢; exact ⟨by omega, h.2⟩

theorem SMap.sortedFrom_insert (m : SMap α) (lo : Option Nat) (i : Nat) (x : α) (hs : SMap.sortedFrom lo m = true)
    (hi : ∀ l, lo = some l → l < i) : SMap.sortedFrom lo (m.insert i x) = true := by
  induction m generalizing lo with
  | nil => cases lo <;> simp_all [SMap.insert, SMap.sortedFrom]
  | cons p r ih =>
    obtain ⟨k, v⟩ := p
    have hr : SMap.sortedFrom (some k) r = true := by cases lo <;> simp_all [SMap.sortedFrom]
    have hk : ∀ l, lo = some l → l < k := by intro l e; subst e; simp_all [SMap.sortedFrom]
    have key : ∀ (j : Nat) (y : α) (t : SMap α), (∀ l, lo = some l → l < j) → SMap.sortedFrom (some j) t = true →
        SMap.sortedFrom lo ((j, y) :: t) = true := by
      intro j y t h1 h2; cases lo <;> simp_all [SMap.sortedFrom]
    simp only [SMap.insert]
    split
    · exact key i x _ hi (by simp only [SMap.sortedFrom, Bool.and_eq_true, decide_eq_true_eq]; exact ⟨by assumption, hr⟩)
    · split
      · next e => subst e; exact key i x r hi hr
      · exact key k v _ hk (ih (some k) hr (by intro l e; cases e; omega))

theorem SMap.sortedFrom_erase (m : SMap α) (lo : Option Nat) (i : Nat) (hs : SMap.sortedFrom lo m = true) :
    SMap.sortedFrom lo (m.erase i) = true := by
  induction m generalizing lo with
  | nil => rfl
  | cons p r ih =>
    obtain ⟨k, v⟩ := p
    have hr : SMap.sortedFrom (some k) r = true := by cases lo <;> simp_all [SMap.sortedFrom]
    simp only [SMap.erase]
    split
    · cases lo with
      | none => exact ih none (SMap.sortedFrom_none r hr)
      | some l =>
        simp only [SMap.sortedFrom, Bool.and_eq_true, decide_eq_true_eq] at hs
        exact ih (some l) (SMap.sortedFrom_mono r hr (by omega))
    · have := ih (some k) hr
      cases lo <;> simp_all [SMap.sortedFrom]

theorem SMap.sortedFrom_filter (m : SMap α) (lo : Option Nat) (p : Nat × α → Bool) (hs : SMap.sortedFrom lo m = true) :
    SMap.sortedFrom lo (m.filter p) = true := by
  induction m generalizing lo with
  | nil => rfl
  | cons q r ih =>
    obtain ⟨k, v⟩ := q
    have hr : SMap.sortedFrom (some k) r = true := by cases lo <;> simp_all [SMap.sortedFrom]
    simp only [List.filter]
    split
    · have := ih (some k) hr
      cases lo <;> simp_all [SMap.sortedFrom]
    · cases lo with
      | none => exact ih none (SMap.sortedFrom_none r hr)
      | some l =>
        simp only [SMap.sortedFrom, Bool.and_eq_true, decide_eq_true_eq] at hs
        exact ih (some l) (SMap.sortedFrom_mono r hr (by omega))

theorem SMap.mem_insert (m : SMap α) (i : Nat) (x : α) (p : Nat × α) (h : p ∈ m.insert i x) : p = (i, x) ∨ p ∈ m := by
  induction m with
  | nil => simp_all [SMap.insert]
  | cons q r ih =>
    obtain ⟨k, v⟩ := q
    simp only [SMap.insert] at h
    split at h
    · simp_all
    · split at h
      · simp only [List.mem_cons] at h ⊢; tauto
      · simp only [List.mem_cons] at h ⊢
        rcases h with h | h
        · exact Or.inr (Or.inl h)
        · rcases ih h with h | h <;> tauto

theorem SMap.mem_erase (m : SMap α) (i : Nat) (p : Nat × α) (h : p ∈ m.erase i) : p ∈ m := by
  induction m with
  | nil => simp_all [SMap.erase]
  | cons q r ih =>
    obtain ⟨k, v⟩ := q
    simp only [SMap.erase] at h
    split at h
    · exact List.mem_cons_of_mem _ (ih h)
    · simp only [List.mem_cons] at h ⊢
      rcases h with h | h
      · exact Or.inl h
      · exact Or.inr (ih h)

variable [DecidableEq α]

theorem SMap.wf_iff (dflt : α) (m : SMap α) :
    SMap.wf dflt m = true ↔ SMap.sortedFrom none m = true ∧ ∀ p ∈ m, p.2 ≠ dflt := by
  simp [SMap.wf, List.all_eq_true]

/-- Every write keeps the canonical form. -/
theorem SMap.wf_put (dflt : α) (m : SMap α) (i : Nat) (x : α) (h : SMap.wf dflt m = true) : SMap.wf dflt (m.put dflt i x) = true := by
  rw [SMap.wf_iff] at h ⊢
  unfold SMap.put
  split
  · exact ⟨SMap.sortedFrom_erase m none i h.1, fun p hp => h.2 p (SMap.mem_erase m i p hp)⟩
  · next hx =>
    refine ⟨SMap.sortedFrom_insert m none i x h.1 (by simp), fun p hp => ?_⟩
    rcases SMap.mem_insert m i x p hp with e | e
    · subst e; exact hx
    · exact h.2 p e

/-- Leaving entries out keeps the canonical form. -/
theorem SMap.wf_filter (dflt : α) (m : SMap α) (p : Nat × α → Bool) (h : SMap.wf dflt m = true) :
    SMap.wf dflt (m.filter p) = true := by
  rw [SMap.wf_iff] at h ⊢
  exact ⟨SMap.sortedFrom_filter m none p h.1, fun q hq => h.2 q (List.mem_of_mem_filter hq)⟩

end Maps

/-! ## Memory -/

theorem Memory.wf_nil : Memory.wf [] = true := rfl

theorem Memory.wf_write (m : Memory) (a : Nat) (b : Byte) (h : m.wf = true) : (m.write a b).wf = true := SMap.wf_put 0 m a b h

theorem Memory.wf_writeBytes (m : Memory) (a : Nat) (l : List Byte) (h : m.wf = true) : (m.writeBytes a l).wf = true := by
  induction l generalizing m a with
  | nil => exact h
  | cons b r ih => exact ih _ _ (Memory.wf_write m a b h)

theorem Memory.wf_filter (m : Memory) (p : Host.Cell → Bool) (h : m.wf = true) : Memory.wf (m.filter p) = true :=
  SMap.wf_filter 0 m p h

theorem Memory.read_write_ne (m : Memory) {a x : Nat} (b : Byte) (h : a ≠ x) : (m.write a b).read x = m.read x :=
  SMap.get_put_ne m 0 b h

theorem Memory.read_write_self (m : Memory) (a : Nat) (b : Byte) : (m.write a b).read a = b :=
  SMap.get_put_self m 0 a b

/-- A write of bytes leaves every byte outside them as it was. -/
theorem Memory.read_writeBytes_out (m : Memory) (a x : Nat) (l : List Byte) (h : x < a ∨ a + l.length ≤ x) :
    (m.writeBytes a l).read x = m.read x := by
  induction l generalizing m a with
  | nil => rfl
  | cons b r ih =>
    simp only [List.length_cons] at h
    rw [Memory.writeBytes, ih _ _ (by omega), Memory.read_write_ne m b (by omega)]

/-- A write of bytes is read back. -/
theorem Memory.read_writeBytes_in (m : Memory) (a i : Nat) (l : List Byte) (h : i < l.length) :
    (m.writeBytes a l).read (a + i) = l[i] := by
  induction l generalizing m a i with
  | nil => simp at h
  | cons b r ih =>
    rw [Memory.writeBytes]
    cases i with
    | zero =>
      rw [Nat.add_zero, Memory.read_writeBytes_out _ _ _ _ (by omega)]; exact Memory.read_write_self m a b
    | succ n =>
      have := ih (m.write a b) (a + 1) n (by simpa using h)
      rw [show a + (n + 1) = a + 1 + n by omega, this]; rfl

/-! ## Reads after writes of the device's parts -/

theorem Dev.ctx_setCtx_ne {c k : Nat} (x : Ctx) (h : c ≠ k) : (d.setCtx c x).ctx k = d.ctx k := SMap.get_put_ne _ _ _ h
theorem Dev.ring_setRing_ne {s k : Nat} (x : Ring) (h : s ≠ k) : (d.setRing s x).ring k = d.ring k := SMap.get_put_ne _ _ _ h
@[simp] theorem Dev.ctx_setCtx (c : Nat) (x : Ctx) : (d.setCtx c x).ctx c = x := SMap.get_put_self _ _ _ _
@[simp] theorem Dev.ring_setRing (s : Nat) (x : Ring) : (d.setRing s x).ring s = x := SMap.get_put_self _ _ _ _
@[simp] theorem Dev.ctx_setRing (s : Nat) (x : Ring) (c : Nat) : (d.setRing s x).ctx c = d.ctx c := rfl
@[simp] theorem Dev.ring_setCtx (c : Nat) (x : Ctx) (s : Nat) : (d.setCtx c x).ring s = d.ring s := rfl

end Sys2Proof.Machine
end

