-- ==== Sys2Proof/Laws/Mailbox.lean ====
section
/-! SUPPORT. What the mailbox service does with an entry, said once: which checks it passes, what its answer changes, and
when what waits stays as it is (R398, R399). -/

namespace Sys2Proof.Machine

variable (d : Dev) (h : Hdr)

/-! ## Taking an entry -/

@[simp] theorem Dev.take_ctxs : (d.take h).ctxs = d.ctxs := rfl
@[simp] theorem Dev.take_ctx (c : Nat) : (d.take h).ctx c = d.ctx c := rfl
@[simp] theorem Dev.take_mem : (d.take h).mem = d.mem := rfl
@[simp] theorem Dev.take_hostMem : (d.take h).hostMem = d.hostMem := rfl
@[simp] theorem Dev.take_ownsCtx (s : Nat) : (d.take h).ownsCtx s = d.ownsCtx s := rfl
@[simp] theorem Dev.take_inflight : (d.take h).host.inflight = d.host.inflight := rfl

/-- Taking an entry moves the head of its ring set past it and changes nothing else of it. -/
@[simp] theorem Dev.take_ring : (d.take h).ring h.set = { d.ring h.set with cmdHead := (h.index + 1) % (d.ring h.set).size } :=
  Dev.ring_setRing _ _ _

theorem Dev.take_session (hs : (d.ring h.set).session = true) : ((d.take h).ring h.set).session = true := by
  rw [Dev.take_ring]; exact hs

/-! ## Entries that pass -/

theorem Dev.entryFail_session (idem : Bool) (hd : d.inSession h idem) :
    (d.take h).entryFail h { idem := idem } = none := by
  obtain ⟨⟨-, h1, h2⟩, h3, h4⟩ := hd
  unfold Dev.entryFail
  rw [Dev.take_session d h h3]
  rcases hi : h.idem with _ | _ <;> simp_all [Dev.ctxFail]

theorem Dev.entryFail_context (idem : Bool) (hd : d.inContext h idem) :
    (d.take h).entryFail h { idem := idem, ctx := .owned } = none := by
  obtain ⟨⟨-, h1, h2⟩, h3, h4, h5, h6, h7⟩ := hd
  have h8 : (d.take h).ctxFail h .owned = none := by
    unfold Dev.ctxFail
    rw [Dev.take_ctx]
    simp only [h5, h6, h7]
    simp
    omega
  unfold Dev.entryFail
  rw [Dev.take_session d h h3]
  rcases hi : h.idem with _ | _ <;> simp_all

theorem Dev.entryFail_free (idem : Bool) (hd : d.inFreeSession h idem) :
    (d.take h).entryFail h { idem := idem, free := true } = none := by
  obtain ⟨⟨⟨-, h1, h2⟩, h3, h4⟩, h5⟩ := hd
  unfold Dev.entryFail
  rw [Dev.take_session d h h3]
  rcases hi : h.idem with _ | _ <;> simp_all [Dev.ctxFail]

/-! ## The answer -/

/-- A command whose action ends: it is answered, and what waits has another turn. -/
theorem Dev.command_done {cmd : Instr} {k : CmdKind} {act : Dev → Reply} (ht : d.takes h = true)
    (hf : (d.take h).entryFail h k = none) (hs : (act (d.take h)).silent = false) (hw : (act (d.take h)).waits = false) :
    d.command h cmd k act = (act (d.take h)).dev.completed h (act (d.take h)).status (act (d.take h)).words := by
  simp [Dev.command, Dev.serve, Dev.completed, ht, hf, hs, hw]

/-- The outcome of a command whose effect on the device is known. -/
theorem onDev_eq {f : Dev → Dev} {s : State} {x : Dev} (hx : f s.dev = x) : onDev f s = .next { s with dev := x } := by
  subst hx; rfl

/-- A command whose action is known and ends. -/
theorem Dev.command_eq {cmd : Instr} {k : CmdKind} {act : Dev → Reply} {x : Dev} {st : Status} {ws : List Nat}
    (ht : d.takes h = true) (hf : (d.take h).entryFail h k = none)
    (hr : act (d.take h) = { dev := x, status := st, words := ws }) : d.command h cmd k act = x.completed h st ws := by
  rw [Dev.command_done d h ht hf (by rw [hr]) (by rw [hr]), hr]

/-- A command that fails a check is answered with the status of the check and has no other effect. -/
theorem Dev.command_refused {cmd : Instr} {k : CmdKind} {act : Dev → Reply} {st : Status} (ht : d.takes h = true)
    (hf : (d.take h).entryFail h k = some st) : d.command h cmd k act = (d.take h).completed h st [] := by
  simp [Dev.command, Dev.serve, Dev.completed, ht, hf]

/-- An entry that the service does not take changes nothing but what `settle` may end. -/
theorem Dev.command_stays {cmd : Instr} {k : CmdKind} {act : Dev → Reply} (ht : d.takes h = false) :
    d.command h cmd k act = d.settle := by
  simp [Dev.command, Dev.serve, ht]

end Sys2Proof.Machine
end

