-- ==== Sys2Proof/Tests/Slice0.lean ====
section
/-! SUPPORT. Tests of the model. For every statement that has hypotheses a theorem test_meets_<statement> shows, clause by clause, a
device and operands that meet them together; the other tests check one step each against the spec's words. -/

open Sys2Proof Sys2Proof.Machine

namespace Sys2Proof.Tests

set_option Elab.async false
set_option linter.unusedVariables false

/-! ## Devices -/

/-- The state of a device with an empty queue. -/
def on (d : Dev) : State := { pending := [], dev := d }

/-- Memory that holds the bytes given at the addresses given. -/
def memOf (l : List (Nat × List Byte)) : Memory := l.foldl (fun m p => m.writeBytes p.1 p.2) []

/-- A powered device with its link up and one session on ring set 0. -/
def up : Dev := {
  pwr := { phase := 4, supply := true, pwrEn := true, cls := some 0, domains := List.range 30, good := true }
  host := { linkUp := true, width := 8, state := 6, rings := [(0, { sizeLog := 4, ctl := 1, enabled := true, session := true })] }
  fw := { complexes := [{ active := true, cores := [0, 1, 2, 3] }, { standby := true, cores := [0, 1, 2, 3] }] } }

/-- An entry of ring set 0 that names no context, and one that names context 0. -/
def hd : Hdr := { set := 0, index := 0, tag := 7, ctx := 0xFFFF, idem := false, fence := false, rsvd := false }
def hc : Hdr := { hd with ctx := 0 }

/-- An open context of ring set 0 with quotas. -/
def cx : Ctx := { isOpen := true, owner := some 0, hbmQuota := [16, 16], deepQuota := 16 }

/-- That device with context 0 open and 8 MiB of pinned HBM of half 0 at address 0. -/
def upc : Dev := { up with
  ctxs := [(0, cx)], allocs := [{ ctx := 0, base := 0, extents := 4, hint := 2, parity := false, both := false }] }


/-- A message of the crosscut. -/
def msg0 : XMsg := { cls := 1, src := 1, dst := 2, window := 1, gen := 0, poison := false, words := [1#32] }


/-- Sixteen 32-bit words from an address on. -/
def w4 (l : List Nat) : List Byte := l.flatMap (leBytes 4)
/-- The image of a graph of one copy task from address 0x5000 to 0x6000 in INT16-like bytes, at address 0x1000 of context 0. -/
def graphMem : Memory := memOf [
  (0x1000, w4 [1, 2, 1, 0xFFFF, 0x2000, 0, 0x3000, 0, 0, 0, 0x4000, 0, 0x01010101, 0x01010101, 0x01010101, 0x01010101]),
  (0x2000, w4 [8, 0, 0x00010000, 0xFFFFFFFF, 0xFFFFFFFF]),
  (0x4000, w4 [0x5000, 0, 64, 1, 1, 1, 64, 64, 64, 6, 0, 0xFFFFFFFF, 0, 2]),
  (0x4040, w4 [0x6000, 0, 64, 1, 1, 1, 64, 64, 64, 6, 0, 0xFFFFFFFF, 0, 2])]
/-- The step parameters of graph 0 with 1F1B and one micro-batch. -/
def p1 : StepParams := { graph := 0, schedule := 2, nanPolicy := 0, replayMax := 0, mbCount := 1, step := 1, timeout := 100, startBell := 0 }
/-- Context 0 with the graph resident. -/
def upg : Dev := { upc with mem := graphMem, ctxs := [(0, { cx with graphs := [{ gid := 0, image := 0x1000 }] })] }
/-- A sequence record at 0x800 of context 0, pool 0, with a table of two entries at 0x900. -/
def seqDev : Dev := { upc with
  mem := memOf [(0x800, w4 [0x900, 0, 3, 2, 16, 16, 0x00010000, 0x00000001])], seqs := [0x800], pools := [(0, { owner := some 0 })] }

/-- Hub core 0 of half 0 serves context 0. -/
def hubDev : Dev := { upc with bank := { committed := [(16 * 2 ^ 32 + 0x0F000040, 8)] } }
/-- An admitted instance of the copy task of context 0, and the step that it belongs to. -/
def i0 : Inst := { ctx := 0, newer := false, task := 0, mb := 0, op := 8, state := 1 }
def r0 : StepRun := { p := p1, state := 2, attempts := 1 }

/-- A device in a ring of three, with context 0 bound to a job of the logical ids 0, 1 and 2 and armed. -/
def ringCx : Ctx := { cx with bound := true, job := 9, logical := 0, groups := [(0, [0, 1, 2])]
                              relief := { state := 2, n := 3, ring := [0, 1, 2], spares := [7, 8], inRing := true } }
def ringDev : Dev := { upc with
  ctxs := [(0, ringCx)]
  fab := { state := 5, dims := [3, 1, 1, 1], phys := 0, remap := [(0, 16384), (1, 16385), (2, 16386)], locked := true } }
/-- That context with the relief of logical id 1 under way, led here. -/
def rel3 : Relief := { ringCx.relief with state := 3, subject := some 1, lead := true }
def relDev : Dev := { ringDev with ctxs := [(0, { ringCx with relief := rel3 })] }
/-- A record of a corrected error. -/
def rec0 : Record := {
  type := Rt.memory, unit := 1, bell := 0, opTime := 0, cycles := 0, temp := 0, volts := 0, opcode := 0, addr := 0, ctx := none, status := St.memCorrected
  severity := 1, permanent := false, suspect := false, snapShed := false, noMirror := false, east := false, snap := [] }

/-- A device whose supply has just come into range. -/
def cold : Dev := { pwr := { phase := 1, supply := true }, cycles := 1 }

/-- A tensor descriptor of sixteen FP32 elements at an address of HBM, with a hint of evictable HBM. -/
def tdAt (base fmt flags tensor : Nat) : List Byte :=
  w4 [base, 0, 16, 1, 1, 1, 1, 1, 1, fmt + 256 * flags, 0x3F800000, 0xFFFFFFFF, tensor, 2, 0, 0]
/-- A task record with its operation and flags, its descriptors 0 to 3 and its aux field. -/
def taskAt (op flags aux : Nat) : List Byte :=
  w4 [op + 65536 * flags, 0, 0x00010000, 0x00030002, 0xFFFFFFFF, 0, 0, 0, 0, 0, 0, 0, 0, 0, aux, 0, 0, 0]
/-- Memory with a graph of one task over four descriptors. -/
def oneTask (op flags aux fmt : Nat) : Memory := memOf [
  (0x1000, w4 [1, 4, 1, 0xFFFF, 0x2000, 0, 0x3000, 0, 0, 0, 0x4000, 0, 0x01010101, 0x01010101, 0x01010101, 0x01010101]),
  (0x2000, taskAt op flags aux), (0x4000, tdAt 0x5000 fmt 0 1), (0x4040, tdAt 0x6000 fmt 0 2), (0x4080, tdAt 0x7000 fmt 0 3),
  (0x40C0, tdAt 0x8000 fmt 0 4), (0x5000, w4 [0x3F800000, 0x40000000])]
/-- Context 0 with that graph and its step running. -/
def runDev (op flags aux fmt : Nat) : Dev := { upc with
  mem := oneTask op flags aux fmt, ctxs := [(0, { cx with graphs := [{ gid := 0, image := 0x1000 }], older := some r0 })] }
/-- The copy task of context 0, admitted and not. -/
def copyDev : Dev := { runDev 8 0 0 0x0A with ctxs := [(0, { cx with graphs := [{ gid := 0, image := 0x1000 }], older := some r0 })] }
/-- A slice of two tiles of task 0, and a core that runs it on one engine. -/
def sl0 : Slice := { ctx := 0, newer := false, task := 0, mb := 0, op := 1, fmt := 0x0A, lo := 0, hi := 2 }
def onEngine (d : Dev) (e : Nat) (x : Slice) (op : Nat) : Dev := { d with
  insts := [{ i0 with op := op, tiles := 2, issued := 2 }], cores := [(0, { act := setAt [none, none, none, none] e (some x) })] }
/-- A context with a step in a given state in a job of one device, which it leads. -/
def jobDev (st : Nat) (voted : Bool) : Dev := { upc with
  ctxs := [(0, { cx with bound := true, job := 9, logical := 0, groups := [(0, [0, 1])], older := some { r0 with state := st, voted := voted } })]
  fab := { state := 5, remap := [(0, 16384), (1, 16385)], dims := [2, 1, 1, 1] } }
/-- A vote and a decision. -/
def vote0 : Vote := { commit := true, classes := 0, form := 0, maxima := [] }
def dec0 : Decision := { kind := 0, bell := 100, classes := 0, form := 0, recompute := false, maxima := [] }
/-- A device whose ports carry traffic. -/
def lineDev : Dev := { upc with
  ctxs := [(0, { cx with bound := true, job := 9, logical := 0, groups := [(0, [0, 1])], older := some r0 })]
  fab := { state := 5, remap := [(0, 16384), (1, 16385)], dims := [2, 1, 1, 1], ports := [(0, { state := 2, peer := 1 }), (24, { state := 2, peer := 1 })] } }
/-- A packet of a type to this device. -/
def pk (type : Nat) : Packet := {
  dst := 0, dstHalf := 0, src := 1, srcHalf := 0, ldst := 0, vc := 0, type := type, gen := 0, tag := 5, len := 2, poison := false
  express := false, lane := 0, ctx := 0, rsv := false }
/-- A part of a collective. -/
def part0 : Part := { rank := 1, due := 0, exp := 0, nf := [], elems := [], digest := 0 }

/-- The work of an instance. -/
def workOf (d : Dev) (x : Inst) : Work := (d.work x).getD { x := x, g := d.readGraph 0, t := d.readTask 0, seed := 0, step := 0 }
/-- A graph of a reduce-scatter of tensor 2 and its update by SGD, whose gradient starts with one BF16 value. -/
def updMem (g0 : Nat) : Memory := memOf [
  (0x1000, w4 [2, 2, 1, 0xFFFF, 0x2000, 0, 0x3000, 0, 0, 0, 0x4000, 0, 0x01010101, 0x01010101, 0x01010101, 0x01010101]),
  (0x2000, w4 [7, 0x00010000, 0x00010000, 0xFFFFFFFF, 0xFFFFFFFF, 0, 0, 0, 0, 0, 0, 0, 0, 0, 1]),
  (0x2080, w4 [6, 0x00010000, 0xFFFFFFFF, 0xFFFFFFFF, 0xFFFFFFFF]),
  (0x4000, tdAt 0x5000 0x08 0 1), (0x4040, tdAt 0x6000 0x08 0 2), (0x6000, leBytes 2 g0),
  (0x9000, w4 [2, 1, 0xA000, 0, 0x1000, 0, 0xB000, 0, 0x1000, 0, 0, 0, 0x00010000])]
/-- Context 0 in a job of one device, with the update task admitted, and started or not. -/
def updInst0 (started : Bool) : Inst := { i0 with task := 1, op := 6, started := started }
def updDev (g0 : Nat) (started : Bool) : Dev := { upc with
  mem := updMem g0
  bank := { committed := [(16 * 2 ^ 32 + 0x03000024, 0x9000), (16 * 2 ^ 32 + 0x0300002C, 1)] }
  ctxs := [(0, { cx with groups := [(0, [0])], graphs := [{ gid := 0, image := 0x1000 }], older := some r0 })]
  insts := [updInst0 started] }
/-- The job of the update task. -/
def noJob : UpdJob := {
  ix := 0, r := ({} : Dev).readUpdRec 0, info := { op := 0, red := 0, root := 0, clip := false, members := [], rank := 0, half := 0 }
  grad := ({} : Dev).readTd 0, half := 0, lo := 0, hi := 0, slot := 0, step := 0, seed := 0
  reg := { head := ({} : Dev).readTd 0, tail := ({} : Dev).readTd 0, image := ({} : Dev).readTd 0, u := ({} : Dev).readTd 0, v := ({} : Dev).readTd 0 } }
def jobOfUpd (d : Dev) : UpdJob := (d.updJob 0 false 1).getD noJob
/-- A convert task of a ladder whose instance has ended on rung 1. -/
def ladInst : Inst := { i0 with op := 3, state := 2, rung := 1 }
def ladDev : Dev := { runDev 3 8 0 0x01 with
  insts := [ladInst], ctxs := [(0, { cx with graphs := [{ gid := 0, image := 0x1000 }], older := some r0, fbOver := true })] }
/-- The copy task as an instance of the newer step that has ended. -/
def newInst0 : Inst := { i0 with newer := true, state := 2 }
def newDev : Dev := { copyDev with
  insts := [newInst0]
  ctxs := [(0, { cx with graphs := [{ gid := 0, image := 0x1000 }], older := some { p := p1, state := 3 }, newer := some r0 })] }
/-- A BFX32 and an MXFP4 descriptor whose block scales stand at 0x100. -/
def mxTd (fmt : Nat) : TD := { upc.readTd 0 with base := 0x200, dim0 := 32, dim1 := 1, dim2 := 1, dim3 := 1, fmt := fmt, scaleBase := 0x100, tscale := 0x3F800000 }

/-- A judged attempt at a tile. -/
def endOf (d : Dev) (e tile : Nat) (f : TileFault) (x : Inst) : TileEnd := (d.tileEnd 0 e tile f).getD {
  w := workOf d x, run := { x := [], strip := [], corr := [], cells := [] }, poison := (none, false), part := true, lane := true }
/-- A defect that leaves a cell of the first tile wrong. -/
def wrong : TileFault := { TileFault.none with cells := [(0, 0, 0x7149F2CA#32, 0)] }
/-- A product task over BF16 descriptors on an engine. -/
def fmulDev (s : Slice) : Dev := onEngine (runDev 1 0 0 0x08) 0 s 1
def bmulDev : Dev := onEngine (runDev 2 0 0 0x08) 2 sl0 2
/-- A core whose first B-engine holds a foreign tile of the F-engine. -/
def ftDev : Dev := { fmulDev { sl0 with foreign := [(1, 1)] } with
  cores := [(0, { act := [some { sl0 with foreign := [(1, 1)] }, none, none, none], arr := [some { requester := 1, tile := 1 }, none] })] }
def ftDev0 : Dev := ftDev.setCore 0 { ftDev.core 0 with arr := [none, none] }
/-- An instance of a product task. -/
def ip (op : Nat) : Inst := { i0 with op := op, tiles := 2, issued := 2 }

/-- A message of two flits. -/
def msg17 : XMsg := { msg0 with words := List.replicate 17 7#32 }

/-- The copy's device with the instances of its step noted, its running step, and that with no slot for the output. -/
def copyNoted : Dev := copyDev.noteReady 0 false
def copyRun : StepRun := ((copyNoted.ctx 0).step? false).getD r0
def copyTask : Task := copyNoted.graphTask (copyNoted.readGraph 0x1000) 0
def copyInst : Inst := (copyNoted.admWork (copyNoted.readGraph 0x1000) copyRun (copyNoted.newInst 0 false copyRun copyTask 0 0)).x
def badNoted : Dev := Dev.noteReady { runDev 8 0 0 0x0C with insts := [] } 0 false
def badRun : StepRun := ((badNoted.ctx 0).step? false).getD r0
theorem freeBases_lt (d : Dev) (x : Nat) (h : x ∈ d.freeBases false [0] 1) : x < 131070 := by
  simp only [Dev.freeBases, List.mem_filter, List.mem_range] at h
  exact h.1

/-- The DPA and the device with which an allocation ends. -/
def endV (r : MemRes) : Nat := match r with | .ends _ v _ => v | .waits _ => 0
def endD (r : MemRes) : Dev := match r with | .ends _ _ d => d | .waits d => d

/-- Where an allocation of one extent lies and what it leaves of the rest. -/
theorem memAlloc_one (d : Dev) (m : Mover) (c : Nat) (h0 : d.halfOn 0 = true) (hq : d.hbmUsed c 0 + 1 ≤ at' (d.ctx c).hbmQuota 0 0)
    (hf : 1 ≤ d.freeHbm 0) (hb : d.freeBases false [0] 1 ≠ []) :
    let r := d.memAlloc m c (1 * 2 ^ 21) 0 2 true
    r = .ends St.ok (endV r) (endD r) ∧
    ∃ i, i < 131070 ∧ endD r
      = Dev.setExtent { d.drawn with allocs := d.allocs ++ [{
          ctx := c, base := i * 2 ^ 21, extents := 1, hint := 2, parity := true, both := false }] } (i * 2 ^ 21 / 2 ^ 21) { last := d.bell } := by
  have e : Dev.evictHalves m [(0, 1)] d = (d, .ok) := by
    have hx : Dev.evictFor m 0 1 (hbmExtents + 1) d = (d, .ok) := by
      unfold Dev.evictFor
      simp [hf]
    simp [Dev.evictHalves, hx]
  have hn : ceilDiv (1 * 2 ^ 21) (2 ^ 21) = 1 := by decide
  have hm : d.memAlloc m c (1 * 2 ^ 21) 0 2 true =
      .ends St.ok (at' (d.freeBases false [0] 1) (d.pick (d.freeBases false [0] 1).length) 0 * 2 ^ 21) (Dev.setExtent { d.drawn with allocs := d.allocs ++ [{
          ctx := c, base := at' (d.freeBases false [0] 1) (d.pick (d.freeBases false [0] 1).length) 0 * 2 ^ 21, extents := 1
          hint := 2, parity := true, both := false }] }
        (at' (d.freeBases false [0] 1) (d.pick (d.freeBases false [0] 1).length) 0 * 2 ^ 21 / 2 ^ 21) { last := d.bell }) := by
    unfold Dev.memAlloc
    rw [hn]
    dsimp only
    cases hl : d.freeBases false [0] 1 with
    | nil => exact absurd hl hb
    | cons a l =>
      have hq' : ¬ at' (d.ctx c).hbmQuota 0 0 ≤ d.hbmUsed c 0 := by omega
      simp [h0, hq', e, hl, Alloc.exts, Dev.drawn, List.range_succ]
  rw [hm]
  refine ⟨rfl, _, ?_, rfl⟩
  have hp : d.pick (d.freeBases false [0] 1).length < (d.freeBases false [0] 1).length :=
    Nat.mod_lt _ (List.length_pos_iff.2 hb)
  refine freeBases_lt d _ ?_
  simp [at', List.getElem?_eq_getElem hp]

/-- A context whose ring and spare tables stand at 0x100 and 0x200. -/
def armDev : Dev := { ringDev with
  ctxs := [(0, { ringCx with relief := {} })]
  mem := memOf [(0x100, [3, 0, 0, 0, 0, 0, 0, 0, 0, 0, 1, 0, 2]), (0x200, [2, 0, 0, 0, 0, 0, 0, 0, 7, 0, 8])] }

theorem free_one (d : Dev) (i : Nat) (hi : i < 131070) (hc : d.allocs.any (fun a => decide (a.base < i * 2 ^ 21 + 1 * 2 ^ 21)
    && decide (i * 2 ^ 21 < a.base + a.extents * 2 ^ 21)) = false) : d.freeBases false [0] 1 ≠ [] := by
  refine List.ne_nil_of_mem (a := i) ?_
  simp only [Dev.freeBases, List.mem_filter, List.mem_range]
  refine ⟨by simpa [hbmExtents] using hi, ?_⟩
  simpa using hc

theorem arm_used (X : Dev) (b : Nat) (ht : tierOf b = 0) (hh : halfOf b = 0) (ha : X.allocs = [
      { ctx := 0, base := 0, extents := 4, hint := 2, parity := false, both := false },
      { ctx := 0, base := b, extents := 1, hint := 2, parity := true, both := false }]) : X.hbmUsed 0 0 = 5 := by
  have h0 : tierOf 0 = 0 := by decide
  have h1 : halfOf 0 = 0 := by decide
  unfold Dev.hbmUsed Dev.ctxExtents
  rw [ha]
  rw [List.filter_cons_of_pos (by simp [h0, h1]), List.filter_cons_of_pos (by simp [ht, hh])]
  simp only [List.filter_nil, List.flatMap_cons, List.flatMap_nil, List.length_append, List.length_map, List.length_range, List.length_nil]
theorem arm_free (X : Dev) (b : Nat) (ht : tierOf b = 0) (hh : halfOf b = 0) (hr : X.health.hbmRetired = []) (ha : X.allocs = [
      { ctx := 0, base := 0, extents := 4, hint := 2, parity := false, both := false },
      { ctx := 0, base := b, extents := 1, hint := 2, parity := true, both := false }]) : 1 ≤ X.freeHbm 0 := by
  have h0 : tierOf 0 = 0 := by decide
  have h1 : halfOf 0 = 0 := by decide
  have hs : ∀ (p : Nat → Bool) (a : Alloc), (a.exts.filter p).length ≤ a.extents := fun p a => by
    simpa [Alloc.exts] using List.length_filter_le p a.exts
  unfold Dev.freeHbm Dev.hbmAllocs
  rw [ha, hr]
  rw [List.filter_cons_of_pos (by simp [h0, h1]), List.filter_cons_of_pos (by simp [ht, hh])]
  simp only [List.filter_nil, List.map_cons, List.map_nil, List.sum_cons, List.sum_nil, List.length_nil]
  have a1 := hs (fun e => (X.extent e).inHbm) { ctx := 0, base := 0, extents := 4, hint := 2, parity := false, both := false }
  have a2 := hs (fun e => (X.extent e).inHbm) { ctx := 0, base := b, extents := 1, hint := 2, parity := true, both := false }
  simp only at a1 a2
  have e : hbmExtents = 131070 := rfl
  omega

/-- The two allocations of that context's snapshot areas. -/
def armIn : Dev := (on armDev).dev.take hc
def arm1 : MemRes := armIn.memAlloc (.cmd 0 armIn.host.nextId) 0 (1 * 2 ^ 21) 0 2 true
def arm2 : MemRes := (endD arm1).memAlloc (.cmd 0 armIn.host.nextId) 0 (1 * 2 ^ 21) 0 2 true

theorem arm_allocs : arm1 = .ends St.ok (endV arm1) (endD arm1) ∧ arm2 = .ends St.ok (endV arm2) (endD arm2) := by
  have h1 := memAlloc_one armIn (.cmd 0 armIn.host.nextId) 0 (by decide +kernel) (by decide +kernel) (by decide +kernel)
    (free_one armIn 100 (by decide) (by decide +kernel))
  obtain ⟨hs, i, hi, he⟩ := h1
  refine ⟨hs, ?_⟩
  have ht : tierOf (i * 2 ^ 21) = 0 := by
    unfold tierOf bits
    omega
  have hh : halfOf (i * 2 ^ 21) = 0 := by
    unfold halfOf bits
    omega
  change endD arm1 = _ at he
  have ha : (endD arm1).allocs = [
      { ctx := 0, base := 0, extents := 4, hint := 2, parity := false, both := false },
      { ctx := 0, base := i * 2 ^ 21, extents := 1, hint := 2, parity := true, both := false }] := by rw [he]; rfl
  have hc : (endD arm1).ctxs = armIn.ctxs := by rw [he]; rfl
  have hp : (endD arm1).pwr = armIn.pwr := by rw [he]; rfl
  have hl : (endD arm1).health = armIn.health := by rw [he]; rfl
  unfold arm2
  generalize endD arm1 = X at *
  refine (memAlloc_one X _ 0 ?_ ?_ ?_ ?_).1
  · unfold Dev.halfOn Dev.dieOn
    rw [hp, hl]
    decide +kernel
  · have hq : at' (X.ctx 0).hbmQuota 0 0 = 16 := by
      unfold Dev.ctx
      rw [hc]
      decide +kernel
    have hu := arm_used X _ ht hh ha
    omega
  · exact arm_free X _ ht hh (by rw [hl]; rfl) ha
  · by_cases hi' : i = 100
    · refine free_one _ 200 (by decide) ?_
      rw [ha]
      subst hi'
      decide
    · refine free_one _ 100 (by decide) ?_
      rw [ha]
      simp
      omega

/-! ## The hypotheses of each statement are met -/

theorem test_meets_StepRunsFront :
    ∃ (s : State), s.pending = [] := by
  refine ⟨on up, ?_⟩
  decide +kernel

theorem test_meets_SessionCommands :
    (∃ (s : State) (h : Hdr) (vmin : Nat) (vmax : Nat) (grace : Nat),
      s.dev.takesClean h false ∧ h.ctx = 0xFFFF ∧ (s.dev.ring h.set).session = false ∧ vmin ≤ 1 ∧ 1 ≤ vmax ∧
      (grace = 0 ∨ (5 ≤ grace ∧ grace ≤ 600))) ∧
    (∃ (s : State) (h : Hdr), s.dev.inFreeSession h false) ∧
    (∃ (s : State) (h : Hdr),
      s.dev.takesClean h false ∧ (s.dev.ring h.set).session = true ∧ h.ctx < 8 ∧ (s.dev.ctx h.ctx).isOpen = true ∧
      (s.dev.ctx h.ctx).orphaned = true ∧ (s.dev.ctx h.ctx).closing = false) ∧
    (∃ (s : State) (h : Hdr) (force : Nat), s.dev.inSession h false ∧ s.dev.anyBound = false ∧ force ≤ 1) ∧
    (∃ (s : State) (h : Hdr) (req : Nat) (n : Nat) (rsp : Nat) (room : Nat), s.dev.inSession h false ∧ 4 ≤ n ∧ n ≤ 4096) ∧
    (∃ (s : State) (h : Hdr), s.dev.inSession h false ∧ s.dev.ownsCtx h.set = true) := by
  refine ⟨⟨on { up with host := { up.host with rings := [(0, { sizeLog := 4, ctl := 1, enabled := true })] } }, hd, 1, 1, 5, ?_⟩,
    ⟨on up, hd, ?_⟩,
    ⟨on { upc with ctxs := [(0, { cx with owner := none, orphaned := true })] }, hc, ?_⟩,
    ⟨on upc, hd, 1, ?_⟩,
    ⟨on up, hd, 0, 4, 0, 4096, ?_⟩,
    ⟨on upc, hd, ?_⟩⟩
  all_goals try dsimp only [Dev.inFreeSession, Dev.inSession, Dev.inContext, Dev.takesClean, Dev.delivers, Dev.calm]
  all_goals decide +kernel

theorem test_meets_ContextCommands :
    (∃ (s : State) (h : Hdr) (c : Nat),
      s.dev.inSession h false ∧ c < 8 ∧ (s.dev.ctx c).isOpen = false ∧ (∀ k, k < c → (s.dev.ctx k).isOpen = true)) ∧
    (∃ (s : State) (h : Hdr),
      s.dev.inContext h false ∧ (s.dev.ctx h.ctx).older = none ∧ (let d := (s.dev.take h).startClose h.ctx; d.mayClose h.ctx = true)) ∧
    (∃ (s : State) (h : Hdr) (buf : Nat) (room : Nat), s.dev.inContext h false ∧ s.dev.atBoundary h.ctx = true) ∧
    (∃ (s : State) (h : Hdr) (buf : Nat) (bytes : Nat),
      s.dev.inContext h false ∧ (s.dev.ctx h.ctx).older = none ∧
      (let d := s.dev.take h;
       let rd : Reader := fun o n => d.hostMem.readLE (buf + o) n;
       let d0 := (d.closeCtx h.ctx).setCtx h.ctx { d.ctx h.ctx with graphs := [], poisonCount := 0, repairs := [], restored := true };
       snapReadable rd bytes = true ∧ (snapAllocs rd h.ctx).any d0.restoreClash = false ∧
       (∀ k half, k < 2 → half < 2 → d.restoreTaken rd h.ctx k half = false))) ∧
    (∃ (s : State) (h : Hdr), s.dev.inContext h true) := by
  refine ⟨⟨on upc, hd, 1, ?_⟩,
    ⟨on upc, hc, ?_⟩,
    ⟨on upc, hc, 0, 64, ?_⟩,
    ⟨on { upc with hostMem := memOf [(0, w4 [1])] }, hc, 0, 64, ?_⟩,
    ⟨on upc, hc, ?_⟩⟩
  all_goals try dsimp only [Dev.inFreeSession, Dev.inSession, Dev.inContext, Dev.takesClean, Dev.delivers, Dev.calm]
  · decide +kernel
  · decide +kernel
  · decide +kernel
  · refine ⟨by decide +kernel, by decide +kernel, by decide +kernel, by decide +kernel, fun k half hk hh => ?_⟩
    interval_cases k <;> interval_cases half <;> decide +kernel
  · decide +kernel

theorem test_meets_AllocGivesExtents :
    ∃ (s : State) (h : Hdr) (bytes : Nat) (half : Nat) (hint : Nat) (flags : Nat),
      s.dev.inContext h false ∧ 0 < bytes ∧ half < 2 ∧ (hint = 2 ∨ hint = 3) ∧ flags ≤ 1 ∧ s.dev.halfOn half = true ∧
      (let n := ceilDiv bytes (2 ^ 21);
       s.dev.hbmUsed h.ctx half + n ≤ at' (s.dev.ctx h.ctx).hbmQuota half 0 ∧ n ≤ s.dev.freeHbm half ∧ s.dev.freeBases false [half] n ≠
       []) := by
  refine ⟨on upc, hc, 0x200000, 1, 3, 0, ?_⟩
  all_goals try dsimp only [Dev.inFreeSession, Dev.inSession, Dev.inContext, Dev.takesClean, Dev.delivers, Dev.calm]
  · refine ⟨by decide +kernel, by decide, by decide, by decide, by decide, by decide +kernel, by decide +kernel, by decide +kernel, ?_⟩
    exact List.ne_nil_of_mem (a := 100) (by
      simp only [Dev.freeBases, List.mem_filter, List.mem_range]
      decide +kernel)

theorem test_meets_MemoryCommands :
    (∃ (s : State) (h : Hdr) (dpa : Nat),
      s.dev.inContext h false ∧ s.dev.allocsAt h.ctx dpa ≠ [] ∧
      (∀ a, a ∈ s.dev.allocsAt h.ctx dpa → a.exts.any s.dev.heldExt = false)) ∧
    (∃ (s : State) (h : Hdr) (dpa : Nat),
      s.dev.inContext h false ∧ s.dev.allocsAt h.ctx dpa ≠ [] ∧ (∀ a, a ∈ s.dev.allocsAt h.ctx dpa → tierOf a.base = 0)) ∧
    (∃ (s : State) (h : Hdr) (c : Nat), s.dev.inSession h true ∧ s.dev.mayQuota h.set c = true) ∧
    (∃ (s : State) (h : Hdr) (kind : Nat) (half : Nat) (first : Nat) (count : Nat),
      s.dev.inContext h false ∧ kind ≤ 1 ∧ half < 2 ∧ 0 < count ∧ first + count ≤ (if kind = 0 then 4096 else 256) ∧
      s.dev.halfOn half = true ∧ (∀ n, first ≤ n → n < first + count → s.dev.ownerOf kind half n = none)) ∧
    (∃ (s : State) (h : Hdr) (c : Nat) (half : Nat) (hbm : Nat) (deep : Nat),
      s.dev.inSession h false ∧ s.dev.mayQuota h.set c = true ∧ half < 2 ∧
      (hbm < s.dev.pinnedExts c half ∨ deep < (s.dev.ctxExtents c true 0).length)) ∧
    (∃ (s : State) (h : Hdr) (c : Nat) (half : Nat) (hbm : Nat) (deep : Nat),
      s.dev.inSession h false ∧ s.dev.mayQuota h.set c = true ∧ half < 2 ∧ s.dev.pinnedExts c half ≤ hbm ∧
      (s.dev.ctxExtents c true 0).length ≤ deep ∧ s.dev.residentExts c half ≤ hbm ∧ s.dev.deepUsed c ≤ deep) := by
  refine ⟨⟨on upc, hc, 0, ?_⟩,
    ⟨on upc, hc, 0, ?_⟩,
    ⟨on upc, hd, 0, ?_⟩,
    ⟨on upc, hc, 0, 1, 4095, 1, ?_⟩,
    ⟨on upc, hd, 0, 0, 3, 0, ?_⟩,
    ⟨on upc, hd, 0, 0, 4, 0, ?_⟩⟩
  all_goals try dsimp only [Dev.inFreeSession, Dev.inSession, Dev.inContext, Dev.takesClean, Dev.delivers, Dev.calm]
  all_goals decide +kernel

theorem test_meets_GraphCommands :
    (∃ (s : State) (h : Hdr) (image : Nat), s.dev.inContext h false ∧ s.dev.graphFail h.ctx image = none) ∧
    (∃ (s : State) (h : Hdr) (image : Nat) (st : Status), s.dev.inContext h false ∧ s.dev.graphFail h.ctx image = some st) ∧
    (∃ (s : State) (h : Hdr) (gid : Nat),
      s.dev.inContext h false ∧ ((s.dev.ctx h.ctx).graph? gid).isSome = true ∧ s.dev.graphHeld h.ctx gid = false) ∧
    (∃ (s : State) (h : Hdr) (gid : Nat),
      s.dev.inContext h false ∧ ((s.dev.ctx h.ctx).graph? gid).isSome = true ∧ s.dev.graphHeld h.ctx gid = true) := by
  refine ⟨⟨on { upg with ctxs := [(0, cx)] }, hc, 0x1000, ?_⟩,
    ⟨on upg, hc, 0x1040, St.graphLimit, ?_⟩,
    ⟨on upg, hc, 0, ?_⟩,
    ⟨on { upg with ctxs := [(0, { cx with graphs := [{ gid := 0, image := 0x1000 }], older := some { p := p1 } })] }, hc, 0, ?_⟩⟩
  all_goals try dsimp only [Dev.inFreeSession, Dev.inSession, Dev.inContext, Dev.takesClean, Dev.delivers, Dev.calm]
  all_goals decide +kernel

theorem test_meets_StepCommands :
    (∃ (s : State) (h : Hdr) (p : StepParams) (g : GraphHdr),
      s.dev.inContext h false ∧ p.nanPolicy ≤ 2 ∧ (p.replayMax ≤ 7 ∨ p.replayMax = 0xFF) ∧ p.startBell < 2 ^ 48 ∧
      s.dev.stepGraph h.ctx p.graph = some g ∧ s.dev.sameStep h.ctx p = false ∧ (s.dev.ctx h.ctx).relief.state ≠ 5 ∧ p.schedule = 2 ∧
      0 < p.mbCount ∧ p.mbCount ≤ g.mbMax ∧ (s.dev.ctx h.ctx).older = none ∧ (s.dev.ctx h.ctx).newer = none ∧
      p.step = ((s.dev.ctx h.ctx).stepCnt + 1) % 2 ^ 32) ∧
    (∃ (s : State) (h : Hdr) (r : StepRun), s.dev.inContext h false ∧ (s.dev.ctx h.ctx).older = some r ∧ r.state = 1) ∧
    (∃ (s : State) (h : Hdr) (step : Nat), s.dev.inContext h true ∧ (s.dev.ctx h.ctx).older = none) := by
  refine ⟨⟨on upg, hc, p1, upg.readGraph 0x1000, ?_⟩,
    ⟨on { upg with ctxs := [(0, { cx with graphs := [{ gid := 0, image := 0x1000 }], older := some { p := p1 } })] }, hc, { p := p1 },
     ?_⟩,
    ⟨on upg, hc, 0, ?_⟩⟩
  all_goals try dsimp only [Dev.inFreeSession, Dev.inSession, Dev.inContext, Dev.takesClean, Dev.delivers, Dev.calm]
  all_goals decide +kernel

theorem test_meets_KvCommands :
    (∃ (s : State) (h : Hdr) (a : Nat) (pt : Nat) (stats : Nat) (entries : Nat) (len : Nat) (pool : Nat) (hq : Nat) (flags : Nat),
      s.dev.inContext h false ∧ (flags = 0 ∨ flags = 2) ∧ s.dev.seqs.contains a = false ∧ s.dev.guard? a 64 = none ∧
      s.dev.createBad h.ctx a pt stats pool hq = false ∧ s.dev.checkTable (halfOf a) pool pt entries none = St.ok ∧
      len ≤ 16 * entries) ∧
    (∃ (s : State) (h : Hdr) (a : Nat) (pt : Nat) (entries : Nat) (gen : Nat),
      s.dev.inContext h false ∧ s.dev.seqMine h.ctx a = true ∧ s.dev.seqWaits a s.dev.nextOrder true = false ∧
      s.dev.ctxOwns h.ctx pt = true ∧ (let r := (s.dev.take h).kvSwap a pt entries gen none; r.1 = St.ok)) ∧
    (∃ (s : State) (h : Hdr) (a : Nat) (ix : Nat) (gen : Nat) (e : Word),
      s.dev.inContext h false ∧ s.dev.seqMine h.ctx a = true ∧ s.dev.seqWaits a s.dev.nextOrder false = false ∧
      (let r := (s.dev.take h).kvSet a ix e.toNat gen; r.1 = St.ok)) ∧
    (∃ (s : State) (h : Hdr) (a : Nat),
      s.dev.inContext h false ∧ s.dev.seqMine h.ctx a = true ∧ s.dev.seqWaits a s.dev.nextOrder true = false ∧
      (s.dev.seqRec a).provLen = (s.dev.seqRec a).committedLen) ∧
    (∃ (s : State) (h : Hdr) (a : Nat), s.dev.inContext h true ∧ s.dev.seqMine h.ctx a = true) ∧
    (∃ (s : State) (h : Hdr) (a : Nat) (pt : Nat) (entries : Nat) (ix : Nat) (gen : Nat) (e : Word),
      s.dev.inContext h false ∧ s.dev.seqMine h.ctx a = true ∧ s.dev.seqWaits a s.dev.nextOrder true = false ∧
      s.dev.seqWaits a s.dev.nextOrder false = false ∧ s.dev.ctxOwns h.ctx pt = true ∧ gen ≠ (s.dev.seqRec a).gen) := by
  refine ⟨⟨on { seqDev with seqs := [] }, hc, 0x800, 0x900, 0, 2, 32, 0, 1, 2, ?_⟩,
    ⟨on seqDev, hc, 0x800, 0xA00, 2, 3, ?_⟩,
    ⟨on seqDev, hc, 0x800, 1, 3, 0, ?_⟩,
    ⟨on seqDev, hc, 0x800, ?_⟩,
    ⟨on seqDev, hc, 0x800, ?_⟩,
    ⟨on seqDev, hc, 0x800, 0xA00, 2, 1, 4, 0, ?_⟩⟩
  all_goals try dsimp only [Dev.inFreeSession, Dev.inSession, Dev.inContext, Dev.takesClean, Dev.delivers, Dev.calm]
  all_goals decide +kernel

theorem test_meets_HubPorts :
    (∃ (s : State) (half : Nat) (core : Nat) (c : Nat),
      s.dev.halfOn half = true ∧ core < 48 ∧ (s.dev.hub (hubKey half core)).kvBusy = false ∧ s.dev.hubCtx half core = some c) ∧
    (∃ (s : State) (half : Nat) (core : Nat) (st : Status) (free : Bool) (gen : Nat),
      (s.dev.hub (hubKey half core)).kvWait = 0 ∧ (s.dev.hub (hubKey half core)).kvNext = some (st, free, gen)) ∧
    (∃ (s : State) (half : Nat) (core : Nat) (c : Nat),
      s.dev.halfOn half = true ∧ core < 48 ∧ (s.dev.hub (hubKey half core)).tlyBusy = false ∧ s.dev.hubCtx half core = some c) ∧
    (∃ (s : State) (half : Nat) (core : Nat), (s.dev.hub (hubKey half core)).tlyBusy = true) := by
  refine ⟨⟨on hubDev, 0, 0, 0, ?_⟩,
    ⟨on { hubDev with hubs := [(0, { kvBusy := true, kvNext := some (St.ok, true, 1) })] }, 0, 0, St.ok, true, 1, ?_⟩,
    ⟨on hubDev, 0, 0, 0, ?_⟩,
    ⟨on { hubDev with hubs := [(0, { tlyBusy := true, tlyKey := [1, 2, 3, 4, 5, 6, 7, 8] })] }, 0, 0, ?_⟩⟩
  all_goals decide +kernel

theorem test_meets_HubAccesses :
    (∃ (s : State) (half : Nat) (core : Nat) (dpa : Nat) (kind : Nat),
      s.dev.halfOn half = true ∧ core < 48 ∧ s.dev.hubMay half core dpa kind = false ∧ (kind = 2 → s.dev.guard? dpa 1 = none)) ∧
    (∃ (s : State) (half : Nat) (core : Nat) (dpa : Nat) (data : List Byte) (g : Nat × Status),
      s.dev.halfOn half = true ∧ core < 48 ∧ data ≠ [] ∧ s.dev.guard? dpa data.length = some g) ∧
    (∃ (s : State) (half : Nat) (core : Nat) (dpa : Nat) (kind : Nat) (c : Nat) (ok : Bool),
      s.dev.halfOn half = true ∧ core < 48 ∧ halfOf dpa = half ∧ kind ≤ 2 ∧ s.dev.extEvicted dpa = true ∧
      (s.dev.extent (dpa / 2 ^ 21)).moving ≠ 2 ∧ s.dev.hubCtx half core = some c ∧ s.dev.ctxOwns c dpa = true ∧
      1 ≤ s.dev.freeHbm half) := by
  refine ⟨⟨on hubDev, 0, 0, 0x800000, 1, ?_⟩,
    ⟨on { seqDev with bank := hubDev.bank }, 0, 0, 0x808, [1#8], (Rt.kv, St.ptGeneration), ?_⟩,
    ⟨on
     { hubDev with allocs := [{ ctx := 0, base := 0, extents := 4, hint := 3, parity := false, both := false }],
                   extents := [(1, { evicted := true })] }, 0, 0, 0x200000, 2, 0, false, ?_⟩⟩
  all_goals decide +kernel

theorem test_meets_DoorbellRegisters :
    (∃ (s : State) (half : Nat) (core : Nat) (v : Word),
      s.dev.halfOn half = true ∧ v.toNat < 4096 ∧ s.dev.mayRing (.hub half core) half v.toNat = true) ∧
    (∃ (s : State) (half : Nat) (core : Nat) (v : Word),
      s.dev.halfOn half = true ∧ v.toNat < 4096 ∧ s.dev.mayRing (.hub half core) half v.toNat = true ∧
      s.dev.hubWaiting half v.toNat = []) ∧
    (∃ (s : State) (half : Nat) (core : Nat) (v : Word),
      s.dev.halfOn half = true ∧ v.toNat < 4096 ∧ s.dev.mayRing (.hub half core) half v.toNat = false) ∧
    (∃ (s : State) (half : Nat) (t : Nat) (v : Word) (p : Nat) (rest : List (Nat × Nat)),
      s.dev.halfOn half = true ∧ t < 52 ∧ v.toNat < 4096 ∧ (s.dev.hub (hubKey half t)).stack = (v.toNat, p) :: rest) := by
  refine ⟨⟨on hubDev, 0, 0, 256#32, ?_⟩,
    ⟨on hubDev, 0, 0, 735#32, ?_⟩,
    ⟨on hubDev, 0, 0, 736#32, ?_⟩,
    ⟨on { hubDev with hubs := [(51, { stack := [(48, 8)] })], sources := [(48, { active := [51] })] }, 0, 51, 48#32, 8, [], ?_⟩⟩
  all_goals decide +kernel

theorem test_meets_DispatchPresents :
    (∃ (s : State) (half : Nat) (t : Nat) (src : Nat),
      s.dev.halfOn half = true ∧ t < 52 ∧ s.dev.targetUp half t = true ∧ s.dev.select half t = some src ∧
      (∀ u, u < 52 → u ≠ t → s.dev.targetUp half u = true → s.dev.select half u = none) ∧ s.dev.hubWaiting half src = []) ∧
    (∃ (s : State) (half : Nat) (core : Nat) (tok : Nat) (i : Inst),
      (s.dev.hub (hubKey half core)).holds = some tok ∧
      s.dev.insts.find? (fun i => i.op = opHub && i.token = tok && i.started && i.state = 1) = some i ∧
      s.dev.attemptRuns i.ctx i.newer = true) := by
  refine ⟨⟨on { hubDev with sources := [(256, { pending := true })] }, 0, 0, 256, ?_⟩,
    ⟨on
     { hubDev with hubs := [(0, { holds := some 5 })], insts := [{ i0 with op := 9, token := 5, started := true }],
                   ctxs := [(0, { cx with older := some r0 })] }, 0, 0, 5, { i0 with op := 9, token := 5, started := true }, ?_⟩⟩
  all_goals decide +kernel

theorem test_meets_FabricCommands :
    (∃ (s : State) (h : Hdr) (fabric : Nat) (phys : Nat) (dx : Nat) (dy : Nat) (dz : Nat) (dw : Nat) (period : Nat) (tk1 : Nat)
     (tk2 : Nat) (cls : Nat),
      s.dev.inSession h false ∧ s.dev.fab.state = 0 ∧
      (let p : JoinParams := { fabric := fabric, phys := phys, dims := [dx, dy, dz, dw], period := period, tk1 := tk1, tk2 := tk2 };
       p.ok = true ∧ s.dev.classIs cls = true)) ∧
    (∃ (s : State) (h : Hdr) (cls : Nat) (dx : Nat) (dy : Nat) (dz : Nat) (dw : Nat),
      s.dev.inSession h true ∧ 3 ≤ s.dev.fab.state ∧ s.dev.fab.dims = [dx, dy, dz, dw]) ∧
    (∃ (s : State) (h : Hdr), s.dev.inSession h false ∧ s.dev.fab.state ≠ 0 ∧ s.dev.boundCtxs = []) ∧
    (∃ (s : State) (h : Hdr) (job : Nat) (l : Nat) (group0 : Nat) (count : Nat) (t : List Nat),
      s.dev.inContext h false ∧ l < 16384 ∧ (s.dev.fab.state = 3 ∨ s.dev.fab.state = 5) ∧ s.dev.health.failed = false ∧
      (s.dev.ctx h.ctx).bound = false ∧ s.dev.dpaValid group0 = true ∧ s.dev.groupTable group0 = some t ∧ t.length = count ∧
      rising t = true ∧ (∀ m, m ∈ t → m < 16384) ∧ l ∈ t) ∧
    (∃ (s : State) (h : Hdr) (group : Nat) (table : Nat) (t : List Nat),
      s.dev.inContext h false ∧ s.dev.fab.state ≠ 0 ∧ group ≠ 0 ∧ s.dev.groupNamed h.ctx group = false ∧ s.dev.dpaValid table = true ∧
      s.dev.groupTable table = some t) ∧
    (∃ (s : State) (h : Hdr), s.dev.inSession h true) := by
  refine ⟨⟨on up, hd, 1, 0, 2, 1, 1, 1, 10, 0, 0, 0, ?_⟩,
    ⟨on { up with fab := { state := 3, fabric := 1, dims := [2, 1, 1, 1] } }, hd, 0, 2, 1, 1, 1, ?_⟩,
    ⟨on { up with fab := { state := 3 } }, hd, ?_⟩,
    ⟨on
     { upc with fab := { state := 3, dims := [2, 1, 1, 1], phys := 1 }, mem := memOf [(0x100, [2, 0, 0, 0, 0, 0, 0, 0, 3, 0, 5, 0])] },
     hc, 9, 5, 0x100, 2, [3, 5], ?_⟩,
    ⟨on { upc with fab := { state := 5 }, mem := memOf [(0x100, [1, 0, 0, 0, 0, 0, 0, 0, 3, 0])] }, hc, 1, 0x100, [3], ?_⟩,
    ⟨on up, hd, ?_⟩⟩
  all_goals try dsimp only [Dev.inFreeSession, Dev.inSession, Dev.inContext, Dev.takesClean, Dev.delivers, Dev.calm]
  all_goals decide +kernel

theorem test_meets_JoinEvents :
    (∃ (s : State), s.dev.fab.state = 1 ∧ s.dev.canTrain = true) ∧
    (∃ (s : State), s.dev.fab.state = 1) ∧
    (∃ (s : State), s.dev.fab.state = 2) ∧
    (∃ (s : State), s.dev.fab.state = 6) ∧
    (∃ (s : State) (port : Nat) (w : Word) (ph : Nat),
      isUlusil port = true ∧ s.dev.halfOn (portHalf port) = true ∧ (s.dev.port port).state ≠ 0 ∧ (s.dev.port port).state ≠ 3 ∧
      s.dev.fab.state ≠ 1 ∧ bits w.toNat 1 0 < 2) ∧
    (∃ (s : State) (phys : Nat) (p : Nat), p < 48 ∧ isTorus p = true ∧ (s.dev.port p).state = 2 ∧ (s.dev.port p).peer = phys) := by
  refine ⟨⟨on { up with fab := { state := 1, dims := [16, 16, 8, 8] } }, ?_⟩,
    ⟨on { up with fab := { state := 1 } }, ?_⟩,
    ⟨on { up with fab := { state := 2 } }, ?_⟩,
    ⟨on { up with fab := { state := 6 } }, ?_⟩,
    ⟨on { up with fab := { state := 3, silent := [1], ports := [(0, { state := 2, peer := 1 })] } }, 0, 4#32, 1, ?_⟩,
    ⟨on { up with fab := { state := 3, ports := [(0, { state := 2, peer := 1 })] } }, 1, 0, ?_⟩⟩
  all_goals decide +kernel

theorem test_meets_BellEvents :
    (∃ (s : State) (port : Nat) (num : Nat) (hops : Nat) (tk : Nat) (q : Nat) (k : Nat) (plus : Bool),
      parentOf s.dev.fab.dims tk s.dev.fab.phys = some (q, k, plus) ∧ 2 ≤ s.dev.fab.state ∧ port < 16 ∧ s.dev.portUp port = true ∧
      port / 4 = k ∧ portPlus port = plus ∧ (tk = s.dev.fab.tk1 ∨ tk = s.dev.fab.tk2)) ∧
    (∃ (s : State), s.dev.fab.locked = true ∧ s.dev.fab.holdover = false ∧ s.dev.fab.timekeeper = false ∧ s.dev.fab.secondary = false) ∧
    (∃ (s : State),
      s.dev.fab.locked = true ∧ s.dev.fab.phys = s.dev.fab.tk2 ∧ s.dev.fab.timekeeper = false ∧ s.dev.fab.secondary = false ∧
      8 ≤ s.dev.fab.missing) ∧
    (∃ (s : State), s.dev.fab.locked = true ∧ s.dev.fab.holdover = true ∧ 100 ≤ s.dev.fab.missing ∧ s.dev.fab.state = 3) := by
  refine ⟨⟨on { up with fab := { state := 2, dims := [2, 1, 1, 1], phys := 1, ports := [(2, { state := 2, peer := 0 })] } }, 2, 1000, 0, 0,
      0, 0, false, ?_⟩,
    ⟨on { up with fab := { state := 3, locked := true } }, ?_⟩,
    ⟨on { up with fab := { state := 3, dims := [2, 1, 1, 1], phys := 1, tk2 := 1, locked := true, missing := 8 } }, ?_⟩,
    ⟨on { up with fab := { state := 3, locked := true, holdover := true, missing := 100 } }, ?_⟩⟩
  all_goals decide +kernel

theorem test_meets_ReliefCommands :
    (∃ (s : State) (h : Hdr), s.dev.inSession h false ∧ s.dev.fab.state = 3) ∧
    (∃ (s : State) (h : Hdr), s.dev.inSession h false ∧ s.dev.fab.state = 4 ∧ s.dev.fab.claim = none) ∧
    (∃ (s : State) (h : Hdr) (l : Nat),
      s.dev.inContext h false ∧ (s.dev.ctx h.ctx).bound = true ∧ (s.dev.jobOf h.ctx).contains l = true ∧ l ≠ (s.dev.ctx h.ctx).logical ∧
      (s.dev.ctx h.ctx).relief.state ≠ 5 ∧ s.dev.leads h.ctx l = true ∧
      (let d := (s.dev.take h).startRelief l; (d.ctx h.ctx).relief.state ≠ 5)) ∧
    (∃ (s : State) (h : Hdr), s.dev.inContext h true) ∧
    (∃ (s : State) (h : Hdr) (ring : Nat) (spares : Nat) (n : Nat) (a : Nat) (b : Nat) (d1 : Dev) (d2 : Dev),
      s.dev.inContext h false ∧
      (let d := s.dev.take h;
       let k := s.dev.ld ring 1;
       let ids := (List.range k).map (fun i => s.dev.ld (ring + 8 + 2 * i) 2);
       let sp := (List.range (s.dev.ld spares 2)).map (fun i => s.dev.ld (spares + 8 + 2 * i) 2);
       (s.dev.ctx h.ctx).relief.state = 0 ∧ (s.dev.ctx h.ctx).bound = true ∧ s.dev.dpaValid ring = true ∧ s.dev.dpaValid spares = true ∧
       3 ≤ k ∧ k ≤ 8 ∧ s.dev.ld (ring + 2) 6 = 0 ∧ s.dev.ld (spares + 2) 6 = 0 ∧ ids.Nodup ∧ (∀ p, p ∈ sp → p < 16384) ∧
       ids[s.dev.ld (ring + 1) 1]? = some (s.dev.ctx h.ctx).logical ∧ (∀ l, l ∈ ids → l ∈ s.dev.jobOf h.ctx) ∧ d.memAlloc
       (.cmd h.ctx d.host.nextId) h.ctx (n * 2 ^ 21) 0 2 true = .ends St.ok a d1 ∧ d1.memAlloc (.cmd h.ctx d.host.nextId) h.ctx
       (n * 2 ^ 21) 0 2 true = .ends St.ok b d2)) := by
  refine ⟨⟨on { up with fab := { state := 3 } }, hd, ?_⟩,
    ⟨on { up with fab := { state := 4 } }, hd, ?_⟩,
    ⟨on ringDev, hc, 1, ?_⟩,
    ⟨on ringDev, hc, ?_⟩,
    ⟨on armDev, hc, 0x100, 0x200, 1, endV arm1, endV arm2, endD arm1, endD arm2, ?_⟩⟩
  all_goals try dsimp only [Dev.inFreeSession, Dev.inSession, Dev.inContext, Dev.takesClean, Dev.delivers, Dev.calm]
  · decide +kernel
  · decide +kernel
  · decide +kernel
  · decide +kernel
  · refine ⟨by decide +kernel, ?_⟩
    refine ⟨?_, ?_, ?_, ?_, ?_, ?_, ?_, ?_, ?_, ?_, ?_, ?_, arm_allocs.1, arm_allocs.2⟩
    all_goals decide +kernel

theorem test_meets_ReliefNotices :
    (∃ (s : State) (job : Nat) (l : Nat) (c : Nat),
      s.dev.jobCtxs job = [c] ∧ (s.dev.jobOf c).contains l = true ∧ (s.dev.ctx c).relief.spare = none ∧ (s.dev.ctx c).relief.state = 2 ∧
      (s.dev.ctx c).relief.subjects = [] ∧ (s.dev.ctx c).relief.weak = [] ∧ (s.dev.ctx c).logical ≠ l ∧ (s.dev.ctx c).older = none ∧
      (s.dev.ctx c).newer = none ∧ s.dev.mustRollBack c l = false) ∧
    (∃ (s : State) (job : Nat) (l : Nat) (c : Nat), c ∈ s.dev.jobCtxs job ∧ (s.dev.jobOf c).contains l = true) ∧
    (∃ (s : State) (src : Nat) (cseq : Nat), (∀ t, t ∈ s.dev.fab.digestTimes → t + 86400 ≤ s.dev.opTime)) := by
  refine ⟨⟨on ringDev, 9, 1, 0, ?_⟩,
    ⟨on ringDev, 9, 1, 0, ?_⟩,
    ⟨on { up with opUs := 10 ^ 12, fab := { state := 3, digestTimes := [0] } }, 1, 5, ?_⟩⟩
  all_goals decide +kernel

theorem test_meets_SpareEvents :
    (∃ (s : State) (lead : Nat) (job : Nat) (l : Nat), s.dev.fab.state = 4 ∧ s.dev.fab.claim = none ∧ s.dev.health.failed = false) ∧
    (∃ (s : State) (c : Nat) (p : Nat),
      (s.dev.ctx c).relief.claimed = some p ∧ (s.dev.ctx c).relief.lead = true ∧ (s.dev.ctx c).relief.state = 3 ∧
      (s.dev.ctx c).relief.spare = none) ∧
    (∃ (s : State) (c : Nat) (p : Nat) (l : Nat),
      (s.dev.ctx c).relief.subject = some l ∧ (s.dev.ctx c).relief.lead = true ∧ (s.dev.ctx c).relief.state = 3 ∧
      (s.dev.ctx c).relief.claimed = some p ∧ (s.dev.ctx c).relief.spare = none) ∧
    (∃ (s : State) (c : Nat) (l : Nat) (p : Nat),
      (s.dev.ctx c).relief.subject = some l ∧ (s.dev.ctx c).relief.spare = some p ∧ (s.dev.ctx c).relief.lead = true ∧
      (s.dev.ctx c).relief.state = 3 ∧ (s.dev.ctx c).relief.ready = [] ∧ s.dev.physOf l = some p) ∧
    (∃ (s : State) (c : Nat) (l : Nat),
      (s.dev.ctx c).relief.subject = some l ∧ (s.dev.ctx c).relief.state = 3 ∧ (s.dev.ctx c).relief.ready = []) ∧
    (∃ (s : State) (lead : Nat) (job : Nat) (l : Nat) (units : List RebuiltUnit) (rows : List ParityRow) (snaps : List Nat),
      s.dev.fab.claim = some (lead, job * 16384 + l) ∧ s.dev.fab.state = 4 ∧ s.dev.physOf l = some s.dev.fab.phys ∧ snaps ≠ [] ∧
      (let free := units.foldl (fun d u => d.writeMem u.dpa (u.data.take parityUnit))
           { s.dev with fab := { s.dev.fab with claim := none } };
       units.any (·.poison) = false ∧ free.unitsOk units (snaps.headD 0) = true ∧
       (let r := snaps.foldl (fun (x : Status × Dev) a => if x.1 = St.ok then x.2.restoreSpare l a rows else x)
            (St.ok, { free with fab := s.dev.fab });
        r.1 = St.ok))) ∧
    (∃ (s : State) (c : Nat) (step : Nat) (counts : List Nat) (rows : List ParityRow),
      (s.dev.ctx c).relief.inRing = true ∧ (s.dev.ctx c).relief.upkeep = true ∧ (s.dev.ctx c).relief.state = 2) := by
  refine ⟨⟨on { up with fab := { state := 4, phys := 7 } }, 0, 9, 1, ?_⟩,
    ⟨on relDev, 0, 7, ?_⟩,
    ⟨on relDev, 0, 7, 1, ?_⟩,
    ⟨on
     { ringDev with ctxs := [(0, { ringCx with relief := { rel3 with spare := some 7 } })],
                    fab := { ringDev.fab with remap := [(0, 16384), (1, 16391), (2, 16386)] } }, 0, 1, 7, ?_⟩,
    ⟨on { ringDev with ctxs := [(0, { ringCx with relief := { rel3 with lead := false } })] }, 0, 1, ?_⟩,
    ⟨on
     { up with mem := memOf [(0x100, [1])], fab := { state := 4, phys := 7, remap := [(1, 16391)], claim := some (0, 9 * 16384 + 1) } },
     0, 9, 1, [], [], [0x100], ?_⟩,
    ⟨on { ringDev with ctxs := [(0, { ringCx with relief := { ringCx.relief with upkeep := true } })] }, 0, 4, [], [], ?_⟩⟩
  all_goals decide +kernel

theorem test_meets_HealthCommands :
    (∃ (s : State) (h : Hdr) (unit : Nat) (buf : Nat), s.dev.inSession h true ∧ unit ≠ 0xFFFF ∧ unitKnown unit = true) ∧
    (∃ (s : State) (h : Hdr) (first : Nat) (count : Nat) (buf : Nat), s.dev.inSession h true) ∧
    (∃ (s : State) (h : Hdr), s.dev.inSession h true) ∧
    (∃ (s : State) (h : Hdr) (e : Nat), s.dev.inSession h true ∧ e ≠ s.dev.log.epoch) ∧
    (∃ (s : State) (h : Hdr) (unit : Nat) (u : Nat),
      s.dev.inSession h false ∧ canaryUnit unit = some u ∧ s.dev.dieOn (unitDie u) = true) ∧
    (∃ (s : State) (h : Hdr) (unit : Nat), s.dev.inSession h false ∧ canaryUnit unit = none) ∧
    (∃ (s : State) (h : Hdr) (index : Nat) (clear : Word), s.dev.inSession h (decide (clear = 0)) ∧ index ≤ 3) := by
  refine ⟨⟨on up, hd, 16385, 0x100, ?_⟩,
    ⟨on { up with log := { records := [rec0, rec0] } }, hd, 1, 5, 0x100, ?_⟩,
    ⟨on { up with log := { records := [rec0], epoch := 32767 } }, hd, ?_⟩,
    ⟨on up, hd, 1, ?_⟩,
    ⟨on up, hd, 5, 0, ?_⟩,
    ⟨on up, hd, 65535, ?_⟩,
    ⟨on { up with health := { sticky := [3, 0, 0, 0] } }, hd, 0, 1#32, ?_⟩⟩
  all_goals try dsimp only [Dev.inFreeSession, Dev.inSession, Dev.inContext, Dev.takesClean, Dev.delivers, Dev.calm]
  all_goals decide +kernel

theorem test_meets_RecordAppends :
    (∃ (l : PitLog) (r : Record), l.records.length < 32512) ∧
    (∃ (l : PitLog) (r : Record),
      32512 ≤ l.records.length ∧ l.records.length < 32768 ∧ r.severity ≠ 3 ∧ r.type ≠ Rt.health ∧ r.type ≠ Rt.relief) ∧
    (∃ (l : PitLog) (r : Record), 32768 ≤ l.records.length) := by
  refine ⟨⟨{ records := [rec0] }, rec0, ?_⟩,
    ⟨{ records := List.replicate 32512 rec0 }, rec0, ?_⟩,
    ⟨{ records := List.replicate 32768 rec0 }, rec0, ?_⟩⟩
  · decide +kernel
  · refine ⟨?_, ?_, by decide, by decide, by decide⟩ <;> simp only [List.length_replicate] <;> decide
  · simp only [List.length_replicate, le_refl]

theorem test_meets_CanaryEvents :
    (∃ (s : State) (unit : Nat) (u : Nat),
      canaryUnit unit = some u ∧ isCoreUnit u = false ∧ unitSub u ≠ 0 ∧ s.dev.canaryDue u = true ∧ s.dev.canary? u = none ∧
      s.dev.canTest u = true) ∧
    (∃ (s : State) (unit : Nat) (u : Nat) (q : Canary) (pass : Bool),
      canaryUnit unit = some u ∧ s.dev.canary? u = some q ∧ q.state = 3) ∧
    (∃ (s : State) (unit : Nat) (u : Nat) (q : Canary),
      canaryUnit unit = some u ∧ s.dev.canary? u = some q ∧ q.state = 2 ∧ isCoreUnit q.unit = true) ∧
    (∃ (s : State) (unit : Nat) (u : Nat), canaryUnit unit = some u ∧ s.dev.canaryDue u = true ∧ s.dev.canary? u = none) ∧
    (∃ (s : State) (unit : Nat) (u : Nat),
      canaryUnit unit = some u ∧ isCoreUnit u = false ∧ s.dev.isSuspect u = true ∧ bit (s.dev.committed 16 0x0B000008) 18 = true ∧
      (s.dev.hist u).canaryBell + s.dev.suspectPeriod ≤ s.dev.bell) ∧
    (∃ (s : State) (u : Nat), (s.dev.hist u).state = 1 ∧ max (s.dev.hist u).suspectOp (s.dev.hist u).watchOp + 604800 ≤ s.dev.opTime) ∧
    (∃ (s : State) (u : Nat), s.dev.opTime < max (s.dev.hist u).suspectOp (s.dev.hist u).watchOp + 604800) := by
  refine ⟨⟨on { up with bell := 10 ^ 9 }, 16387, 16387, ?_⟩,
    ⟨on { up with health := { canaries := [{ unit := 16385, state := 3, slot := false }] } }, 16385, 16385,
     { unit := 16385, state := 3, slot := false }, true, ?_⟩,
    ⟨on { up with health := { canaries := [{ unit := 0, state := 2, slot := true }] } }, 0, 0, { unit := 0, state := 2, slot := true },
     ?_⟩,
    ⟨on { up with bell := 10 ^ 9 }, 16385, 16385, ?_⟩,
    ⟨on
     { up with bell := 10 ^ 9, bank := { committed := [(16 * 2 ^ 32 + 0x0B000008, 0x41000#32)] },
               health := { hist := [(16385, { state := 1 })] } }, 16385, 16385, ?_⟩,
    ⟨on { up with opUs := 604800 * 10 ^ 6, health := { hist := [(16385, { state := 1 })] } }, 16385, ?_⟩,
    ⟨on { up with opUs := 604799 * 10 ^ 6, health := { hist := [(16385, { state := 1 })] } }, 16385, ?_⟩⟩
  all_goals decide +kernel

theorem test_meets_CoreService :
    (∃ (s : State) (die : Nat) (cl : Nat) (slot : Nat) (n : Nat) (sp : Nat),
      die < 16 ∧ cl < 4 ∧ slot < 8 ∧ s.dev.dieOn die = true ∧ at' (s.dev.cluster (die * 4 + cl)).slots slot none = some n ∧
      s.dev.goodSpare die cl = some sp ∧ s.dev.coreSuspect die cl n = true ∧ (s.dev.core (coreKey die cl n)).busy = false) ∧
    (∃ (s : State) (die : Nat) (cl : Nat) (n : Nat) (sub : Nat),
      die < 16 ∧ cl < 4 ∧ n < 9 ∧ sub < 7 ∧ (s.dev.hist (coreUnit die cl n sub)).state = 2 ∧
      s.dev.health.mapped.contains (coreKey die cl n) = false ∧ (s.dev.core (coreKey die cl n)).busy = false) ∧
    (∃ (s : State) (l : List UnitEvent), 5 ≤ s.dev.host.state ∧ at' s.dev.fw.svc 4 0 = 0 ∧ s.dev.fw.handing = false) := by
  refine ⟨⟨on { up with health := { hist := [(0, { state := 1 })] } }, 0, 0, 0, 0, 8, ?_⟩,
    ⟨on { up with health := { hist := [(0, { state := 2 })] } }, 0, 0, 0, 0, ?_⟩,
    ⟨on { up with rc := [(16 * 2 ^ 32 + 0x0F00001C, 3)] }, [{ unit := 16385, key := 1, kind := 0 }], ?_⟩⟩
  all_goals decide +kernel

theorem test_meets_ConfigCommands :
    (∃ (s : State) (h : Hdr) (list : Nat) (count : Nat),
      s.dev.inFreeSession h false ∧
      (let l := readEntries s.dev.hostMem list count; (∀ e, e ∈ l → s.dev.skips e = false ∧ e.fail = none))) ∧
    (∃ (s : State) (h : Hdr) (list : Nat) (count : Nat) (e : CfgEntry) (st : Status),
      s.dev.inFreeSession h false ∧ (readEntries s.dev.hostMem list count).find? (fun e => s.dev.skips e || e.fail.isSome) = some e ∧
      st = (if s.dev.skips e then St.cfgRegister else (e.fail).getD 0)) ∧
    (∃ (s : State) (h : Hdr) (gid : Nat) (half : Nat),
      s.dev.inFreeSession h false ∧ [0, 1].filter ((s.dev.take h).groupIn gid) = [half] ∧ (s.dev.take h).mayArm gid half = true) ∧
    (∃ (s : State) (h : Hdr) (code : Nat), s.dev.inFreeSession h false ∧ isModeCode code = false) ∧
    (∃ (s : State) (h : Hdr) (code : Nat),
      s.dev.inFreeSession h false ∧ isModeCode code = true ∧ (code = pretrain ∨ (overlay? s.dev.fw.cfgImage code).isSome = true) ∧
      (let d := (s.dev.take h).switchStaged code;
       let l := ((0xC004, 0) :: d.namedGroups (overlayOf s.dev.fw.cfgImage s.dev.outgoing ++ overlayOf s.dev.fw.cfgImage code)).dedup;
       l.all (fun g => d.mayArm g.1 g.2) = true)) ∧
    (∃ (s : State) (h : Hdr) (gid : Nat) (half : Nat), s.dev.inFreeSession h true ∧ half ≤ 1 ∧ s.dev.groupIn gid half = true) := by
  refine ⟨⟨on { up with hostMem := memOf [(0x100, w4 [0x0B000008, 0x000F0010, 0xFFFFFFFF, 0x7080])] }, hd, 0x100, 1, ?_⟩,
    ⟨on { up with hostMem := memOf [(0x100, w4 [0x0B000004, 0x000F0010, 0xFFFFFFFF, 1])] }, hd, 0x100, 1,
     { reg := 0xF00100B000004, mask := 0xFFFFFFFF, value := 1 }, St.cfgRegister, ?_⟩,
    ⟨on up, hd, 0xC000, 0, ?_⟩,
    ⟨on up, hd, 0x16, ?_⟩,
    ⟨on up, hd, 0x10, ?_⟩,
    ⟨on up, hd, 0xC001, 1, ?_⟩⟩
  all_goals try dsimp only [Dev.inFreeSession, Dev.inSession, Dev.inContext, Dev.takesClean, Dev.delivers, Dev.calm]
  all_goals decide +kernel

theorem test_meets_PowerCommands :
    (∃ (s : State) (h : Hdr) (v : Nat),
      s.dev.inFreeSession h false ∧ ceilDiv (classPower s.dev.classNo) 10 ≤ v ∧ v ≤ s.dev.hwLimit 0x00020008 ∧
      (let d := (s.dev.take h).stagePut 16 0x00020008 (rwsReset 16 0x00020008) v; d.mayArm 0xC005 0 = true)) ∧
    (∃ (s : State) (h : Hdr) (v : Nat),
      s.dev.inFreeSession h false ∧ ceilDiv (classPower s.dev.classNo) 10 ≤ v ∧ s.dev.hwLimit 0x00020008 < v ∧
      (let d := (s.dev.take h).stagePut 16 0x00020008 (rwsReset 16 0x00020008) (s.dev.hwLimit 0x00020008); d.mayArm 0xC005 0 = true)) ∧
    (∃ (s : State) (h : Hdr) (v : Nat), s.dev.inFreeSession h false ∧ v < ceilDiv (classPower s.dev.classNo) 10) ∧
    (∃ (s : State) (h : Hdr), s.dev.inSession h true) ∧
    (∃ (s : State) (h : Hdr) (period : Nat) (buf : Nat), s.dev.inFreeSession h false ∧ (period = 0 ∨ 10 ≤ period)) := by
  refine ⟨⟨on { up with bank := { staged := [(regKey 16 0x00020008, 8200), (regKey 16 0x0002000C, 2000)] } }, hd, 820, ?_⟩,
    ⟨on { up with bank := { staged := [(regKey 16 0x00020008, 8200), (regKey 16 0x0002000C, 2000)] } }, hd, 8201, ?_⟩,
    ⟨on up, hd, 819, ?_⟩,
    ⟨on up, hd, ?_⟩,
    ⟨on up, hd, 10, 0x100, ?_⟩⟩
  all_goals try dsimp only [Dev.inFreeSession, Dev.inSession, Dev.inContext, Dev.takesClean, Dev.delivers, Dev.calm]
  all_goals decide +kernel

theorem test_meets_PowerUp :
    (∃ (s : State), s.dev.pwr.phase = 0) ∧
    (∃ (s : State) (id : Nat) (rise : Nat) (fluid : Bool),
      s.dev.pwr.phase = 1 ∧ id < 4 ∧ s.dev.pwr.cls = none ∧ s.dev.pwr.pwrEn = false) ∧
    (∃ (s : State) (n : Nat) (m : Nat) (rest : List Nat), s.dev.pwr.phase = 3 ∧ s.dev.pwr.todo = n :: m :: rest) ∧
    (∃ (s : State) (n : Nat), s.dev.pwr.phase = 3 ∧ s.dev.pwr.todo = [n]) ∧
    (∃ (s : State) (n : Nat) (rest : List Nat), s.dev.pwr.phase = 3 ∧ s.dev.pwr.todo = n :: rest) ∧
    (∃ (s : State), s.dev.pwr.phase = 2 ∧ s.dev.pwr.pwrEn = false) ∧
    (∃ (s : State), s.dev.pwr.phase = 4 ∧ s.dev.pwr.pwrEn = true) ∧
    (∃ (s : State), s.dev.pwr.phase = 4) ∧
    (∃ (s : State), s.dev.pwr.phase = 5 ∧ s.dev.pwr.supply = true ∧ (s.dev.pwr.held = true → s.dev.pwr.thermHold = false)) ∧
    (∃ (s : State), s.dev.pwr.thermHold = true ∧ s.dev.pwr.held = false) := by
  refine ⟨⟨on {}, ?_⟩,
    ⟨on cold, 0, 0, false, ?_⟩,
    ⟨on { cold with pwr := { cold.pwr with phase := 3, todo := [24, 25] } }, 24, 25, [], ?_⟩,
    ⟨on { cold with pwr := { cold.pwr with phase := 3, todo := [25] } }, 25, ?_⟩,
    ⟨on { cold with pwr := { cold.pwr with phase := 3, todo := [25] } }, 25, [], ?_⟩,
    ⟨on { cold with pwr := { cold.pwr with phase := 2 } }, ?_⟩,
    ⟨on up, ?_⟩,
    ⟨on up, ?_⟩,
    ⟨on { up with pwr := { up.pwr with phase := 5 } }, ?_⟩,
    ⟨on { up with pwr := { up.pwr with thermHold := true } }, ?_⟩⟩
  all_goals decide +kernel

theorem test_meets_ThrottleAndTelemetry :
    (∃ (s : State) (cause : Nat) (half : Nat) (domain : Nat) (t : Nat × Nat × Nat),
      s.dev.pwr.phase = 4 ∧ cause < 4 ∧ half < 2 ∧ domain < 30 ∧ s.dev.throttle? (throttleKey cause half domain) = some t) ∧
    (∃ (s : State) (input : Nat) (power : Nat) (hottest : Nat) (energy : Nat) (hotW : Nat) (hotE : Nat),
      s.dev.pwr.phase = 4 ∧ s.dev.pwr.telDue = true ∧ s.dev.pwr.telPeriod ≠ 0 ∧ at' s.dev.fw.svc 8 0 = 0 ∧ s.dev.fw.handing = false ∧
      s.dev.host.linkUp = true) := by
  refine ⟨⟨on { up with pwr := { up.pwr with throttling := [(2, 5, 1500)] } }, 2, 0, 5, (2, 5, 1500), ?_⟩,
    ⟨on { up with pwr := { up.pwr with telDue := true, telPeriod := 10, telIndex := 255, telBuf := 0x1000 } }, 1, 2, 3, 4, 5, 6, ?_⟩⟩
  all_goals decide +kernel

theorem test_meets_LoadingStates :
    (∃ (s : State), s.dev.host.linkUp = true ∧ (s.dev.host.state = 0 ∨ s.dev.host.state = 4)) ∧
    (∃ (s : State), s.dev.host.linkUp = true ∧ s.dev.host.state = 1) ∧
    (∃ (s : State), s.dev.host.linkUp = true ∧ s.dev.host.state ≠ 0 ∧ s.dev.host.state ≠ 4) ∧
    (∃ (s : State), s.dev.host.linkUp = true ∧ s.dev.host.state ≠ 1) ∧
    (∃ (d : Dev) (k : Nat), k < 3) ∧
    (∃ (d : Dev) (n : Nat), d.host.state ≠ n ∧ d.host.linkUp = true ∧ bit (d.host.msix.get 0 7).toNat 0 = false) := by
  refine ⟨⟨on { up with host := { up.host with state := 4 } }, ?_⟩,
    ⟨on { up with host := { up.host with state := 1 } }, ?_⟩,
    ⟨on { up with host := { up.host with state := 1 } }, ?_⟩,
    ⟨on { up with host := { up.host with state := 0 } }, ?_⟩,
    ⟨up, 1, ?_⟩,
    ⟨up, 7, ?_⟩⟩
  all_goals decide +kernel

theorem test_meets_ImageVerified :
    (∃ (s : State) (revoked : Bool) (keyHash : Nat) (minSvn : Nat), s.dev.host.state = 2) ∧
    (∃ (s : State), s.dev.host.state = 3) ∧
    (∃ (d : Dev) (revoked : Bool) (keyHash : Nat) (minSvn : Nat), d.host.staging.readLE 0 4 ≠ 0x314C4B57) ∧
    (∃ (s : State),
      s.dev.host.state = 3 ∧ s.dev.fw.complexes.any (·.active) = true ∧
      (let r := s.dev.loadConfig (s.dev.host.staging.window cfgAt s.dev.host.cfgBytes.toNat) s.dev.host.cfgBytes.toNat; r.1 = St.ok)) ∧
    (∃ (s : State),
      s.dev.host.state = 3 ∧ s.dev.fw.complexes.any (·.active) = true ∧
      imageWellFormed (s.dev.host.staging.window cfgAt s.dev.host.cfgBytes.toNat) s.dev.host.cfgBytes.toNat = false) := by
  refine ⟨⟨on { up with host := { up.host with state := 2 } }, true, 0, 0, ?_⟩,
    ⟨on { up with host := { up.host with state := 3 } }, ?_⟩,
    ⟨up, true, 0, 0, ?_⟩,
    ⟨on
     { up with host :=
               { imgBytes := 0, cfgBytes := 64, staging := memOf [(0x1000000, w4 [0x46434B57, 1, 64])], state := 3, linkUp := true } },
     ?_⟩,
    ⟨on { up with host := { up.host with state := 3 } }, ?_⟩⟩
  all_goals decide +kernel

theorem test_meets_RingControl :
    (∃ (s : State) (set : Nat) (v : Word),
      set < 4 ∧ s.dev.host.linkUp = true ∧ bit v.toNat 0 = true ∧ (s.dev.ring set).enabled = false ∧
      (s.dev.ring set).cmdBase.toNat % 4096 = 0 ∧ (s.dev.ring set).cplBase.toNat % 4096 = 0 ∧ 4 ≤ (s.dev.ring set).sizeLog.toNat % 16 ∧
      (s.dev.ring set).sizeLog.toNat % 16 ≤ 12 ∧ (s.dev.ring set).queue = []) ∧
    (∃ (s : State) (set : Nat) (v : Word),
      set < 4 ∧ s.dev.host.linkUp = true ∧ bit v.toNat 0 = true ∧ (s.dev.ring set).cmdBase.toNat % 4096 ≠ 0) ∧
    (∃ (s : State) (v : Word),
      s.dev.host.linkUp = true ∧ bit v.toNat 0 = true ∧ s.dev.host.evt.enabled = false ∧ s.dev.host.evt.base.toNat % 4096 = 0 ∧
      6 ≤ s.dev.host.evt.size.toNat % 32 ∧ s.dev.host.evt.size.toNat % 32 ≤ 16 ∧ s.dev.host.evt.shadow.toNat % 8 = 0) ∧
    (∃ (s : State) (set : Nat) (tail : Nat), set < 4 ∧ s.dev.host.linkUp = true) := by
  refine ⟨⟨on { up with host := { up.host with rings := [(3, { sizeLog := 12, cmdBase := 0x1000, cplBase := 0x2000 })] } }, 3, 1#32, ?_⟩,
    ⟨on { up with host := { up.host with rings := [(3, { sizeLog := 12, cmdBase := 0x1001, cplBase := 0x2000 })] } }, 3, 1#32, ?_⟩,
    ⟨on { up with host := { up.host with evt := { base := 0x1000, size := 16, shadow := 8 } } }, 1#32, ?_⟩,
    ⟨on up, 3, 5, ?_⟩⟩
  all_goals decide +kernel

theorem test_meets_CompletionPosted :
    (∃ (d : Dev) (k : Nat) (c : Completion),
      k < 4 ∧ (d.ring k).queue = [] ∧ (d.ring k).enabled = true ∧ (d.ring k).cplOut < (d.ring k).size) ∧
    (∃ (d : Dev) (k : Nat) (c : Completion), (d.ring k).queue = [] ∧ (d.ring k).size ≤ (d.ring k).cplOut) ∧
    (∃ (s : State) (r : Record) (rest : List Record),
      s.dev.evtReady = true ∧ s.dev.host.evt.unreported = 0 ∧ s.dev.host.evt.queue = r :: rest) := by
  refine ⟨⟨up, 0, { tag := 1, status := St.ok, rescanned := false, index := 0, words := [] }, ?_⟩,
    ⟨{ up with host := { up.host with rings := [(0, { sizeLog := 4, enabled := true, cplOut := 16 })] } }, 0,
     { tag := 1, status := St.ok, rescanned := false, index := 0, words := [] }, ?_⟩,
    ⟨on { up with host := { up.host with evt := { base := 0x1000, size := 6, shadow := 8, enabled := true, queue := [rec0] } } }, rec0,
     [], ?_⟩⟩
  all_goals decide +kernel

theorem test_meets_AnswerFrame :
    ∃ (d : Dev), d.calm := by
  refine ⟨up, ?_⟩
  all_goals try dsimp only [Dev.inFreeSession, Dev.inSession, Dev.inContext, Dev.takesClean, Dev.delivers, Dev.calm]
  · exact ⟨rfl, by decide +kernel⟩

theorem test_meets_Bar2Window :
    (∃ (s : State) (off : Nat) (n : Nat),
      s.dev.host.linkUp = true ∧ off + n ≤ 2 ^ 36 ∧ s.dev.host.state ≠ 1 ∧ bit s.dev.host.winCtl.toNat 0 = true ∧
      s.dev.winPass (s.dev.winBase + off) n = true) ∧
    (∃ (s : State) (off : Nat) (n : Nat),
      s.dev.host.linkUp = true ∧ off + n ≤ 2 ^ 36 ∧ s.dev.host.state ≠ 1 ∧ bit s.dev.host.winCtl.toNat 0 = true ∧
      s.dev.winPass (s.dev.winBase + off) n = false) ∧
    (∃ (s : State) (off : Nat) (b : List Byte),
      s.dev.host.linkUp = true ∧ off + b.length ≤ 2 ^ 36 ∧ s.dev.host.state ≠ 1 ∧ bit s.dev.host.winCtl.toNat 0 = true ∧
      bit s.dev.host.winCtl.toNat 1 = true ∧ s.dev.winPass (s.dev.winBase + off) b.length = true ∧
      s.dev.guard? (s.dev.winBase + off) b.length = none) ∧
    (∃ (s : State) (off : Nat) (b : List Byte), s.dev.host.linkUp = true ∧ off + b.length ≤ 0x1400000 ∧ s.dev.host.state = 1) := by
  refine ⟨⟨on { upc with host := { up.host with winCtl := 3 } }, 0x7FFFC0, 64, ?_⟩,
    ⟨on { upc with host := { up.host with winCtl := 3 } }, 0x7FFFC0, 65, ?_⟩,
    ⟨on { upc with host := { up.host with winCtl := 3 } }, 0x7FFFC0, [1#8, 2#8], ?_⟩,
    ⟨on { up with host := { up.host with state := 1 } }, 0x13FFFFE, [1#8, 2#8], ?_⟩⟩
  all_goals decide +kernel

theorem test_meets_WriteMemFrame :
    ∃ (d : Dev) (a : Nat) (b : List Byte), ∃ x, (x < a ∨ a + b.length ≤ x) := by
  refine ⟨up, 64, [1#8, 2#8], 66, ?_⟩
  decide +kernel

theorem test_meets_HostLinkEvents :
    (∃ (s : State) (v : Word), s.dev.host.linkUp = true ∧ s.dev.host.state ≠ 7) ∧
    (∃ (s : State), s.dev.host.state = 6) ∧
    (∃ (s : State), s.dev.host.orphanCause ≠ 0 ∧ s.dev.host.orphanUs = 0) ∧
    (∃ (s : State), s.dev.host.linkUp = true) ∧
    (∃ (s : State) (lam : Nat), lam < 8 ∧ s.dev.host.badLambdas.contains lam = false ∧ s.dev.host.linkUp = true) ∧
    (∃ (s : State), s.dev.host.linkUp = false ∧ s.dev.pwr.good = true ∧ s.dev.dieOn 25 = true) := by
  refine ⟨⟨on up, 5#32, ?_⟩,
    ⟨on upc, ?_⟩,
    ⟨on { upc with host := { up.host with state := 7, orphanCause := 1, orphanUs := 0 } }, ?_⟩,
    ⟨on up, ?_⟩,
    ⟨on up, 7, ?_⟩,
    ⟨on { up with host := {} }, ?_⟩⟩
  all_goals decide +kernel

theorem test_meets_OrphanAll :
    (∃ (d : Dev) (cause : Nat), 5 ≤ d.host.state ∧ d.host.state ≠ 7) ∧
    (∃ (d : Dev) (cause : Nat), ∃ k, 5 ≤ d.host.state ∧ d.host.state ≠ 7 ∧ (let e := d.orphanAll cause; k < 4)) ∧
    (∃ (d : Dev) (cause : Nat), ∃ c,
      5 ≤ d.host.state ∧ d.host.state ≠ 7 ∧ (let e := d.orphanAll cause; c < 8 ∧ (d.ctx c).isOpen = true)) := by
  refine ⟨⟨upc, 1, ?_⟩,
    ⟨upc, 1, 0, ?_⟩,
    ⟨upc, 1, 0, ?_⟩⟩
  all_goals decide +kernel

theorem test_meets_TicksAndShedding :
    (∃ (s : State) (core : Nat) (work : List Nat), s.dev.fwRuns = true ∧ s.dev.cplx.cores.contains core = true) ∧
    (∃ (s : State), s.dev.fwRuns = true ∧ s.dev.cplx.busy.any (fun t => decide (9500 < t)) = true ∧ s.dev.fw.shed < 3) ∧
    (∃ (s : State), s.dev.fwRuns = true ∧ s.dev.cplx.busy.all (fun t => decide (t < 8000)) = true ∧ 9 ≤ s.dev.fw.quiet) := by
  refine ⟨⟨on up, 1, [0, 0, 100, 100, 0, 0, 0, 0, 0], ?_⟩,
    ⟨on { up with fw := { up.fw with complexes := [{ active := true, cores := [0, 1, 2, 3], busy := [9501, 0, 0, 0] }, {}] } }, ?_⟩,
    ⟨on { up with fw := { up.fw with shed := 2, quiet := 9 } }, ?_⟩⟩
  all_goals decide +kernel

theorem test_meets_FirmwareRestarts :
    (∃ (s : State) (prio : Nat), s.dev.fwRuns = true ∧ 1 ≤ prio ∧ prio ≤ 9 ∧ at' s.dev.fw.svc (prio - 1) 0 = 0) ∧
    (∃ (s : State) (core : Nat), s.dev.fwRuns = true ∧ s.dev.cplx.cores.contains core = true) ∧
    (∃ (s : State), s.dev.fwRuns = true ∧ s.dev.cplx.restarting = 2) ∧
    (∃ (s : State), s.dev.fwRuns = true ∧ s.dev.cplx.restarting ≠ 0 ∧ s.dev.host.inflight = []) ∧
    (∃ (s : State), s.dev.fw.absentSince.isSome = true ∧ s.dev.fw.paused = false) ∧
    (∃ (s : State), s.dev.fw.absentSince.isSome = true ∧ s.dev.fwRuns = false) ∧
    (∃ (s : State),
      s.dev.fwRuns = true ∧ 3 ≤ s.dev.recentRestarts.length ∧ (at' s.dev.fw.complexes (1 - s.dev.fwHalf) {}).standby = true) ∧
    (∃ (s : State),
      s.dev.fwRuns = true ∧ 3 ≤ s.dev.recentRestarts.length ∧ (at' s.dev.fw.complexes (1 - s.dev.fwHalf) {}).standby = false) ∧
    (∃ (s : State), s.dev.fw.handing = true ∧ s.dev.host.inflight = []) ∧
    (∃ (s : State) (half : Nat) (core : Nat) (pass : Bool), s.dev.coreTestDue half core = true) := by
  refine ⟨⟨on up, 9, ?_⟩,
    ⟨on up, 3, ?_⟩,
    ⟨on { up with fw := { up.fw with complexes := [{ active := true, cores := [0, 1, 2], restarting := 2 }, {}] } }, ?_⟩,
    ⟨on { up with fw := { up.fw with complexes := [{ active := true, cores := [0, 1, 2], restarting := 2 }, {}] } }, ?_⟩,
    ⟨on { up with fw := { up.fw with absentSince := some 0 } }, ?_⟩,
    ⟨on { up with fw := { up.fw with absentSince := some 0, complexes := [{}, {}] } }, ?_⟩,
    ⟨on { up with fw := { up.fw with restartTimes := [0, 0, 0] } }, ?_⟩,
    ⟨on { up with fw := { up.fw with restartTimes := [0, 0, 0], complexes := [{ active := true, cores := [0, 1, 2, 3] }, {}] } }, ?_⟩,
    ⟨on { up with fw := { up.fw with handing := true } }, ?_⟩,
    ⟨on { up with bell := 10 ^ 9 }, 1, 3, true, ?_⟩⟩
  all_goals decide +kernel

theorem test_meets_ManagementPort :
    (∃ (s : State) (n : Nat), s.dev.mgmtUp = true ∧ s.dev.freeSub = some n) ∧
    (∃ (s : State) (k : Nat) (r : Record), s.dev.mgmtUp = true ∧ s.dev.log.records.reverse[k]? = some r) ∧
    (∃ (s : State) (id : Nat) (ok : Bool) (q : Subscription) (r : Record) (rest : List Record),
      s.dev.mgmtUp = true ∧ at' s.dev.fw.svc 6 0 = 0 ∧ s.dev.fw.subs.find? (fun q => q.id = id) = some q ∧ q.dropped = 0 ∧
      q.queue = r :: rest ∧
      (let d := (s.dev.emit (.redfish id r)).updSub id
           (fun q => if ok then { q with queue := rest, stage := 0 } else { q with stage := min 14 (q.stage + 1) });
       q.stage = 0)) ∧
    (∃ (s : State) (id : Nat) (ok : Bool) (q : Subscription) (r : Record) (rest : List Record),
      s.dev.mgmtUp = true ∧ at' s.dev.fw.svc 6 0 = 0 ∧ s.dev.fw.subs.find? (fun q => q.id = id) = some q ∧ q.dropped = 0 ∧
      q.queue = r :: rest ∧
      (let d := (s.dev.emit (.redfish id r)).updSub id
           (fun q => if ok then { q with queue := rest, stage := 0 } else { q with stage := min 14 (q.stage + 1) });
       q.stage ≠ 0)) ∧
    (∃ (s : State) (req : List Byte), s.dev.mgmtUp = true ∧ 4 ≤ req.length ∧ req.length ≤ 4096) := by
  refine ⟨⟨on up, 0, ?_⟩,
    ⟨on { up with log := { records := [rec0] } }, 0, rec0, ?_⟩,
    ⟨on { up with fw := { up.fw with subs := [{ id := 2, sse := false, queue := [rec0] }] } }, 2, true,
     { id := 2, sse := false, queue := [rec0] }, rec0, [], ?_⟩,
    ⟨on { up with fw := { up.fw with subs := [{ id := 2, sse := false, queue := [rec0], stage := 14 }] } }, 2, false,
     { id := 2, sse := false, queue := [rec0], stage := 14 }, rec0, [], ?_⟩,
    ⟨on up, [1, 2, 3, 4], ?_⟩⟩
  all_goals decide +kernel

theorem test_meets_RegisterAccess :
    (∃ (s : State) (die : Nat) (off : Nat),
      isRc die off = true ∧ ((die ≠ 64 ∧ s.dev.dieOn die = true) ∨ (die = 64 ∧ s.dev.host.linkUp = true))) ∧
    (∃ (s : State) (die : Nat) (since : Nat), (die = 16 ∨ die = 17) ∧ s.dev.dieOn die = true) ∧
    (∃ (s : State), s.dev.host.linkUp = true) ∧
    (∃ (s : State) (core : Nat) (index : Nat) (v : Word),
      index < 4 ∧ s.dev.halfOn 0 = true ∧ dieHalf 16 = s.dev.fwHalf ∧ s.dev.dpaValid (ctlDpa 16 (0x0B000020 + 4 * index)) = true) ∧
    (∃ (s : State) (core : Nat) (die : Nat) (off : Nat) (v : Word) (r : RwsReg),
      (die = 16 ∨ die = 17) ∧ off % 4 = 0 ∧ s.dev.dieOn die = true ∧ rwsReg die off = some r ∧ s.dev.dpaValid (ctlDpa die off) = true ∧
      dieHalf die = s.dev.fwHalf) ∧
    (∃ (s : State) (core : Nat) (die : Nat) (off : Nat) (v : Word),
      off % 4 = 0 ∧ s.dev.dpaValid (ctlDpa die off) = true ∧ dieHalf die ≠ s.dev.fwHalf) ∧
    (∃ (s : State) (core : Nat) (die : Nat) (off : Nat) (v : Word), off % 4 = 0 ∧ s.dev.dpaValid (ctlDpa die off) = false) ∧
    (∃ (s : State) (half : Nat) (core : Nat) (die : Nat) (off : Nat) (v : Word),
      s.dev.halfOn half = true ∧ core < 48 ∧ s.dev.hubReaches half core die off = false) ∧
    (∃ (s : State) (core : Nat) (half : Nat) (v : Word),
      v.toNat < 65536 ∧ s.dev.halfOn half = true ∧ s.dev.groupIn v.toNat half = true ∧ s.dev.mayArm v.toNat half = true ∧
      s.dev.dpaValid (ctlDpa (hubDie half) 0x10000000) = true ∧ half = s.dev.fwHalf) ∧
    (∃ (s : State) (h : Hdr) (opcode : Nat), s.dev.takes h = true ∧ assignedOpcode opcode = false) := by
  refine ⟨⟨on { up with rc := [(regKey 64 0x48, 5)] }, 64, 0x48, ?_⟩,
    ⟨on up, 17, 5, ?_⟩,
    ⟨on up, ?_⟩,
    ⟨on { up with health := { sticky := [3, 0, 0, 0] } }, 0, 0, 1#32, ?_⟩,
    ⟨on up, 0, 16, 0x0B000008, 5#32, { reset := rwsReset 16 0x0B000008, mask := 0x001FFFFF, group := 0xC000 }, ?_⟩,
    ⟨on up, 0, 17, 0x0B000008, 5#32, ?_⟩,
    ⟨on up, 0, 63, 0x00000000, 5#32, ?_⟩,
    ⟨on hubDev, 0, 0, 17, 0x0F000040, 1#32, ?_⟩,
    ⟨on up, 0, 0, 0xC000#32, ?_⟩,
    ⟨on up, hd, 0xFFF, ?_⟩⟩
  all_goals decide +kernel

theorem test_meets_BellBoundary :
    (∃ (s : State), s.dev.pwr.phase = 4) ∧
    (∃ (s : State), s.dev.pwr.phase ≠ 4) := by
  refine ⟨⟨on up, ?_⟩,
    ⟨on {}, ?_⟩⟩
  all_goals decide +kernel

theorem test_meets_Admission :
    (∃ (s : State) (c : Nat) (newer : Bool) (task : Nat) (mb : Nat) (g : GraphHdr) (run : StepRun), ∃ st,
      let dn := s.dev.noteReady c newer;
      dn.attemptGraph c newer = some g ∧ (dn.ctx c).step? newer = some run ∧ dn.eligible c newer g run task mb = true ∧ dn.fw.paused =
      false ∧ dn.pwr.phase ≠ 5 ∧ dn.pausedHalf ((dn.graphTask g task).half % 2) = false ∧ dn.inst? c newer task mb = none ∧
      (let t := dn.graphTask g task;
       let w := dn.admWork g run (dn.newInst c newer run t task mb);
       let d := dn.admOpen t;
       d.checkFail w = some st)) ∧
    (∃ (s : State) (c : Nat) (newer : Bool) (task : Nat) (mb : Nat) (g : GraphHdr) (run : StepRun), ∃ (e : Dev) (y : Inst),
      let dn := s.dev.noteReady c newer;
      dn.attemptGraph c newer = some g ∧ (dn.ctx c).step? newer = some run ∧ dn.eligible c newer g run task mb = true ∧ dn.fw.paused =
      false ∧ dn.pwr.phase ≠ 5 ∧ dn.pausedHalf ((dn.graphTask g task).half % 2) = false ∧ dn.inst? c newer task mb = none ∧
      (let t := dn.graphTask g task;
       let w := dn.admWork g run (dn.newInst c newer run t task mb);
       let d := dn.admOpen t;
       d.checkFail w = none ∧ t.op ≠ opUpdate ∧ d.admPinned w = false ∧ d.admHeld w run = false ∧ d.reserve w = .takes e y)) ∧
    (∃ (s : State) (c : Nat) (newer : Bool) (task : Nat) (mb : Nat),
      let dn := s.dev.noteReady c newer;
      (∀ g run, dn.attemptGraph c newer = some g → (dn.ctx c).step? newer = some run → dn.eligible c newer g run task mb = false)) ∧
    (∃ (s : State) (c : Nat) (newer : Bool) (task : Nat) (mb : Nat) (x : Inst),
      s.dev.inst? c newer task mb = some x ∧ x.state = 0 ∧ x.waitPool.isSome = true) ∧
    (∃ (s : State) (c : Nat) (newer : Bool) (task : Nat) (mb : Nat) (x : Inst),
      s.dev.inst? c newer task mb = some x ∧ x.state = 0 ∧ x.fetches ≠ []) := by
  refine ⟨⟨on { runDev 8 0 0 0x0C with insts := [] }, 0, false, 0, 0, badNoted.readGraph 0x1000, badRun, St.reservedNonzero, ?_⟩,
    ⟨on copyDev, 0, false, 0, 0, copyNoted.readGraph 0x1000, copyRun, copyNoted.admOpen copyTask, copyInst, ?_⟩,
    ⟨on up, 0, false, 0, 0, ?_⟩,
    ⟨on { copyDev with insts := [{ i0 with state := 0, waitPool := some 0 }] }, 0, false, 0, 0,
     { i0 with state := 0, waitPool := some 0 }, ?_⟩,
    ⟨on { copyDev with insts := [{ i0 with state := 0, fetches := [1] }] }, 0, false, 0, 0, { i0 with state := 0, fetches := [1] }, ?_⟩⟩
  · decide +kernel
  · decide +kernel
  · try dsimp only
    intro g run h
    have e : ((on up).dev.noteReady 0 false).attemptGraph 0 false = none := by decide +kernel
    rw [e] at h
    cases h
  · decide +kernel
  · decide +kernel

theorem test_meets_SliceIssued :
    ∃ (s : State) (die : Nat) (cl : Nat) (core : Nat) (b : Dev) (w : Work),
      s.dev.coreIssues die cl core = true ∧
      (let key := coreKey die cl core;
       (s.dev.core key).act.length = 4 ∧ (s.dev.core key).nxt.length = 4 ∧
       (let all := s.dev.insts.map (fun i => (s.dev, i)) ++ s.dev.admittable (dieHalf die);
        let cands := (s.dev.issueOrder (all.filter (fun q => q.1.issuable q.2 && q.2.half = dieHalf die))).filterMap
            (fun q => (q.1.work q.2).map (fun w => (q.1, w)));
        cands.find? (fun q => (enginesFor q.2).any (fun e => (s.dev.core key).takes e) && !q.1.namesParked q.2) = some (b, w))) := by
  refine ⟨on ({ runDev 4 0 0 0x0A with insts := [{ i0 with op := 4, tiles := 2 }] }), 0, 0, 0,
     { runDev 4 0 0 0x0A with insts := [{ i0 with op := 4, tiles := 2 }] },
     workOf ({ runDev 4 0 0 0x0A with insts := [{ i0 with op := 4, tiles := 2 }] }) ({ i0 with op := 4, tiles := 2 }), ?_⟩
  decide +kernel

theorem test_meets_TilesAndGroups :
    (∃ (s : State) (die : Nat) (cl : Nat) (core : Nat) (tile : Nat) (f : TileFault) (sl : Slice) (q : TileEnd),
      s.dev.actSlice (coreKey die cl core) 0 = some sl ∧ sl.nextTile = some tile ∧ s.dev.dieOn die = true ∧
      (f.walk = true → sl.bound = false) ∧ sl.refold = false ∧ s.dev.tileEnd (coreKey die cl core) 0 tile f = some q) ∧
    (∃ (s : State) (die : Nat) (cl : Nat) (core : Nat) (eng : Nat) (tile : Nat) (f : TileFault) (sl : Slice) (q : TileEnd),
      eng < 2 ∧ s.dev.actSlice (coreKey die cl core) (eng + 1) = some sl ∧ at' (s.dev.core (coreKey die cl core)).arr eng none = none ∧
      sl.failed = [] ∧ sl.nextTile = some tile ∧ s.dev.dieOn die = true ∧ (f.walk = true → sl.bound = false) ∧ sl.refold = false ∧
      s.dev.tileEnd (coreKey die cl core) (eng + 1) tile f = some q) ∧
    (∃ (s : State) (die : Nat) (cl : Nat) (core : Nat) (tile : Nat) (f : TileFault) (sl : Slice) (q : TileEnd),
      s.dev.actSlice (coreKey die cl core) 0 = some sl ∧ sl.failed.any (fun f => f.1 = tile) = true ∧ s.dev.dieOn die = true ∧
      (f.walk = true → sl.bound = false) ∧ sl.refold = false ∧ s.dev.tileEnd (coreKey die cl core) 0 tile f = some q) ∧
    (∃ (s : State) (die : Nat) (cl : Nat) (core : Nat) (eng : Nat) (f : TileFault) (t : ForeignTile) (sl : Slice) (q : TileEnd),
      eng < 2 ∧ s.dev.dieOn die = true ∧
      (let key := coreKey die cl core;
       let e := t.requester - 1;
       at' (s.dev.core key).arr eng none = some t ∧
       (let d := s.dev.setCore key { s.dev.core key with arr := setAt (s.dev.core key).arr eng none };
        d.actSlice key e = some sl ∧ (f.walk = true → sl.bound = false) ∧ sl.refold = false ∧ d.tileEnd key e t.tile f = some q))) ∧
    (∃ (s : State) (die : Nat) (cl : Nat) (core : Nat) (tile : Nat) (f : TileFault) (sl : Slice),
      s.dev.actSlice (coreKey die cl core) 0 = some sl ∧ sl.nextTile = some tile ∧ s.dev.dieOn die = true ∧ f.walk = true ∧
      sl.bound = true) ∧
    (∃ (s : State) (die : Nat) (cl : Nat) (core : Nat) (group : Nat) (fail : Nat) (sl : Slice) (w : Work),
      s.dev.actSlice (coreKey die cl core) 3 = some sl ∧
      ((List.range (sl.hi - sl.lo)).map (sl.lo + ·)).find? (fun g => !sl.drained.contains g) = some group ∧ s.dev.dieOn die = true ∧
      s.dev.sliceWork sl = some w ∧ (fail ≤ 1 ∨ fail = 3)) ∧
    (∃ (s : State) (die : Nat) (cl : Nat) (core : Nat) (sl : Slice) (x : Inst),
      s.dev.actSlice (coreKey die cl core) 0 = some sl ∧ sl.allWritten = true ∧ s.dev.sliceInst sl = some x ∧ x.written = x.tiles ∧
      x.issued = x.tiles ∧ x.nfPos = 0) := by
  refine ⟨⟨on (fmulDev sl0), 0, 0, 0, 0, wrong, sl0, endOf (fmulDev sl0) 0 0 wrong (ip 1), ?_⟩,
    ⟨on bmulDev, 0, 0, 0, 1, 0, TileFault.none, sl0, endOf bmulDev 2 0 TileFault.none (ip 2), ?_⟩,
    ⟨on (fmulDev { sl0 with failed := [(1, 0)] }), 0, 0, 0, 1, TileFault.none, { sl0 with failed := [(1, 0)] },
     endOf (fmulDev { sl0 with failed := [(1, 0)] }) 0 1 TileFault.none (ip 1), ?_⟩,
    ⟨on ftDev, 0, 0, 0, 0, TileFault.none, { requester := 1, tile := 1 }, { sl0 with foreign := [(1, 1)] },
     endOf ftDev0 0 1 TileFault.none (ip 1), ?_⟩,
    ⟨on (fmulDev { sl0 with bound := true }), 0, 0, 0, 0, { TileFault.none with walk := true }, { sl0 with bound := true }, ?_⟩,
    ⟨on (onEngine (runDev 3 0 0 0x0A) 3 { sl0 with op := 3 } 3), 0, 0, 0, 0, 0, { sl0 with op := 3 },
     workOf (onEngine (runDev 3 0 0 0x0A) 3 { sl0 with op := 3 } 3) ({ i0 with op := 3, tiles := 2, issued := 2 }), ?_⟩,
    ⟨on
     { onEngine (runDev 1 0 0 0x08) 0 { sl0 with drained := [0, 1] } 1 with insts :=
       [{ i0 with op := 1, tiles := 2, issued := 2, written := 2 }] }, 0, 0, 0, { sl0 with drained := [0, 1] },
     { i0 with op := 1, tiles := 2, issued := 2, written := 2 }, ?_⟩⟩
  all_goals decide +kernel

theorem test_meets_WorkEnds :
    (∃ (s : State) (c : Nat) (newer : Bool) (task : Nat) (mb : Nat) (w : Work) (a : TD) (b : TD),
      (s.dev.inst? c newer task mb).bind s.dev.work = some w ∧ w.x.op = opCopy ∧ w.x.state = 1 ∧ s.dev.inputsReady w.x = true ∧
      s.dev.attemptRuns c newer = true ∧
      (let dv := s.dev.withWindows w.x; dv.inTd w 0 = some a ∧ s.dev.outTd w 1 = some b ∧ (s.dev.firstWrite w).2 = true)) ∧
    (∃ (s : State) (c : Nat) (newer : Bool) (task : Nat) (mb : Nat) (x : Inst) (r : StepRun) (q : Coll),
      s.dev.inst? c newer task mb = some x ∧ (s.dev.ctx c).step? newer = some r ∧
      s.dev.coll? c (s.dev.collSeq c newer task mb) r.gen = some q ∧ x.op = opCollective ∧ x.state = 1 ∧ q.result.isSome = true ∧
      q.failed = none) ∧
    (∃ (s : State) (c : Nat) (newer : Bool) (task : Nat) (mb : Nat) (w : Work) (r : StepRun) (y : TD),
      (s.dev.inst? c newer task mb).bind s.dev.work = some w ∧ (s.dev.ctx c).step? newer = some r ∧
      r.rungs.any (fun q => q.1 = task && q.2.1 = mb) = false ∧ w.x.state = 2 ∧ w.t.op = opConvert ∧ w.t.ladder = true ∧
      w.t.recompute = false ∧ s.dev.rawTd w 1 = some y ∧ startRung y.fmt < w.x.rung ∧ (s.dev.ctx c).fbOver = true) ∧
    (∃ (s : State) (c : Nat) (task : Nat) (mb : Nat) (since : Nat) (w : Work) (r : StepRun),
      ((s.dev.noteReady c true).inst? c true task mb).bind (s.dev.noteReady c true).work = some w ∧
      ((s.dev.noteReady c true).ctx c).newer = some r ∧ (s.dev.noteReady c true).mayComplete w r = true) ∧
    (∃ (s : State) (c : Nat) (newer : Bool) (r : StepRun),
      (s.dev.ctx c).step? newer = some r ∧ r.attempts ≠ 0 ∧ r.live = true ∧ r.firstBell + r.limit ≤ s.dev.bell) ∧
    (∃ (s : State) (c : Nat) (newer : Bool) (r : StepRun),
      (s.dev.ctx c).step? newer = some r ∧ s.dev.bell < r.firstBell + r.limit) := by
  refine ⟨⟨on { copyDev with insts := [i0] }, 0, false, 0, 0, workOf ({ copyDev with insts := [i0] }) (i0), copyDev.readTd 0x4000,
      copyDev.readTd 0x4040, ?_⟩,
    ⟨on
     { jobDev 2 false with insts := [{ i0 with op := 7 }],
                           fab :=
                           { colls :=
                             [{ ctx := 0, newer := false, task := 0, mb := 0, cseq := 0, gen := 0, due := 0,
                                result := some part0 }] } }, 0, false, 0, 0, { i0 with op := 7 }, r0,
     { ctx := 0, newer := false, task := 0, mb := 0, cseq := 0, gen := 0, due := 0, result := some part0 }, ?_⟩,
    ⟨on ladDev, 0, false, 0, 0, workOf ladDev ladInst, r0, ladDev.readTd 0x4040, ?_⟩,
    ⟨on newDev, 0, 0, 0, 5, workOf newDev newInst0, r0, ?_⟩,
    ⟨on
     { copyDev with bell := 101 ,
                    ctxs := [(0, { cx with graphs := [{ gid := 0, image := 0x1000 }], older := some { r0 with firstBell := 1 } })] }, 0,
     false, { r0 with firstBell := 1 }, ?_⟩,
    ⟨on
     { copyDev with bell := 100 ,
                    ctxs := [(0, { cx with graphs := [{ gid := 0, image := 0x1000 }], older := some { r0 with firstBell := 1 } })] }, 0,
     false, { r0 with firstBell := 1 }, ?_⟩⟩
  all_goals decide +kernel

theorem test_meets_UpdateTensors :
    (∃ (s : State) (c : Nat) (newer : Bool) (task : Nat) (x : Inst) (j : UpdJob),
      s.dev.inst? c newer task 0 = some x ∧ s.dev.updJob c newer task = some j ∧ s.dev.updReady x = true ∧
      (∀ y, y ∈ s.dev.insts → y.half = x.half → s.dev.updReady y = true → (s.dev.updRank x).1 < (s.dev.updRank y).1 ∨
       ((s.dev.updRank x).1 = (s.dev.updRank y).1 ∧ (s.dev.updRank x).2 ≤ (s.dev.updRank y).2)) ∧
      (∀ y, y ∈ s.dev.insts → ¬ (y.op = opUpdate ∧ y.half = x.half ∧ y.state = 1 ∧ y.started = true)) ∧
      s.dev.updPoison c x.mb j = none ∧ j.r.refreshes j.step = false) ∧
    (∃ (s : State) (c : Nat) (newer : Bool) (task : Nat) (x : Inst) (j : UpdJob),
      s.dev.inst? c newer task 0 = some x ∧ s.dev.updJob c newer task = some j ∧ x.op = opUpdate ∧ x.state = 1 ∧ x.started = true ∧
      j.r.refreshes j.step = false ∧ (let o := s.dev.updCompute c x.mb j; o.bad = none)) ∧
    (∃ (s : State) (c : Nat) (newer : Bool) (task : Nat) (i : Nat) (x : Inst) (j : UpdJob),
      s.dev.inst? c newer task 0 = some x ∧ s.dev.updJob c newer task = some j ∧ x.op = opUpdate ∧ x.state = 1 ∧ x.started = true ∧
      j.r.refreshes j.step = false ∧ (s.dev.updCompute c x.mb j).bad = some i) ∧
    (∃ (s : State) (c : Nat) (newer : Bool) (task : Nat) (x : Inst) (j : UpdJob) (r : StepRun),
      s.dev.inst? c newer task 0 = some x ∧ s.dev.updJob c newer task = some j ∧ x.op = opUpdate ∧ x.state = 1 ∧ x.started = true ∧
      (s.dev.ctx c).step? newer = some r ∧ r.updRun = 0 ∧ (let u := hubUnit x.half 2; ((s.dev.hist u).loc u).1.tA = none)) := by
  refine ⟨⟨on (updDev 0x3F80 false), 0, false, 1, updInst0 false, jobOfUpd (updDev 0x3F80 false), ?_⟩,
    ⟨on (updDev 0x3F80 true), 0, false, 1, updInst0 true, jobOfUpd (updDev 0x3F80 true), ?_⟩,
    ⟨on (updDev 0x7FC0 true), 0, false, 1, 0, updInst0 true, jobOfUpd (updDev 0x7FC0 true), ?_⟩,
    ⟨on (updDev 0x3F80 true), 0, false, 1, updInst0 true, jobOfUpd (updDev 0x3F80 true), r0, ?_⟩⟩
  all_goals decide +kernel

theorem test_meets_Packets :
    (∃ (s : State) (port : Nat) (c : Nat) (b : Bool) (k : Packet) (data : List Byte),
      s.dev.delivers port 0 k ∧
      (let d := s.dev.linkTake port k;
       d.receiver k = some (c, b) ∧
       (let key := rxKey c k.dstHalf k.tag;
        let a : Packet :=
            { dst := k.src, dstHalf := k.srcHalf, src := s.dev.fab.phys, srcHalf := portHalf port, ldst := k.ldst, vc := 1, type := 1,
              gen := k.gen, tag := k.tag, len := 1, poison := false, express := false, lane := 0, ctx := c, rsv := false };
        k.dstHalf % 2 = portHalf port))) ∧
    (∃ (s : State) (port : Nat) (c : Nat) (b : Bool) (k : Packet) (data : List Byte),
      s.dev.delivers port 0 k ∧
      (let d := s.dev.linkTake port k;
       d.receiver k = some (c, b) ∧
       (let key := rxKey c k.dstHalf k.tag;
        let a : Packet :=
            { dst := k.src, dstHalf := k.srcHalf, src := s.dev.fab.phys, srcHalf := portHalf port, ldst := k.ldst, vc := 1, type := 1,
              gen := k.gen, tag := k.tag, len := 1, poison := false, express := false, lane := 0, ctx := c, rsv := false };
        k.dstHalf % 2 ≠ portHalf port ∧ d.halfOn (k.dstHalf % 2) = true))) ∧
    (∃ (s : State) (port : Nat) (k : Packet) (data : List Byte), s.dev.delivers port 1 k) ∧
    (∃ (s : State) (port : Nat) (k : Packet) (data : List Byte), s.dev.delivers port 4 k) ∧
    (∃ (s : State) (port : Nat) (k : Packet) (data : List Byte), s.dev.delivers port 5 k) ∧
    (∃ (s : State) (port : Nat) (c : Nat) (b : Bool) (k : Packet) (p : Part),
      (s.dev.linkTake port k).receiver k = some (c, b) ∧ k.dstHalf % 2 = portHalf port ∧ k.poison = false ∧ s.dev.delivers port 2 k) ∧
    (∃ (s : State) (port : Nat) (c : Nat) (b : Bool) (k : Packet) (p : Part),
      (s.dev.linkTake port k).receiver k = some (c, b) ∧ k.dstHalf % 2 = portHalf port ∧ k.poison = false ∧ s.dev.delivers port 3 k) ∧
    (∃ (s : State) (port : Nat) (k : Packet),
      s.dev.linkOn port = true ∧ k.type = 1 ∧ k.rsv = false ∧ 0 < k.len ∧ k.len ≤ 64 ∧ k.dst ≠ s.dev.fab.phys) := by
  refine ⟨⟨on lineDev, 0, 0, false, pk 0, [1#8], ?_⟩,
    ⟨on lineDev, 0, 0, false, { pk 0 with dstHalf := 1 }, [1#8], ?_⟩,
    ⟨on lineDev, 0, pk 1, [], ?_⟩,
    ⟨on lineDev, 0, pk 4, [1#8], ?_⟩,
    ⟨on lineDev, 0, pk 5, [1#8], ?_⟩,
    ⟨on lineDev, 0, 0, false, pk 2, part0, ?_⟩,
    ⟨on lineDev, 0, 0, false, pk 3, part0, ?_⟩,
    ⟨on lineDev, 24, { pk 1 with dst := 1, len := 64 }, ?_⟩⟩
  all_goals try dsimp only [Dev.inFreeSession, Dev.inSession, Dev.inContext, Dev.takesClean, Dev.delivers, Dev.calm]
  all_goals decide +kernel

theorem test_meets_Exchanges :
    (∃ (s : State) (c : Nat) (src : Nat) (r : StepRun),
      (s.dev.ctx c).bound = true ∧ (s.dev.jobOf c).contains src = true ∧ (s.dev.ctx c).older = some r ∧ r.state = 2) ∧
    (∃ (s : State) (c : Nat) (src : Nat) (v : Vote) (r : StepRun),
      (s.dev.ctx c).bound = true ∧ (s.dev.jobOf c).contains src = true ∧ (s.dev.ctx c).older = some r ∧ r.state = 5) ∧
    (∃ (s : State) (c : Nat) (dec : Decision) (r : StepRun), (s.dev.ctx c).bound = true ∧ (s.dev.ctx c).older = some r ∧ r.state = 5) ∧
    (∃ (s : State) (c : Nat) (src : Nat) (since : Nat) (v : Vote) (r : StepRun),
      (s.dev.ctx c).bound = true ∧ (s.dev.jobOf c).contains src = true ∧ (s.dev.ctx c).older = some r ∧ (r.state = 2 ∨ r.state = 3)) ∧
    (∃ (s : State) (c : Nat) (dec : Decision) (r : StepRun),
      (s.dev.ctx c).bound = true ∧ (s.dev.ctx c).older = some r ∧ r.state = 3 ∧ r.voted = true ∧ r.decision = none ∧ dec.kind ≠ 2 ∧
      s.dev.bell < dec.bell) ∧
    (∃ (s : State) (c : Nat) (src : Nat) (since : Nat) (v : Vote) (dec : Decision), (s.dev.ctx c).bound = false) := by
  refine ⟨⟨on (jobDev 2 false), 0, 1, { r0 with state := 2 }, ?_⟩,
    ⟨on (jobDev 5 false), 0, 1, vote0, { r0 with state := 5 }, ?_⟩,
    ⟨on (jobDev 5 false), 0, dec0, { r0 with state := 5 }, ?_⟩,
    ⟨on (jobDev 3 false), 0, 1, 5, vote0, { r0 with state := 3 }, ?_⟩,
    ⟨on (jobDev 3 true), 0, dec0, { r0 with state := 3, voted := true }, ?_⟩,
    ⟨on upc, 0, 1, 5, vote0, dec0, ?_⟩⟩
  all_goals decide +kernel

theorem test_meets_LinkEvents :
    (∃ (s : State) (port : Nat) (seq : Nat), s.dev.linkOn port = true ∧ seq < 4096) ∧
    (∃ (s : State) (port : Nat) (counts : List Nat), s.dev.linkOn port = true ∧ counts.length = 8 ∧ (∀ n, n ∈ counts → n < 4096)) ∧
    (∃ (s : State) (port : Nat) (seq : Nat), s.dev.linkOn port = true ∧ (s.dev.port port).discarding = false ∧ seq < 4096) ∧
    (∃ (s : State) (port : Nat) (lam : Nat),
      isUlusil port = true ∧ s.dev.halfOn (portHalf port) = true ∧
      (let x := s.dev.port port; let l := x.lambdas.filter (· ≠ lam); 4 ≤ l.length)) ∧
    (∃ (s : State) (port : Nat) (lam : Nat),
      isUlusil port = true ∧ s.dev.halfOn (portHalf port) = true ∧
      (let x := s.dev.port port; let l := x.lambdas.filter (· ≠ lam); l.length < 4)) ∧
    (∃ (x : Port) (seq : Nat) (f : Flit), f ∈ ackFlits x.replay seq) := by
  refine ⟨⟨on lineDev, 24, 4095, ?_⟩,
    ⟨on lineDev, 0, [1, 2, 3, 4, 5, 6, 7, 4095], ?_⟩,
    ⟨on lineDev, 0, 4095, ?_⟩,
    ⟨on { lineDev with fab := { lineDev.fab with ports := [(0, { state := 2, lambdas := [0, 1, 2, 3, 4] })] } }, 0, 4, ?_⟩,
    ⟨on { lineDev with fab := { lineDev.fab with ports := [(0, { state := 2, lambdas := [0, 1, 2, 3] })] } }, 0, 3, ?_⟩,
    ⟨{ state := 2, replay := [{ seq := 4095, msg := 0, sends := 1 }, { seq := 0, msg := 0, sends := 1 }] }, 4095,
     { seq := 0, msg := 0, sends := 1 }, ?_⟩⟩
  all_goals decide +kernel

theorem test_meets_Crosscut :
    (∃ (s : State) (dir : Nat) (link : Nat) (f : XFlit),
      s.dev.xcOn dir link = true ∧ flitOk f = true ∧ flitSeq f = (s.dev.xlink dir link).rxSeq) ∧
    (∃ (s : State) (dir : Nat) (link : Nat) (f : XFlit), flitOk f = true ∧ flitSeq f ≠ (s.dev.xlink dir link).rxSeq) ∧
    (∃ (s : State) (dir : Nat) (link : Nat) (f : XFlit),
      s.dev.xcOn dir link = true ∧ flitOk f = false ∧
      ((s.dev.xlink dir link).discarding = true → flitSeq f = (s.dev.xlink dir link).rxSeq)) ∧
    (∃ (s : State) (dir : Nat) (link : Nat) (seq : Nat), s.dev.xcOn dir link = true ∧ seq < 4096) ∧
    (∃ (s : State) (dir : Nat) (link : Nat), s.dev.xcOn dir link = true) ∧
    (∃ (d : Dev) (half : Nat) (m : XMsg),
      d.xc.fenced = false ∧ m.cls < 2 ∧
      d.xc.windows.any (fun w => w.half = half && w.num = m.window && w.gen = m.gen && !w.got) = false) := by
  refine ⟨⟨on up, 0, 31, xFlit msg0 0 0, ?_⟩,
    ⟨on up, 0, 31, xFlit msg0 1 0, ?_⟩,
    ⟨on up, 1, 31, { xFlit msg0 0 0 with parity := 0 }, ?_⟩,
    ⟨on up, 1, 31, 4095, ?_⟩,
    ⟨on up, 1, 0, ?_⟩,
    ⟨up, 0, msg0, ?_⟩⟩
  all_goals decide +kernel

theorem test_meets_FlitsRoundTrip :
    (∃ (m : XMsg) (seq : Nat), ∃ i,
      m.cls < 3 ∧ m.src < 40 ∧ m.dst < 40 ∧ m.window < 65536 ∧ m.gen < 256 ∧ m.words ≠ [] ∧ i < msgFlits m) ∧
    (∃ (m : XMsg) (seq : Nat), m.cls < 3 ∧ m.src < 40 ∧ m.dst < 40 ∧ m.window < 65536 ∧ m.gen < 256 ∧ m.words ≠ []) := by
  refine ⟨⟨msg17, 4095, 1, ?_⟩,
    ⟨msg17, 4095, ?_⟩⟩
  all_goals decide +kernel

theorem test_meets_DeepAndStash :
    (∃ (s : State) (id : Nat) (q : DeepReq) (data : List Byte), s.dev.deep.find? (fun q => q.id = id) = some q ∧ q.kind = 0) ∧
    (∃ (s : State) (id : Nat) (q : DeepReq), s.dev.deep.find? (fun q => q.id = id) = some q) ∧
    (∃ (s : State) (id : Nat) (ok : Bool) (po : Bool) (data : List Byte), s.dev.deep.any (fun q => q.id = id) = false) ∧
    (∃ (s : State) (half : Nat) (q : DeepReq), s.dev.deep = [q] ∧ q.half = half) ∧
    (∃ (s : State) (half : Nat), s.dev.halfOn half = true) ∧
    (∃ (s : State) (half : Nat) (off : Nat),
      half < 2 ∧ off < 2 ^ 38 ∧
      (let a := half * 2 ^ 47 + off / 64 * 64; s.dev.dpaValid a = true ∧ s.dev.heldExt (a / 2 ^ 21) = false)) ∧
    (∃ (s : State) (c : Nat) (lines : List (Nat × List Byte)), (s.dev.ctx c).repairs = []) ∧
    (∃ (s : State) (c : Nat) (l : Nat) (b : List Byte),
      (s.dev.ctx c).repairs = [l] ∧ (s.dev.ctx c).relief.inRing = true ∧ (s.dev.ctx c).relief.upkeep = false ∧ b.length = 64) ∧
    (∃ (s : State) (key : Nat) (n : Nat),
      s.dev.health.pendRetire.contains (0, key) = true ∧ at' s.dev.health.stashSpare (halfOf key) 0 = n + 1) := by
  refine ⟨⟨on { upc with deep := [{ id := 3, half := 0, kind := 0, ctx := 0, newer := false, task := 0, mb := 0, target := 0x100 }] }, 3,
      { id := 3, half := 0, kind := 0, ctx := 0, newer := false, task := 0, mb := 0, target := 0x100 }, [1#8], ?_⟩,
    ⟨on { upc with deep := [{ id := 3, half := 0, kind := 0, ctx := 0, newer := false, task := 0, mb := 0, target := 0x100 }] }, 3,
     { id := 3, half := 0, kind := 0, ctx := 0, newer := false, task := 0, mb := 0, target := 0x100 }, ?_⟩,
    ⟨on upc, 3, true, false, [1#8], ?_⟩,
    ⟨on { upc with deep := [{ id := 3, half := 1, kind := 3, ctx := 0, newer := false, task := 0, mb := 0, target := 0x100 }] }, 1,
     { id := 3, half := 1, kind := 3, ctx := 0, newer := false, task := 0, mb := 0, target := 0x100 }, ?_⟩,
    ⟨on upc, 1, ?_⟩,
    ⟨on up, 1, 2 ^ 38 - 1, ?_⟩,
    ⟨on upc, 0, [(0, [])], ?_⟩,
    ⟨on { ringDev with ctxs := [(0, { ringCx with repairs := [4] })] }, 0, 4, List.replicate 64 1#8, ?_⟩,
    ⟨on { up with health := { pendRetire := [(0, 5)], stashSpare := [1, 64] } }, 5, 0, ?_⟩⟩
  all_goals decide +kernel

theorem test_meets_BlockScales :
    (∃ (d : Dev) (c : Nat) (mb : Nat) (t : TD) (p : Pos), isMx t.fmt = true ∧ d.scaleCode c mb t p ≤ 0xFE) ∧
    (∃ (d : Dev) (c : Nat) (mb : Nat) (t : TD) (p : Pos), isMx t.fmt = true ∧ d.scaleCode c mb t p = 0xFF) ∧
    (∃ (d : Dev) (c : Nat) (mb : Nat) (t : TD) (p : Pos) (e : Int),
      t.fmt = 0x0B ∧ -127 ≤ e ∧ e ≤ 127 ∧ d.scaleCode c mb t p = (e % 256).toNat) ∧
    (∃ (d : Dev) (c : Nat) (mb : Nat) (t : TD) (p : Pos), t.fmt = 0x0B ∧ d.scaleCode c mb t p = 0x80) ∧
    (∃ (xs : List Machine.Num) (ts : Machine.Num) (e : Int), ∃ o,
      -128 < e ∧ e ≤ 127 ∧ (convertBfx xs ts e).1 = 0x80 ∧ o ∈ (convertBfx xs ts e).2) := by
  refine ⟨⟨{ upc with mem := memOf [(0x100, [0xFE])] }, 0, 0, mxTd 1, ⟨0, 0, 0, 0⟩, ?_⟩,
    ⟨{ upc with mem := memOf [(0x100, [0xFF])] }, 0, 0, mxTd 1, ⟨0, 0, 0, 0⟩, ?_⟩,
    ⟨{ upc with mem := memOf [(0x100, [0x81])] }, 0, 0, mxTd 0x0B, ⟨0, 0, 0, 0⟩, -127, ?_⟩,
    ⟨{ upc with mem := memOf [(0x100, [0x80])] }, 0, 0, mxTd 0x0B, ⟨0, 0, 0, 0⟩, ?_⟩,
    ⟨[.nan], .fin false 1, 127, ({ bits := 0, ev := .nonfinite } : COut), ?_⟩⟩
  all_goals decide +kernel

theorem test_meets_SignedZero :
    (∃ (code : Nat) (t : FloatFmt) (neg : Bool) (infOk : Bool) (m : Rat), floatFmt code = some t ∧ t.round m = 0) ∧
    (∃ (neg : Bool) (infOk : Bool) (m : Rat), roundStep m (pow2 (-6)) = 0) ∧
    (∃ (neg : Bool) (ts : Machine.Num) (z : Int), -128 ≤ z ∧ z ≤ 127 ∧ (∃ u : Rat, ts = .fin false u ∧ u ≠ 0)) ∧
    (∃ (neg : Bool) (ts : Machine.Num) (e : Int), (∃ u : Rat, ts = .fin false u ∧ u ≠ 0)) := by
  refine ⟨⟨1, ⟨2, 1, 1, 0, 2, 6, false, none⟩, true, false, 0, ?_⟩,
    ⟨true, false, 1 / 1000, ?_⟩,
    ⟨true, .fin false 1, -128, ?_⟩,
    ⟨true, .fin false 1, 0, ?_⟩⟩
  · decide +kernel
  · decide +kernel
  · exact ⟨by decide, by decide, 1, rfl, by decide⟩
  · exact ⟨1, rfl, by decide⟩

theorem test_meets_CanonicalNan :
    (∃ (code : Nat) (v : Nat) (ts : Machine.Num) (infOk : Bool), decodeElem code v = .nan) ∧
    (∃ (xs : List Machine.Num) (ts : Machine.Num) (i : Nat), xs[i]? = some .nan) := by
  refine ⟨⟨0x0A, 0xFFFFFFFF, .fin false 1, false, ?_⟩,
    ⟨[.zero, .nan], .fin false 1, 1, ?_⟩⟩
  all_goals decide +kernel

theorem test_meets_FormatsRoundTrip :
    ∃ (code : Nat) (v : Nat) (t : FloatFmt) (neg : Bool) (infOk : Bool) (m : Rat),
      floatFmt code = some t ∧ v < 2 ^ (1 + t.ebits + t.f) ∧ decodeElem code v = .fin neg m := by
  refine ⟨1, 0xF, ⟨2, 1, 1, 0, 2, 6, false, none⟩, true, false, 6, ?_⟩
  decide +kernel

theorem test_meets_StepKeepsInv :
    ∃ (s : State) (t : State), s.dev.Inv ∧ step s = .next t := by
  refine ⟨{ pending := [.hostHeartbeatWrite 5], dev := up }, { pending := [], dev := { up with host := { up.host with heartbeat := 5 } } },
     ?_⟩
  · exact ⟨by unfold Dev.Inv; decide +kernel, rfl⟩

theorem test_meets_OnlyBellsCount :
    ∃ (i : Instr) (s : State) (t : State), exec i s = .next t := by
  refine ⟨.bell 2 1000 0 0 true, on { up with fab := { state := 2, dims := [2, 1, 1, 1], phys := 1 } },
     { pending := [], dev := bellEff 2 1000 0 0 true { up with fab := { state := 2, dims := [2, 1, 1, 1], phys := 1 } } }, ?_⟩
  · rfl

/-! ## Well-formedness -/

/-- Every command has a well-formed instance. -/
def goodTerms : List Instr :=
  ([.sessHello hd 0 0 0, .sessBye hd 0, .sessAdopt hd 0, .sessReset hd 0 0, .sessSpdm hd 0 0 0 0, .ctxOpen hd, .ctxClose hd,
   .ctxSnapshot hd 0 0, .ctxRestore hd 0 0 0, .ctxQuery hd, .memAlloc hd 0 0 0 0, .memFree hd 0, .memHint hd 0 0, .memQuota hd 0 0 0 0,
   .memQuery hd 0, .memAssign hd 0 0 0 0 0, .graphLoad hd 0, .graphUnload hd 0, .stepSubmit hd p1, .stepAbort hd 0, .stepQuery hd 0,
   .kvCreate hd 0 0 0 0 0 0 0 0, .kvSwap hd 0 0 0 0, .kvSet hd 0 0 0 0, .kvRelease hd 0 0, .kvQuery hd 0,
   .fabJoin hd 0 0 0 0 0 0 0 0 0 0, .fabLeave hd, .fabBind hd 0 0 0 0, .fabGroup hd 0 0, .fabQuery hd, .reliefArm hd 0 0 0,
   .reliefSpare hd 0, .reliefStart hd 0, .reliefQuery hd, .hltRead hd 0 0, .logRead hd 0 0 0, .logClear hd 0, .hltCanary hd 0,
   .hltSticky hd 0 0, .hltQuery hd, .cfgStage hd 0 0, .cfgCommitCmd hd 0, .cfgOverlay hd 0, .cfgQuery hd 0 0, .pwrLimit hd 0 0,
   .pwrQuery hd, .pwrTelemetry hd 0 0, .opcodeInvalid hd 0xFFF, .cmdTailDoorbell 0 0] : List Instr)
  ++ ([.ringEnableWrite 0 0, .eventRingEnableWrite 0, .loadStart, .loadGo, .loadAbort, .imageVerifyDone true 0 0, .baseConfigLoad,
   .startTimeout, .hostHeartbeatWrite 0, .hostHeartbeatLost, .orphanGraceExpiry, .hotReset, .flr, .hostLinkDown, .hostWavelengthLoss 0,
   .bar2Read 0 1, .bar2Write 0 [1], .eventDeliver, .rcCounterRead 0 0, .belNowRead 0 0, .hifBellRead,
   .stickyClearWrite (.headframe 0) 0 0, .registerWrite (.headframe 0) 0 0 0, .hubAccessFault 0 0 0 0,
   .guardedStore (.headframe 0) 0 [1], .hubEvictedAccess 0 0 ⟨0, 0⟩ true, .cfgCommitWrite (.headframe 0) 0 0, .tlyPortGo 0 0 0,
   .tallyDrawDone 0 0 true, .kvPortSwap 0 0, .kvPortSet 0 0, .kvPortOpDone 0 0, .hubDoneWrite 0 0 0, .dbcDoorbell (.headframe 0) 0 0,
   .dbcMaskSet (.headframe 0) 0 0, .dbcMaskClr (.headframe 0) 0 0, .dbcPendSet (.headframe 0) 0 0, .dbcPendClr (.headframe 0) 0 0,
   .dbcEoi 0 0 0, .doorbellDispatch 0, .instanceAdmit 0 true 0 0, .pageExhausted 0 true 0 0, .hbmAdmitDeadline 0 true 0 0,
   .sliceIssue 0 0 0, .fTileDrain 0 0 0 0 TileFault.none, .bTileDrain 0 0 0 0 0 TileFault.none, .tileReplay 0 0 0 0 TileFault.none,
   .foreignTileRun 0 0 0 0 TileFault.none, .vuGroupDone 0 0 0 0 0, .sliceComplete 0 0 0] : List Instr)
  ++ ([.spareHandoff 0 0 0, .coreMapOut 0 0 0, .ladderConvertDone 0 true 0 0, .copyDone 0 true 0 0, .updateTensorStart 0 true 0,
   .updateTensorDone 0 true 0 true, .collectiveComplete 0 true 0 0, .instanceComplete 0 true 0 0 0, .attemptDrained 0 true,
   .stepTimeout 0 true, .bellBoundary, .locationRetire 0 0, .ulusilWritePacket 0 (pk 1) [], .writeAckPacket 0 (pk 1),
   .collectiveContribution 0 (pk 1) part0, .collectiveResult 0 (pk 1) part0, .abandonNotice 0 0, .abandonVote 0 0 vote0,
   .abandonDecision 0 dec0, .sealVote 0 0 vote0 0, .sealDecision 0 dec0, .reliefNotice 0 0, .leaveNotice 0 0, .digestNotice 0 0,
   .spareClaim 0 0 0, .spareClaimTimeout 0, .spareClaimAnswer 0 0 true, .reliefRebuildDone 0 0 ⟨[], []⟩ [], .spareReady 0,
   .reliefLeadTimeout 0 0, .parityUpkeepDone 0 0 ⟨true, [], []⟩, .controlPacket 0 (pk 1) [], .managementPacket 0 (pk 1) [],
   .bell 0 0 0 0 true, .heartbeat 0 0 0 true, .ack 0 0, .nak 0 0, .credit 0 (List.replicate 8 0), .portRetire 0, .wavelengthFail 0 0,
   .fabUnresponsive 0, .trainingComplete, .trainingTimeout, .bellLock, .bellLockTimeout, .leaveTimeout, .bellHoldover,
   .secondaryTimekeeper, .bellLost, .crosscutMessage 0 0 (xFlit msg0 0 0) []] : List Instr)
  ++ ([.crosscutReplayRequest 0 0 0, .crosscutLinkRetire 0 0, .deepResponse 0 true true [], .deepTimeout 0, .deepLinkDown 0,
   .stashMoveDone 0, .parityRepairDone 0 true [], .scrubLine 0 0 0, .healthPoll [], .suspectRelease 0, .canaryStart 0,
   .canaryResult 0 true, .canaryHandoffTimeout 0, .canaryRunTimeout 0, .canaryDeferred 0, .suspectCanaryDue 0, .redfishPush 0 true,
   .redfishRetry 0 true, .redfishRequest 0 0, .spdmTcpRequest [], .kernelTick 0 0 (List.replicate 9 0), .shedWindowEnd 0,
   .serviceException 1, .watchdogBite 0, .coreRestartTimeout, .fwRestartDone true, .fwAbsent, .fwAbsentFailed, .handover 0,
   .handoverDone, .headframeCoreTest 0 0 true, .supplyInRange, .classSelected 0 0 true, .domainInTolerance 0, .domainToleranceTimeout 0,
   .pwrEnRise, .pwrEnFall, .powerFault, .thermTrip, .throttleStep 0 0 0 true, .telemetrySample 0 0 0 0 0 0, .powerDownComplete,
   .sensorsBelow85C, .hostLinkUp, .crosscutAck 0 0 0, .crosscutParityFail 0 0 (xFlit msg0 0 0), .flitCrcFail 0 0] : List Instr)

theorem test_wf_takes : goodTerms.all Instr.wf = true ∧ goodTerms.length = 197 := by decide +kernel

/-- A command for each check of Instr.wf that fails that check alone. -/
def badTerms : List Instr :=
  ([.sessHello ({ hd with set := 4 }) 0 0 0, .sessHello ({ hd with index := 4096 }) 0 0 0, .sessHello ({ hd with ctx := 2 ^ 16 }) 0 0 0,
   .sessHello hd (2 ^ 16) 0 0, .sessHello hd 0 (2 ^ 16) 0, .sessHello hd 0 0 (2 ^ 16), .sessBye ({ hd with set := 4 }) 0,
   .sessBye ({ hd with index := 4096 }) 0, .sessBye ({ hd with ctx := 2 ^ 16 }) 0, .sessBye hd (2 ^ 8),
   .sessAdopt ({ hd with set := 4 }) 0, .sessAdopt ({ hd with index := 4096 }) 0, .sessAdopt ({ hd with ctx := 2 ^ 16 }) 0,
   .sessReset ({ hd with set := 4 }) 0 0, .sessReset ({ hd with index := 4096 }) 0 0, .sessReset ({ hd with ctx := 2 ^ 16 }) 0 0,
   .sessReset hd (2 ^ 8) 0, .sessReset hd 0 (2 ^ 8), .sessSpdm ({ hd with set := 4 }) 0 0 0 0,
   .sessSpdm ({ hd with index := 4096 }) 0 0 0 0, .sessSpdm ({ hd with ctx := 2 ^ 16 }) 0 0 0 0, .sessSpdm hd (2 ^ 64) 0 0 0,
   .sessSpdm hd 0 (2 ^ 16) 0 0, .sessSpdm hd 0 0 (2 ^ 64) 0, .sessSpdm hd 0 0 0 (2 ^ 16), .ctxOpen ({ hd with set := 4 }),
   .ctxOpen ({ hd with index := 4096 }), .ctxOpen ({ hd with ctx := 2 ^ 16 }), .ctxClose ({ hd with set := 4 }),
   .ctxClose ({ hd with index := 4096 }), .ctxClose ({ hd with ctx := 2 ^ 16 }), .ctxSnapshot ({ hd with set := 4 }) 0 0,
   .ctxSnapshot ({ hd with index := 4096 }) 0 0, .ctxSnapshot ({ hd with ctx := 2 ^ 16 }) 0 0, .ctxSnapshot hd (2 ^ 64) 0,
   .ctxSnapshot hd 0 (2 ^ 32), .ctxRestore ({ hd with set := 4 }) 0 0 0, .ctxRestore ({ hd with index := 4096 }) 0 0 0,
   .ctxRestore ({ hd with ctx := 2 ^ 16 }) 0 0 0, .ctxRestore hd (2 ^ 64) 0 0, .ctxRestore hd 0 (2 ^ 32) 0, .ctxRestore hd 0 0 (2 ^ 8),
   .ctxQuery ({ hd with set := 4 }), .ctxQuery ({ hd with index := 4096 }), .ctxQuery ({ hd with ctx := 2 ^ 16 }),
   .memAlloc ({ hd with set := 4 }) 0 0 0 0, .memAlloc ({ hd with index := 4096 }) 0 0 0 0,
   .memAlloc ({ hd with ctx := 2 ^ 16 }) 0 0 0 0, .memAlloc hd (2 ^ 64) 0 0 0, .memAlloc hd 0 (2 ^ 8) 0 0] : List Instr)
  ++ ([.memAlloc hd 0 0 (2 ^ 16) 0, .memAlloc hd 0 0 0 (2 ^ 8), .memFree ({ hd with set := 4 }) 0, .memFree ({ hd with index := 4096 }) 0,
   .memFree ({ hd with ctx := 2 ^ 16 }) 0, .memFree hd (2 ^ 64), .memHint ({ hd with set := 4 }) 0 0,
   .memHint ({ hd with index := 4096 }) 0 0, .memHint ({ hd with ctx := 2 ^ 16 }) 0 0, .memHint hd (2 ^ 64) 0, .memHint hd 0 (2 ^ 16),
   .memQuota ({ hd with set := 4 }) 0 0 0 0, .memQuota ({ hd with index := 4096 }) 0 0 0 0,
   .memQuota ({ hd with ctx := 2 ^ 16 }) 0 0 0 0, .memQuota hd (2 ^ 16) 0 0 0, .memQuota hd 0 (2 ^ 8) 0 0, .memQuota hd 0 0 (2 ^ 32) 0,
   .memQuota hd 0 0 0 (2 ^ 32), .memQuery ({ hd with set := 4 }) 0, .memQuery ({ hd with index := 4096 }) 0,
   .memQuery ({ hd with ctx := 2 ^ 16 }) 0, .memQuery hd (2 ^ 16), .memAssign ({ hd with set := 4 }) 0 0 0 0 0,
   .memAssign ({ hd with index := 4096 }) 0 0 0 0 0, .memAssign ({ hd with ctx := 2 ^ 16 }) 0 0 0 0 0, .memAssign hd (2 ^ 8) 0 0 0 0,
   .memAssign hd 0 (2 ^ 8) 0 0 0, .memAssign hd 0 0 (2 ^ 8) 0 0, .memAssign hd 0 0 0 (2 ^ 16) 0, .memAssign hd 0 0 0 0 (2 ^ 16),
   .graphLoad ({ hd with set := 4 }) 0, .graphLoad ({ hd with index := 4096 }) 0, .graphLoad ({ hd with ctx := 2 ^ 16 }) 0,
   .graphLoad hd (2 ^ 64), .graphUnload ({ hd with set := 4 }) 0, .graphUnload ({ hd with index := 4096 }) 0,
   .graphUnload ({ hd with ctx := 2 ^ 16 }) 0, .graphUnload hd (2 ^ 8), .stepSubmit ({ hd with set := 4 }) p1,
   .stepSubmit ({ hd with index := 4096 }) p1, .stepSubmit ({ hd with ctx := 2 ^ 16 }) p1, .stepSubmit hd ({ p1 with graph := 256 }),
   .stepSubmit hd ({ p1 with schedule := 256 }), .stepSubmit hd ({ p1 with nanPolicy := 256 }),
   .stepSubmit hd ({ p1 with replayMax := 256 }), .stepSubmit hd ({ p1 with mbCount := 2 ^ 16 }),
   .stepSubmit hd ({ p1 with step := 2 ^ 32 }), .stepSubmit hd ({ p1 with timeout := 2 ^ 32 }),
   .stepSubmit hd ({ p1 with startBell := 2 ^ 64 }), .stepAbort ({ hd with set := 4 }) 0] : List Instr)
  ++ ([.stepAbort ({ hd with index := 4096 }) 0, .stepAbort ({ hd with ctx := 2 ^ 16 }) 0, .stepAbort hd (2 ^ 32),
   .stepQuery ({ hd with set := 4 }) 0, .stepQuery ({ hd with index := 4096 }) 0, .stepQuery ({ hd with ctx := 2 ^ 16 }) 0,
   .stepQuery hd (2 ^ 32), .kvCreate ({ hd with set := 4 }) 0 0 0 0 0 0 0 0, .kvCreate ({ hd with index := 4096 }) 0 0 0 0 0 0 0 0,
   .kvCreate ({ hd with ctx := 2 ^ 16 }) 0 0 0 0 0 0 0 0, .kvCreate hd (2 ^ 64) 0 0 0 0 0 0 0, .kvCreate hd 0 (2 ^ 64) 0 0 0 0 0 0,
   .kvCreate hd 0 0 (2 ^ 64) 0 0 0 0 0, .kvCreate hd 0 0 0 (2 ^ 32) 0 0 0 0, .kvCreate hd 0 0 0 0 (2 ^ 32) 0 0 0,
   .kvCreate hd 0 0 0 0 0 (2 ^ 16) 0 0, .kvCreate hd 0 0 0 0 0 0 (2 ^ 16) 0, .kvCreate hd 0 0 0 0 0 0 0 (2 ^ 16),
   .kvSwap ({ hd with set := 4 }) 0 0 0 0, .kvSwap ({ hd with index := 4096 }) 0 0 0 0, .kvSwap ({ hd with ctx := 2 ^ 16 }) 0 0 0 0,
   .kvSwap hd (2 ^ 64) 0 0 0, .kvSwap hd 0 (2 ^ 64) 0 0, .kvSwap hd 0 0 (2 ^ 32) 0, .kvSwap hd 0 0 0 (2 ^ 32),
   .kvSet ({ hd with set := 4 }) 0 0 0 0, .kvSet ({ hd with index := 4096 }) 0 0 0 0, .kvSet ({ hd with ctx := 2 ^ 16 }) 0 0 0 0,
   .kvSet hd (2 ^ 64) 0 0 0, .kvSet hd 0 (2 ^ 32) 0 0, .kvSet hd 0 0 0 (2 ^ 32), .kvRelease ({ hd with set := 4 }) 0 0,
   .kvRelease ({ hd with index := 4096 }) 0 0, .kvRelease ({ hd with ctx := 2 ^ 16 }) 0 0, .kvRelease hd (2 ^ 64) 0,
   .kvRelease hd 0 (2 ^ 32), .kvQuery ({ hd with set := 4 }) 0, .kvQuery ({ hd with index := 4096 }) 0,
   .kvQuery ({ hd with ctx := 2 ^ 16 }) 0, .kvQuery hd (2 ^ 64), .fabJoin ({ hd with set := 4 }) 0 0 0 0 0 0 0 0 0 0,
   .fabJoin ({ hd with index := 4096 }) 0 0 0 0 0 0 0 0 0 0, .fabJoin ({ hd with ctx := 2 ^ 16 }) 0 0 0 0 0 0 0 0 0 0,
   .fabJoin hd (2 ^ 32) 0 0 0 0 0 0 0 0 0, .fabJoin hd 0 (2 ^ 16) 0 0 0 0 0 0 0 0, .fabJoin hd 0 0 (2 ^ 8) 0 0 0 0 0 0 0,
   .fabJoin hd 0 0 0 (2 ^ 8) 0 0 0 0 0 0, .fabJoin hd 0 0 0 0 (2 ^ 8) 0 0 0 0 0, .fabJoin hd 0 0 0 0 0 (2 ^ 8) 0 0 0 0,
   .fabJoin hd 0 0 0 0 0 0 (2 ^ 8) 0 0 0] : List Instr)
  ++ ([.fabJoin hd 0 0 0 0 0 0 0 (2 ^ 16) 0 0, .fabJoin hd 0 0 0 0 0 0 0 0 (2 ^ 16) 0, .fabJoin hd 0 0 0 0 0 0 0 0 0 3,
   .fabLeave ({ hd with set := 4 }), .fabLeave ({ hd with index := 4096 }), .fabLeave ({ hd with ctx := 2 ^ 16 }),
   .fabBind ({ hd with set := 4 }) 0 0 0 0, .fabBind ({ hd with index := 4096 }) 0 0 0 0, .fabBind ({ hd with ctx := 2 ^ 16 }) 0 0 0 0,
   .fabBind hd (2 ^ 32) 0 0 0, .fabBind hd 0 (2 ^ 16) 0 0, .fabBind hd 0 0 (2 ^ 64) 0, .fabBind hd 0 0 0 (2 ^ 16),
   .fabGroup ({ hd with set := 4 }) 0 0, .fabGroup ({ hd with index := 4096 }) 0 0, .fabGroup ({ hd with ctx := 2 ^ 16 }) 0 0,
   .fabGroup hd (2 ^ 8) 0, .fabGroup hd 0 (2 ^ 64), .fabQuery ({ hd with set := 4 }), .fabQuery ({ hd with index := 4096 }),
   .fabQuery ({ hd with ctx := 2 ^ 16 }), .reliefArm ({ hd with set := 4 }) 0 0 0, .reliefArm ({ hd with index := 4096 }) 0 0 0,
   .reliefArm ({ hd with ctx := 2 ^ 16 }) 0 0 0, .reliefArm hd (2 ^ 64) 0 0, .reliefArm hd 0 (2 ^ 64) 0, .reliefArm hd 0 0 (2 ^ 32),
   .reliefSpare ({ hd with set := 4 }) 0, .reliefSpare ({ hd with index := 4096 }) 0, .reliefSpare ({ hd with ctx := 2 ^ 16 }) 0,
   .reliefSpare hd (2 ^ 8), .reliefStart ({ hd with set := 4 }) 0, .reliefStart ({ hd with index := 4096 }) 0,
   .reliefStart ({ hd with ctx := 2 ^ 16 }) 0, .reliefStart hd (2 ^ 16), .reliefQuery ({ hd with set := 4 }),
   .reliefQuery ({ hd with index := 4096 }), .reliefQuery ({ hd with ctx := 2 ^ 16 }), .hltRead ({ hd with set := 4 }) 0 0,
   .hltRead ({ hd with index := 4096 }) 0 0, .hltRead ({ hd with ctx := 2 ^ 16 }) 0 0, .hltRead hd (2 ^ 16) 0, .hltRead hd 0 (2 ^ 64),
   .logRead ({ hd with set := 4 }) 0 0 0, .logRead ({ hd with index := 4096 }) 0 0 0, .logRead ({ hd with ctx := 2 ^ 16 }) 0 0 0,
   .logRead hd (2 ^ 32) 0 0, .logRead hd 0 (2 ^ 32) 0, .logRead hd 0 0 (2 ^ 64), .logClear ({ hd with set := 4 }) 0] : List Instr)
  ++ ([.logClear ({ hd with index := 4096 }) 0, .logClear ({ hd with ctx := 2 ^ 16 }) 0, .logClear hd (2 ^ 16),
   .hltCanary ({ hd with set := 4 }) 0, .hltCanary ({ hd with index := 4096 }) 0, .hltCanary ({ hd with ctx := 2 ^ 16 }) 0,
   .hltCanary hd (2 ^ 16), .hltSticky ({ hd with set := 4 }) 0 0, .hltSticky ({ hd with index := 4096 }) 0 0,
   .hltSticky ({ hd with ctx := 2 ^ 16 }) 0 0, .hltSticky hd (2 ^ 8) 0, .hltQuery ({ hd with set := 4 }),
   .hltQuery ({ hd with index := 4096 }), .hltQuery ({ hd with ctx := 2 ^ 16 }), .cfgStage ({ hd with set := 4 }) 0 0,
   .cfgStage ({ hd with index := 4096 }) 0 0, .cfgStage ({ hd with ctx := 2 ^ 16 }) 0 0, .cfgStage hd (2 ^ 64) 0,
   .cfgStage hd 0 (2 ^ 16), .cfgCommitCmd ({ hd with set := 4 }) 0, .cfgCommitCmd ({ hd with index := 4096 }) 0,
   .cfgCommitCmd ({ hd with ctx := 2 ^ 16 }) 0, .cfgCommitCmd hd (2 ^ 16), .cfgOverlay ({ hd with set := 4 }) 0,
   .cfgOverlay ({ hd with index := 4096 }) 0, .cfgOverlay ({ hd with ctx := 2 ^ 16 }) 0, .cfgOverlay hd (2 ^ 8),
   .cfgQuery ({ hd with set := 4 }) 0 0, .cfgQuery ({ hd with index := 4096 }) 0 0, .cfgQuery ({ hd with ctx := 2 ^ 16 }) 0 0,
   .cfgQuery hd (2 ^ 16) 0, .cfgQuery hd 0 (2 ^ 8), .pwrLimit ({ hd with set := 4 }) 0 0, .pwrLimit ({ hd with index := 4096 }) 0 0,
   .pwrLimit ({ hd with ctx := 2 ^ 16 }) 0 0, .pwrLimit hd (2 ^ 8) 0, .pwrLimit hd 0 (2 ^ 32), .pwrQuery ({ hd with set := 4 }),
   .pwrQuery ({ hd with index := 4096 }), .pwrQuery ({ hd with ctx := 2 ^ 16 }), .pwrTelemetry ({ hd with set := 4 }) 0 0,
   .pwrTelemetry ({ hd with index := 4096 }) 0 0, .pwrTelemetry ({ hd with ctx := 2 ^ 16 }) 0 0, .pwrTelemetry hd (2 ^ 32) 0,
   .pwrTelemetry hd 0 (2 ^ 64), .opcodeInvalid ({ hd with set := 4 }) 0xFFF, .opcodeInvalid ({ hd with index := 4096 }) 0xFFF,
   .opcodeInvalid ({ hd with ctx := 2 ^ 16 }) 0xFFF, .opcodeInvalid hd (2 ^ 16), .opcodeInvalid hd 0x0101] : List Instr)
  ++ ([.cmdTailDoorbell 4 0, .cmdTailDoorbell 0 (2 ^ 32), .ringEnableWrite 4 0, .imageVerifyDone true (2 ^ 384) 0,
   .imageVerifyDone true 0 (2 ^ 32), .hostWavelengthLoss 8, .bar2Read (2 ^ 36) 1, .bar2Read 0 0, .bar2Write (2 ^ 36) [1],
   .bar2Write 0 [], .rcCounterRead 41 0, .rcCounterRead 0 1, .rcCounterRead 0 (2 ^ 32), .belNowRead 40 0,
   .stickyClearWrite (.hub 2 0) 0 0, .stickyClearWrite (.hub 0 48) 0 0, .stickyClearWrite (.mailbox 4) 0 0,
   .stickyClearWrite (.headframe 4) 0 0, .stickyClearWrite (.headframe 0) 4 0, .registerWrite (.hub 2 0) 0 0 0,
   .registerWrite (.hub 0 48) 0 0 0, .registerWrite (.mailbox 4) 0 0 0, .registerWrite (.headframe 4) 0 0 0,
   .registerWrite (.headframe 0) 40 0 0, .registerWrite (.headframe 0) 0 1 0, .registerWrite (.headframe 0) 0 (2 ^ 32) 0,
   .hubAccessFault 2 0 0 0, .hubAccessFault 0 48 0 0, .hubAccessFault 0 0 0 3, .guardedStore (.hub 2 0) 0 [1],
   .guardedStore (.hub 0 48) 0 [1], .guardedStore (.mailbox 4) 0 [1], .guardedStore (.headframe 4) 0 [1],
   .guardedStore (.headframe 0) 0 [], .hubEvictedAccess 2 0 ⟨0, 0⟩ true, .hubEvictedAccess 0 48 ⟨0, 0⟩ true,
   .hubEvictedAccess 0 0 ⟨0, 3⟩ true, .cfgCommitWrite (.hub 2 0) 0 0, .cfgCommitWrite (.hub 0 48) 0 0, .cfgCommitWrite (.mailbox 4) 0 0,
   .cfgCommitWrite (.headframe 4) 0 0, .cfgCommitWrite (.headframe 0) 2 0, .tlyPortGo 2 0 0, .tlyPortGo 0 48 0, .tallyDrawDone 2 0 true,
   .tallyDrawDone 0 48 true, .kvPortSwap 2 0, .kvPortSwap 0 48, .kvPortSet 2 0, .kvPortSet 0 48] : List Instr)
  ++ ([.kvPortOpDone 2 0, .kvPortOpDone 0 48, .hubDoneWrite 2 0 0, .hubDoneWrite 0 48 0, .dbcDoorbell (.hub 2 0) 0 0,
   .dbcDoorbell (.hub 0 48) 0 0, .dbcDoorbell (.mailbox 4) 0 0, .dbcDoorbell (.headframe 4) 0 0, .dbcDoorbell (.headframe 0) 2 0,
   .dbcMaskSet (.hub 2 0) 0 0, .dbcMaskSet (.hub 0 48) 0 0, .dbcMaskSet (.mailbox 4) 0 0, .dbcMaskSet (.headframe 4) 0 0,
   .dbcMaskSet (.headframe 0) 2 0, .dbcMaskClr (.hub 2 0) 0 0, .dbcMaskClr (.hub 0 48) 0 0, .dbcMaskClr (.mailbox 4) 0 0,
   .dbcMaskClr (.headframe 4) 0 0, .dbcMaskClr (.headframe 0) 2 0, .dbcPendSet (.hub 2 0) 0 0, .dbcPendSet (.hub 0 48) 0 0,
   .dbcPendSet (.mailbox 4) 0 0, .dbcPendSet (.headframe 4) 0 0, .dbcPendSet (.headframe 0) 2 0, .dbcPendClr (.hub 2 0) 0 0,
   .dbcPendClr (.hub 0 48) 0 0, .dbcPendClr (.mailbox 4) 0 0, .dbcPendClr (.headframe 4) 0 0, .dbcPendClr (.headframe 0) 2 0,
   .dbcEoi 2 0 0, .dbcEoi 0 52 0, .doorbellDispatch 2, .instanceAdmit 8 true 0 0, .instanceAdmit 0 true 65536 0,
   .instanceAdmit 0 true 0 256, .pageExhausted 8 true 0 0, .pageExhausted 0 true 65536 0, .pageExhausted 0 true 0 256,
   .hbmAdmitDeadline 8 true 0 0, .hbmAdmitDeadline 0 true 65536 0, .hbmAdmitDeadline 0 true 0 256, .sliceIssue 16 0 0, .sliceIssue 0 4 0,
   .sliceIssue 0 0 9, .fTileDrain 16 0 0 0 TileFault.none, .fTileDrain 0 4 0 0 TileFault.none, .fTileDrain 0 0 9 0 TileFault.none,
   .fTileDrain 0 0 0 0 ({ TileFault.none with cells := [(32, 0, 0, 0)] }),
   .fTileDrain 0 0 0 0 ({ TileFault.none with cells := [(0, 32, 0, 0)] }), .fTileDrain 0 0 0 0 ({ TileFault.none with chk := [(32, 0)] })] : List Instr)
  ++ ([.fTileDrain 0 0 0 0 ({ TileFault.none with strip := [(32, 0, 0)] }),
   .fTileDrain 0 0 0 0 ({ TileFault.none with strip := [(0, 32, 0)] }),
   .fTileDrain 0 0 0 0 ({ TileFault.none with stripChk := [(32, 0)] }),
   .fTileDrain 0 0 0 0 ({ TileFault.none with corr := [(32, 0, 0)] }),
   .fTileDrain 0 0 0 0 ({ TileFault.none with corr := [(0, 32, 0)] }),
   .fTileDrain 0 0 0 0 ({ TileFault.none with corrChk := [(32, 0)] }),
   .fTileDrain 0 0 0 0 ({ TileFault.none with sums := [(32, 0, 0, 0)] }),
   .fTileDrain 0 0 0 0 ({ TileFault.none with sums := [(0, 32, 0, 0)] }), .bTileDrain 16 0 0 0 0 TileFault.none,
   .bTileDrain 0 4 0 0 0 TileFault.none, .bTileDrain 0 0 9 0 0 TileFault.none, .bTileDrain 0 0 0 2 0 TileFault.none,
   .bTileDrain 0 0 0 0 0 ({ TileFault.none with cells := [(32, 0, 0, 0)] }),
   .bTileDrain 0 0 0 0 0 ({ TileFault.none with cells := [(0, 32, 0, 0)] }),
   .bTileDrain 0 0 0 0 0 ({ TileFault.none with chk := [(32, 0)] }),
   .bTileDrain 0 0 0 0 0 ({ TileFault.none with strip := [(32, 0, 0)] }),
   .bTileDrain 0 0 0 0 0 ({ TileFault.none with strip := [(0, 32, 0)] }),
   .bTileDrain 0 0 0 0 0 ({ TileFault.none with stripChk := [(32, 0)] }),
   .bTileDrain 0 0 0 0 0 ({ TileFault.none with corr := [(32, 0, 0)] }),
   .bTileDrain 0 0 0 0 0 ({ TileFault.none with corr := [(0, 32, 0)] }),
   .bTileDrain 0 0 0 0 0 ({ TileFault.none with corrChk := [(32, 0)] }),
   .bTileDrain 0 0 0 0 0 ({ TileFault.none with sums := [(32, 0, 0, 0)] }),
   .bTileDrain 0 0 0 0 0 ({ TileFault.none with sums := [(0, 32, 0, 0)] }), .tileReplay 16 0 0 0 TileFault.none,
   .tileReplay 0 4 0 0 TileFault.none, .tileReplay 0 0 9 0 TileFault.none,
   .tileReplay 0 0 0 0 ({ TileFault.none with cells := [(32, 0, 0, 0)] }),
   .tileReplay 0 0 0 0 ({ TileFault.none with cells := [(0, 32, 0, 0)] }),
   .tileReplay 0 0 0 0 ({ TileFault.none with chk := [(32, 0)] }), .tileReplay 0 0 0 0 ({ TileFault.none with strip := [(32, 0, 0)] }),
   .tileReplay 0 0 0 0 ({ TileFault.none with strip := [(0, 32, 0)] }),
   .tileReplay 0 0 0 0 ({ TileFault.none with stripChk := [(32, 0)] }),
   .tileReplay 0 0 0 0 ({ TileFault.none with corr := [(32, 0, 0)] }),
   .tileReplay 0 0 0 0 ({ TileFault.none with corr := [(0, 32, 0)] }),
   .tileReplay 0 0 0 0 ({ TileFault.none with corrChk := [(32, 0)] }),
   .tileReplay 0 0 0 0 ({ TileFault.none with sums := [(32, 0, 0, 0)] }),
   .tileReplay 0 0 0 0 ({ TileFault.none with sums := [(0, 32, 0, 0)] }), .foreignTileRun 16 0 0 0 TileFault.none,
   .foreignTileRun 0 4 0 0 TileFault.none, .foreignTileRun 0 0 9 0 TileFault.none, .foreignTileRun 0 0 0 2 TileFault.none,
   .foreignTileRun 0 0 0 0 ({ TileFault.none with cells := [(32, 0, 0, 0)] }),
   .foreignTileRun 0 0 0 0 ({ TileFault.none with cells := [(0, 32, 0, 0)] }),
   .foreignTileRun 0 0 0 0 ({ TileFault.none with chk := [(32, 0)] }),
   .foreignTileRun 0 0 0 0 ({ TileFault.none with strip := [(32, 0, 0)] }),
   .foreignTileRun 0 0 0 0 ({ TileFault.none with strip := [(0, 32, 0)] }),
   .foreignTileRun 0 0 0 0 ({ TileFault.none with stripChk := [(32, 0)] }),
   .foreignTileRun 0 0 0 0 ({ TileFault.none with corr := [(32, 0, 0)] }),
   .foreignTileRun 0 0 0 0 ({ TileFault.none with corr := [(0, 32, 0)] }),
   .foreignTileRun 0 0 0 0 ({ TileFault.none with corrChk := [(32, 0)] })] : List Instr)
  ++ ([.foreignTileRun 0 0 0 0 ({ TileFault.none with sums := [(32, 0, 0, 0)] }),
   .foreignTileRun 0 0 0 0 ({ TileFault.none with sums := [(0, 32, 0, 0)] }), .vuGroupDone 16 0 0 0 0, .vuGroupDone 0 4 0 0 0,
   .vuGroupDone 0 0 9 0 0, .vuGroupDone 0 0 0 0 5, .sliceComplete 16 0 0, .sliceComplete 0 4 0, .sliceComplete 0 0 9,
   .spareHandoff 16 0 0, .spareHandoff 0 4 0, .spareHandoff 0 0 8, .coreMapOut 16 0 0, .coreMapOut 0 4 0, .coreMapOut 0 0 9,
   .ladderConvertDone 8 true 0 0, .ladderConvertDone 0 true 65536 0, .ladderConvertDone 0 true 0 256, .copyDone 8 true 0 0,
   .copyDone 0 true 65536 0, .copyDone 0 true 0 256, .updateTensorStart 8 true 0, .updateTensorStart 0 true 65536,
   .updateTensorDone 8 true 0 true, .updateTensorDone 0 true 65536 true, .collectiveComplete 8 true 0 0,
   .collectiveComplete 0 true 65536 0, .collectiveComplete 0 true 0 256, .instanceComplete 8 true 0 0 0,
   .instanceComplete 0 true 65536 0 0, .instanceComplete 0 true 0 256 0, .attemptDrained 8 true, .stepTimeout 8 true,
   .locationRetire 2 0, .ulusilWritePacket 48 (pk 1) [], .ulusilWritePacket 0 ({ pk 1 with dst := 2 ^ 14 }) [],
   .ulusilWritePacket 0 ({ pk 1 with dstHalf := 2 }) [], .ulusilWritePacket 0 ({ pk 1 with src := 2 ^ 14 }) [],
   .ulusilWritePacket 0 ({ pk 1 with srcHalf := 2 }) [], .ulusilWritePacket 0 ({ pk 1 with ldst := 2 ^ 14 }) [],
   .ulusilWritePacket 0 ({ pk 1 with vc := 4 }) [], .ulusilWritePacket 0 ({ pk 1 with type := 256 }) [],
   .ulusilWritePacket 0 ({ pk 1 with gen := 256 }) [], .ulusilWritePacket 0 ({ pk 1 with tag := 2 ^ 32 }) [],
   .ulusilWritePacket 0 ({ pk 1 with len := 128 }) [], .ulusilWritePacket 0 ({ pk 1 with lane := 2 }) [],
   .ulusilWritePacket 0 ({ pk 1 with ctx := 8 }) [], .writeAckPacket 48 (pk 1), .writeAckPacket 0 ({ pk 1 with dst := 2 ^ 14 }),
   .writeAckPacket 0 ({ pk 1 with dstHalf := 2 })] : List Instr)
  ++ ([.writeAckPacket 0 ({ pk 1 with src := 2 ^ 14 }), .writeAckPacket 0 ({ pk 1 with srcHalf := 2 }),
   .writeAckPacket 0 ({ pk 1 with ldst := 2 ^ 14 }), .writeAckPacket 0 ({ pk 1 with vc := 4 }),
   .writeAckPacket 0 ({ pk 1 with type := 256 }), .writeAckPacket 0 ({ pk 1 with gen := 256 }),
   .writeAckPacket 0 ({ pk 1 with tag := 2 ^ 32 }), .writeAckPacket 0 ({ pk 1 with len := 128 }),
   .writeAckPacket 0 ({ pk 1 with lane := 2 }), .writeAckPacket 0 ({ pk 1 with ctx := 8 }), .collectiveContribution 48 (pk 1) part0,
   .collectiveContribution 0 ({ pk 1 with dst := 2 ^ 14 }) part0, .collectiveContribution 0 ({ pk 1 with dstHalf := 2 }) part0,
   .collectiveContribution 0 ({ pk 1 with src := 2 ^ 14 }) part0, .collectiveContribution 0 ({ pk 1 with srcHalf := 2 }) part0,
   .collectiveContribution 0 ({ pk 1 with ldst := 2 ^ 14 }) part0, .collectiveContribution 0 ({ pk 1 with vc := 4 }) part0,
   .collectiveContribution 0 ({ pk 1 with type := 256 }) part0, .collectiveContribution 0 ({ pk 1 with gen := 256 }) part0,
   .collectiveContribution 0 ({ pk 1 with tag := 2 ^ 32 }) part0, .collectiveContribution 0 ({ pk 1 with len := 128 }) part0,
   .collectiveContribution 0 ({ pk 1 with lane := 2 }) part0, .collectiveContribution 0 ({ pk 1 with ctx := 8 }) part0,
   .collectiveResult 48 (pk 1) part0, .collectiveResult 0 ({ pk 1 with dst := 2 ^ 14 }) part0,
   .collectiveResult 0 ({ pk 1 with dstHalf := 2 }) part0, .collectiveResult 0 ({ pk 1 with src := 2 ^ 14 }) part0,
   .collectiveResult 0 ({ pk 1 with srcHalf := 2 }) part0, .collectiveResult 0 ({ pk 1 with ldst := 2 ^ 14 }) part0,
   .collectiveResult 0 ({ pk 1 with vc := 4 }) part0, .collectiveResult 0 ({ pk 1 with type := 256 }) part0,
   .collectiveResult 0 ({ pk 1 with gen := 256 }) part0, .collectiveResult 0 ({ pk 1 with tag := 2 ^ 32 }) part0,
   .collectiveResult 0 ({ pk 1 with len := 128 }) part0, .collectiveResult 0 ({ pk 1 with lane := 2 }) part0,
   .collectiveResult 0 ({ pk 1 with ctx := 8 }) part0, .abandonNotice 8 0, .abandonNotice 0 (2 ^ 14), .abandonVote 8 0 vote0,
   .abandonVote 0 (2 ^ 14) vote0, .abandonDecision 8 dec0, .sealVote 8 0 vote0 0, .sealVote 0 (2 ^ 14) vote0 0, .sealDecision 8 dec0,
   .reliefNotice (2 ^ 32) 0, .reliefNotice 0 (2 ^ 14), .leaveNotice (2 ^ 32) 0, .leaveNotice 0 (2 ^ 14), .digestNotice (2 ^ 14) 0,
   .digestNotice 0 (2 ^ 32)] : List Instr)
  ++ ([.spareClaim (2 ^ 14) 0 0, .spareClaim 0 (2 ^ 32) 0, .spareClaim 0 0 (2 ^ 14), .spareClaimTimeout 8, .spareClaimAnswer 8 0 true,
   .spareClaimAnswer 0 (2 ^ 14) true, .reliefRebuildDone (2 ^ 32) 0 ⟨[], []⟩ [], .reliefRebuildDone 0 (2 ^ 14) ⟨[], []⟩ [],
   .spareReady 8, .reliefLeadTimeout 8 0, .reliefLeadTimeout 0 (2 ^ 14), .parityUpkeepDone 8 0 ⟨true, [], []⟩,
   .parityUpkeepDone 0 (2 ^ 32) ⟨true, [], []⟩, .controlPacket 48 (pk 1) [], .controlPacket 0 ({ pk 1 with dst := 2 ^ 14 }) [],
   .controlPacket 0 ({ pk 1 with dstHalf := 2 }) [], .controlPacket 0 ({ pk 1 with src := 2 ^ 14 }) [],
   .controlPacket 0 ({ pk 1 with srcHalf := 2 }) [], .controlPacket 0 ({ pk 1 with ldst := 2 ^ 14 }) [],
   .controlPacket 0 ({ pk 1 with vc := 4 }) [], .controlPacket 0 ({ pk 1 with type := 256 }) [],
   .controlPacket 0 ({ pk 1 with gen := 256 }) [], .controlPacket 0 ({ pk 1 with tag := 2 ^ 32 }) [],
   .controlPacket 0 ({ pk 1 with len := 128 }) [], .controlPacket 0 ({ pk 1 with lane := 2 }) [],
   .controlPacket 0 ({ pk 1 with ctx := 8 }) [], .managementPacket 48 (pk 1) [], .managementPacket 0 ({ pk 1 with dst := 2 ^ 14 }) [],
   .managementPacket 0 ({ pk 1 with dstHalf := 2 }) [], .managementPacket 0 ({ pk 1 with src := 2 ^ 14 }) [],
   .managementPacket 0 ({ pk 1 with srcHalf := 2 }) [], .managementPacket 0 ({ pk 1 with ldst := 2 ^ 14 }) [],
   .managementPacket 0 ({ pk 1 with vc := 4 }) [], .managementPacket 0 ({ pk 1 with type := 256 }) [],
   .managementPacket 0 ({ pk 1 with gen := 256 }) [], .managementPacket 0 ({ pk 1 with tag := 2 ^ 32 }) [],
   .managementPacket 0 ({ pk 1 with len := 128 }) [], .managementPacket 0 ({ pk 1 with lane := 2 }) [],
   .managementPacket 0 ({ pk 1 with ctx := 8 }) [], .bell 48 0 0 0 true, .bell 0 (2 ^ 48) 0 0 true, .bell 0 0 256 0 true,
   .bell 0 0 0 (2 ^ 14) true, .heartbeat 48 0 0 true, .heartbeat 0 0 2 true, .ack 48 0, .ack 0 4096, .nak 48 0, .nak 0 4096,
   .credit 48 (List.replicate 8 0)] : List Instr)
  ++ ([.credit 0 [], .portRetire 48, .wavelengthFail 48 0, .wavelengthFail 0 8, .fabUnresponsive (2 ^ 14),
   .crosscutMessage 2 0 (xFlit msg0 0 0) [], .crosscutMessage 0 32 (xFlit msg0 0 0) [],
   .crosscutMessage 0 0 ({ xFlit msg0 0 0 with words := [] }) [],
   .crosscutMessage 0 0 (xFlit msg0 0 0) [{ xFlit msg0 0 0 with words := [] }], .crosscutReplayRequest 2 0 0,
   .crosscutReplayRequest 0 32 0, .crosscutReplayRequest 0 0 4096, .crosscutLinkRetire 2 0, .crosscutLinkRetire 0 32, .deepLinkDown 2,
   .stashMoveDone 2, .parityRepairDone 8 true [], .scrubLine 2 0 0, .scrubLine 0 0 3, .suspectRelease (2 ^ 16), .canaryStart (2 ^ 16),
   .canaryResult (2 ^ 16) true, .canaryHandoffTimeout (2 ^ 16), .canaryRunTimeout (2 ^ 16), .canaryDeferred (2 ^ 16),
   .suspectCanaryDue (2 ^ 16), .redfishRequest 6 0, .kernelTick 2 0 (List.replicate 9 0), .kernelTick 0 4 (List.replicate 9 0),
   .kernelTick 0 0 [], .shedWindowEnd 2, .serviceException 0, .serviceException (9 + 1), .watchdogBite 4, .handover 3,
   .headframeCoreTest 2 0 true, .headframeCoreTest 0 4 true, .classSelected 4 0 true, .domainInTolerance 30, .domainToleranceTimeout 30,
   .throttleStep 4 0 0 true, .throttleStep 0 2 0 true, .throttleStep 0 0 30 true, .crosscutAck 2 0 0, .crosscutAck 0 32 0,
   .crosscutAck 0 0 4096, .crosscutParityFail 2 0 (xFlit msg0 0 0), .crosscutParityFail 0 32 (xFlit msg0 0 0),
   .crosscutParityFail 0 0 ({ xFlit msg0 0 0 with words := [] }), .flitCrcFail 48 0] : List Instr)
  ++ ([.flitCrcFail 0 4096] : List Instr)

theorem test_wf_refuses : badTerms.all (fun i => !i.wf) = true := by decide +kernel

/-! ## Worked examples of the spec, and other values read off its rules -/

/-- Chapters 01 and 13, Example: Unit ids. -/
theorem test_unit_ids : coreUnit 11 2 5 3 = 0x2E53 ∧ coreUnit 3 1 15 7 = 0x0DF7 ∧ hubUnitIx 1 0 37 = 0x4650 ∧
    hbmUnit 0x123456780 = 0x8190 := by decide +kernel

/-- Chapter 02, Example: INT8Z channel, with tscale 0.01 and zero point −20. -/
theorem test_int8z : convertInt8z (.fin false (13 / 10)) (.fin false (1 / 100)) (-20) = ⟨110, .none⟩ ∧
    convertInt8z (.fin true (12 / 10)) (.fin false (1 / 100)) (-20) = ⟨128, .overflow⟩ := by decide +kernel

/-- Chapter 02, Example: FP16 gradient overflow, flag bit 2 clear and set. -/
theorem test_fp16_overflow : (([65519, 65520, 70000].map fun m => convertPlain 0x09 (.fin false m) (.fin false 1) false)
      = [⟨0x7BFF, .none⟩, ⟨0x7BFF, .overflow⟩, ⟨0x7BFF, .overflow⟩]) ∧
    (([65519, 65520, 70000].map fun m => convertPlain 0x09 (.fin false m) (.fin false 1) true)
      = [⟨0x7BFF, .none⟩, ⟨0x7C00, .overflow⟩, ⟨0x7C00, .overflow⟩]) ∧
    convertPlain 0x09 (.fin true 1000000) (.fin false 1) false = ⟨0xFBFF, .overflow⟩ ∧
    convertPlain 0x09 (.fin true 1000000) (.fin false 1) true = ⟨0xFC00, .overflow⟩ := by decide +kernel

/-- Chapter 02, Example: MXFP4 block with a scale bump. -/
theorem test_mxfp4_bump : convertMx 1 (([.fin false (175 / 100), .fin true (3 / 10), .fin false (2 / 100), .fin false 7] : List Machine.Num)
      ++ List.replicate 28 Machine.Num.zero) (.fin false 1)
    = (0x80, [⟨2, .none⟩, ⟨8, .underflow⟩, ⟨0, .underflow⟩, ⟨6, .none⟩] ++ List.replicate 28 ⟨0, .none⟩) := by decide +kernel

/-- The same block with 6.5 in place of 7.0 keeps the scale 2⁰. -/
theorem test_mxfp4_no_bump : (convertMx 1 (([.fin false (65 / 10)] : List Machine.Num) ++ List.replicate 31 Machine.Num.zero) (.fin false 1)).1 = 0x7F := by
  decide +kernel

/-- Chapter 06, Example: A small update: steps 63 and 64 of REMAINDER. -/
theorem test_remainder : roundMaster (.fin false (1 - 6325 / 100 * pow2 (-15))) 0 0 = some ⟨.fin false 1, -63, false⟩ ∧
    roundMaster (.fin false (1 - 6425 / 100 * pow2 (-15))) 0 0 = some ⟨.fin false (1 - pow2 (-8)), 127, false⟩ := by decide +kernel

/-- A binding of stream DROPOUT that makes 8-bit masks. -/
def drop0 : TallyBind := {
  stream := 1, tensorId := 2, stepFixed := 0, indexBase := 471859200, pitch1 := 5760, pitch2 := 0, pitch3 := 0
  kind := 1, width := 0, flags := 0, pcode := 230, rsvd := false }

/-- Chapter 07, Example: Loam-40 attention-output dropout: token 173, feature 3. -/
theorem test_tally_index : drop0.index ⟨3, 173, 0, 0⟩ = 472855683 ∧ 472855683 / 16 = 29553480 ∧ 472855683 % 16 = 3 := by decide +kernel

/-- A mask with pcode 0 gives no, and one with pcode 2^w gives yes (R188). -/
theorem test_mask_ends : ({ drop0 with pcode := 0 }.mask 5 6 ⟨7, 0, 0, 0⟩) = false ∧
    ({ drop0 with pcode := 256 }.mask 5 6 ⟨7, 0, 0, 0⟩) = true := by decide +kernel

/-- Chapter 11, Example: Digest, at r = 3: the weighted sums that a block digest forms. -/
theorem test_digest_sums : (3 * 10 + 9 * (digestP - 3)) % digestP = 3 ∧ 3 * 4 + 9 * 6 = 66 ∧ (3 + 66) % digestP = 3 * 14 + 9 * 3 := by
  decide +kernel

/-- The digest of a sum is the sum of the digests (R329). -/
theorem test_digest_adds : (digest 11 2 3 0 [10, -3] + digest 11 2 3 0 [4, 6]) % digestP = digest 11 2 3 0 [14, 3] := by decide +kernel

/-- Chapter 11, Examples: Device id, and Route. -/
theorem test_route : (List.range 4).map (coordOf 0x153B) = [11, 3, 5, 2] ∧
    torusHops [16, 16, 8, 8] 0x153B (2 + 3 * 16 + 1 * 256 + 7 * 2048) = 14 := by decide +kernel

/-- Chapter 03, Example: Two flagged tiles. -/
theorem test_position : posWord 1999 7 2 = 0x80000000001F3CE2 := by decide +kernel

/-- The header of a flit written out bit by bit from R29's table: SEQ 5, CLASS 1, FIRST, LAST, SRC_DIE 1, DST_DIE 2, HPAR0 set
(seven of the bits below it are), WINDOW 1, WORDS 1, HPAR1 clear; and the parity of a payload whose word 0 is 1. -/
theorem test_flit_header : (xFlit msg0 5 0).header = 0x010000018102D005#64 ∧ (xFlit msg0 5 0).parity = 1 := by decide +kernel

/-- FIPS 180-4's example: SHA-384 of the bytes of "abc". -/
theorem test_sha384 : sha384 [0x61, 0x62, 0x63]
    = 0xCB00753F45A35E8BB5A03D699AC65007272C32AB0EDED1631A8B605A43FF5BED8086072BA1E7CC2358BAECA134C825A7 := by decide +kernel

/-- P-384's generator lies on the curve. -/
theorem test_p384_generator : onP384 p384g.1 p384g.2 = true := by decide +kernel

/-- A sound attempt at a tile passes its check row, and one with a cell that came out as 10^30 does not (R90). -/
theorem test_check_row : (endOf (fmulDev sl0) 0 0 TileFault.none (ip 1)).passes = true ∧
    (endOf (fmulDev sl0) 0 0 wrong (ip 1)).passes = false := by decide +kernel

/-- No row of the table gives its command bits. -/
theorem test_no_words : decodeTableWord 64 0 = none ∧ State.reset.withFetchWord 32 7 = State.reset := by decide +kernel

/-! ## Single steps -/

/-- What a field of the device is after a command. -/
def after {α : Type} (d : Dev) (i : Instr) (f : Dev → α) : Option α :=
  match step { pending := [i], dev := d } with
  | .next t => some (f t.dev)
  | _ => none

/-- Commands leave the queue in the order in which they were sent. -/
theorem test_fifo : (match step { pending := [.belNowRead 0 5, .bellBoundary], dev := up } with
    | .next t => t.pending
    | _ => []) = [.bellBoundary] := by decide +kernel

/-- An empty queue leaves the device as it is. -/
theorem test_idle : step (on up) = .next (on up) := rfl

/-- sess.hello opens the session of its ring set and answers version, ring set and firmware version (R401). -/
theorem test_hello : after { up with host := { up.host with rings := [(2, { sizeLog := 4, ctl := 1, enabled := true })] } }
    (.sessHello { hd with set := 2 } 1 1 5) (fun d => ((d.ring 2).session, d.host.grace)) = some (true, 5) := by decide +kernel

/-- One bell boundary advances the bell by one (R10), and no other command does. -/
theorem test_bell : after { up with bell := 7 } .bellBoundary (·.bell) = some 8 ∧
    after { up with bell := 7 } (.belNowRead 0 5) (·.bell) = some 7 := by decide +kernel


end Sys2Proof.Tests
end

section
/-! SUPPORT. Proofs about numbers (chapter 02): how the exact arithmetic, the rounding and the element formats treat NaN and
zero, what a conversion makes of them, and the statements that follow. -/

namespace Sys2Proof.Machine

/-! ## Exact numbers -/

@[simp] theorem Num.mul_nan (x : Num) : x.mul .nan = .nan := by cases x <;> rfl

@[simp] theorem Num.nan_div (x : Num) : Num.nan.div x = .nan := by cases x <;> rfl

/-- A zero divided by a nonzero number of positive sign keeps its own sign (R74). -/
theorem Num.zero_div_fin (neg : Bool) {u : Rat} (hu : u ≠ 0) : (Num.fin neg 0).div (.fin false u) = .fin neg 0 := by
  simp [Num.div, hu]

@[simp] theorem roundStep_zero (step : Rat) : roundStep 0 step = 0 := by
  have hfloor : Rat.floor 0 = 0 := rfl
  simp [roundStep, hfloor]

/-- A byte written as the low eight bits of an integer from −128 to 127 reads as that integer. -/
theorem signed_emod_byte {e : Int} (hl : -128 ≤ e) (hu : e ≤ 127) : signed (e % 256).toNat 8 = e := by
  simp only [signed]
  split <;> omega

/-- Of the exponent bytes, only −128 has the code 0x80 (R54). -/
theorem expByte_ne_nonfinite {e : Int} (hl : -128 < e) (hu : e ≤ 127) : (e % 256).toNat ≠ 0x80 := by omega

/-! ## Zero in the element formats -/

@[simp] theorem bit_flag_self (neg : Bool) (i : Nat) : bit (flag neg i) i = neg := by
  cases neg <;> simp [bit, flag]

/-- The bits of a zero in the formats that encode −0: a sign bit above an exponent and a fraction of zero. -/
theorem FloatFmt.decode_flag (t : FloatFmt) (neg : Bool) (he : 0 < t.ebits) : t.decode (flag neg (t.ebits + t.f)) = .fin neg 0 := by
  have htop : (0 : Nat) ≠ 2 ^ t.ebits - 1 := by
    have := Nat.one_lt_two_pow he.ne'
    omega
  have hm : flag neg (t.ebits + t.f) % 2 ^ t.f = 0 := by
    cases neg <;> simp [flag, pow_add]
  have hexp : bits (flag neg (t.ebits + t.f)) (t.ebits + t.f - 1) t.f = 0 := by
    have hw : t.ebits + t.f - 1 + 1 - t.f = t.ebits := by omega
    cases neg <;> simp [bits, flag, hw, pow_add]
  simp [FloatFmt.decode, hm, hexp, htop]

@[simp] theorem FloatFmt.encodeMag_zero (t : FloatFmt) : t.encodeMag 0 = 0 := by simp [FloatFmt.encodeMag]

/-- Every floating format has exponent bits, and its largest finite value is not below zero (R49). -/
theorem floatFmt_bounds {code : Nat} {t : FloatFmt} (h : floatFmt code = some t) : 0 < t.ebits ∧ 0 ≤ t.maxf := by
  unfold floatFmt at h
  split at h <;> cases h <;> decide +kernel

/-! ## Conversion of zero (R66) -/

/-- A magnitude that rounds to zero is written with its sign and nothing else. -/
theorem convertElem_float_zero_bits {code : Nat} {t : FloatFmt} (neg infOk : Bool) {m : Rat} (h : floatFmt code = some t)
    (hm : t.round m = 0) : (convertElem code neg m infOk).bits = flag neg (t.ebits + t.f) := by
  have hmax := not_lt.2 (floatFmt_bounds h).2
  simp [convertElem, h, hm, hmax]

/-- The bits of a floating format's zero read as the zero of their sign. -/
theorem decodeElem_flag {code : Nat} {t : FloatFmt} (neg : Bool) (h : floatFmt code = some t) :
    decodeElem code (flag neg (t.ebits + t.f)) = .fin neg 0 := by
  simp only [decodeElem, h]
  exact t.decode_flag neg (floatFmt_bounds h).1

/-- MXINT8 holds no −0. -/
theorem convertElem_mxint8_zero_bits (neg infOk : Bool) {m : Rat} (hm : roundStep m (pow2 (-6)) = 0) :
    (convertElem 6 neg m infOk).bits = 0 := by
  cases neg <;> simp [convertElem, floatFmt, hm]

/-- INT8Z writes a zero of either sign as the zero point of its channel. -/
theorem convertInt8z_zero_bits (neg : Bool) {u : Rat} (hu : u ≠ 0) {z : Int} (hl : -128 ≤ z) (hh : z ≤ 127) :
    (convertInt8z (.fin neg 0) (.fin false u) z).bits = (z % 256).toNat := by
  simp [convertInt8z, Num.zero_div_fin neg hu, not_lt.2 hl, not_lt.2 hh]

/-- BFX32 writes a zero of either sign as the mantissa 0. -/
theorem bfxMantissa_zero (neg : Bool) {u : Rat} (hu : u ≠ 0) (e : Int) : (bfxMantissa (.fin neg 0) (.fin false u) e).1 = 0 := by
  simp [bfxMantissa, Num.zero_div_fin neg hu]

/-- Settles O55: a zero's code is its sign alone in the floating formats, and the integer formats have one zero. -/
theorem signedZero : Obligations.SignedZero := by
  refine ⟨fun code t neg infOk m h hm => ?_, fun neg infOk m => convertElem_mxint8_zero_bits neg infOk, ?_, ?_⟩
  · rw [convertElem_float_zero_bits neg infOk h hm]
    exact ⟨rfl, decodeElem_flag neg h⟩
  · rintro neg _ z hl hh ⟨u, rfl, hu⟩
    exact convertInt8z_zero_bits neg hu hl hh
  · rintro neg _ e ⟨u, rfl, hu⟩
    exact bfxMantissa_zero neg hu e

/-! ## Block scales (R53, R54) -/

section
variable (d : Dev) (c mb : Nat) (t : TD) (p : Pos)

/-- The scale of a block with an E8M0 code. -/
theorem Dev.blockScale_mx (hf : isMx t.fmt = true) : d.blockScale c mb t p
    = if d.scaleCode c mb t p = 0xFF then .nan else .fin false (pow2 ((d.scaleCode c mb t p : Int) - 127)) := by
  simp [Dev.blockScale, hf]

/-- The scale of a block with a BFX32 exponent byte. -/
theorem Dev.blockScale_bfx (hf : t.fmt = 0x0B) : d.blockScale c mb t p
    = if d.scaleCode c mb t p = 0x80 then .nan else .fin false (pow2 (signed (d.scaleCode c mb t p) 8)) := by
  simp [Dev.blockScale, hf, isMx]

/-- A block marked NaN or non-finite makes its elements NaN, whatever their bits. -/
theorem Dev.elemValue_of_nan_scale (h : d.blockScale c mb t p = .nan) : d.elemValue c mb t p = .nan := by
  simp [Dev.elemValue, Dev.elemScaled, h]

end

/-- A BFX32 block that a converter marks non-finite has zero mantissas. -/
theorem convertBfx_marked_bits {xs : List Num} {ts : Num} {e : Int} (hl : -128 < e) (hu : e ≤ 127)
    (hc : (convertBfx xs ts e).1 = 0x80) {o : COut} (ho : o ∈ (convertBfx xs ts e).2) : o.bits = 0 := by
  unfold convertBfx at hc ho
  split at hc
  next hx =>
    rw [if_pos hx, List.mem_map] at ho
    obtain ⟨x, -, rfl⟩ := ho
    rfl
  next => exact absurd hc (expByte_ne_nonfinite hl hu)

/-- Settles O54: the two marked codes are the ones that `blockScale` reads as NaN, and NaN passes through both products of an
element's value. -/
theorem blockScales : Obligations.BlockScales := by
  refine ⟨fun d c mb t p hf => ⟨fun hs => ?_, fun hs => ?_⟩, fun d c mb t p e hf hl hu hs => ?_,
    fun d c mb t p hf hs => ?_, fun xs ts e hl hu hc o ho => convertBfx_marked_bits hl hu hc ho⟩
  · rw [d.blockScale_mx c mb t p hf, if_neg (by omega)]
  · exact d.elemValue_of_nan_scale c mb t p (by rw [d.blockScale_mx c mb t p hf, if_pos hs])
  · rw [d.blockScale_bfx c mb t p hf, hs, if_neg (expByte_ne_nonfinite (by omega) hu), signed_emod_byte (by omega) hu]
  · exact d.elemValue_of_nan_scale c mb t p (by rw [d.blockScale_bfx c mb t p hf, if_pos hs])

/-! ## Conversion of NaN (R73) -/

/-- A plain format takes a NaN as its own canonical one. -/
theorem convertPlain_nan_bits {code : Nat} {t : FloatFmt} (ts : Num) (infOk : Bool) (h : floatFmt code = some t) :
    (convertPlain code .nan ts infOk).bits = t.bitsOf .nan := by
  simp [convertPlain, h]

/-- In a block format that holds NaN, an element that is NaN is written as `nonfiniteElem` gives it. -/
theorem convertMx_nan_bits {code : Nat} (hb : nanBlock code = false) {xs : List Num} (ts : Num) {i : Nat} (hx : xs[i]? = some .nan) :
    ((convertMx code xs ts).2[i]?).map (fun o => o.bits) = some (nonfiniteElem code .nan) := by
  simp [convertMx, hb, hx]

/-- No command faults or is refused: each arm of `exec` is an effect on the device (R73; log entry 54). -/
theorem exec_next (i : Instr) (s : State) : ∃ t, exec i s = .next t := by
  cases i <;> exact ⟨_, rfl⟩

/-- Settles O56: a NaN carries no payload once it is read, so each converter can write only its one NaN. -/
theorem canonicalNan : Obligations.CanonicalNan := by
  refine ⟨fun code v ts infOk hv => ?_, fun xs ts i hx => ?_, rfl, rfl, exec_next⟩
  · rw [hv, convertPlain_nan_bits ts infOk rfl, convertPlain_nan_bits ts infOk rfl, convertPlain_nan_bits ts infOk rfl]
    exact ⟨rfl, rfl, rfl⟩
  · exact ⟨convertMx_nan_bits rfl ts hx, convertMx_nan_bits rfl ts hx⟩

end Sys2Proof.Machine
end

section
/-! SUPPORT. What a command keeps of the device: the bell, the operating time and the invariant. -/
namespace Sys2Proof.Machine

/-- `e` comes from `d` by moves that leave the bell count and the operating time alone and keep the invariant. -/
structure Dev.Keeps (d e : Dev) : Prop where
  bell : e.bell = d.bell
  opUs : e.opUs = d.opUs
  inv : d.Inv → e.Inv

/-- An append leaves the pit log within its capacity and its epoch (R377, R379). -/
theorem PitLog.append_legal (l : PitLog) (r : Record) (h : l.records.length ≤ 32768 ∧ l.epoch < 32768) :
    (l.append r).records.length ≤ 32768 ∧ (l.append r).epoch < 32768 := by
  unfold PitLog.append
  split
  next ht =>
    simp only [PitLog.takes, Bool.or_eq_true, Bool.and_eq_true, decide_eq_true_eq] at ht
    exact ⟨by simp only [List.length_cons]; omega, h.2⟩
  next => exact h

/-- The device that an allocation or a change of quota leaves. -/
def MemRes.dev : MemRes → Dev
  | .ends _ _ d => d
  | .waits d => d

/-- The device that an admission's reservations leave. -/
def Adm.dev : Adm → Dev
  | .ends d _ _ => d
  | .waits d _ => d
  | .takes d _ => d

/-- What no round of a loop changes, the loop does not change. -/
theorem foldl_fixes {α β γ : Type} (g : β → γ) {f : β → α → β} (hf : ∀ b a, g (f b a) = g b) (l : List α) (b : β) :
    g (l.foldl f b) = g b := by
  induction l generalizing b with
  | nil => rfl
  | cons a l ih => exact (ih (f b a)).trans (hf b a)

/-- Telling a job sends notices and changes nothing of the fabric. -/
@[simp] theorem Dev.tellJob_fab (d : Dev) (kind c : Nat) (data : List Nat) : (d.tellJob kind c data).fab = d.fab := by
  unfold Dev.tellJob
  refine foldl_fixes (·.fab) ?_ _ d
  exact fun _ _ => rfl

/-- Ordering the candidates for issue neither adds nor drops one. -/
theorem Dev.mem_issueOrder (d : Dev) (l : List (Dev × Inst)) (q : Dev × Inst) : q ∈ d.issueOrder l ↔ q ∈ l := by
  induction l with
  | nil => rfl
  | cons x r ih =>
    have hs := List.takeWhile_append_dropWhile (p := fun y => d.issueBefore y.2 x.2) (l := d.issueOrder r)
    have hm : q ∈ d.issueOrder r ↔ q ∈ (d.issueOrder r).takeWhile (fun y => d.issueBefore y.2 x.2)
        ∨ q ∈ (d.issueOrder r).dropWhile (fun y => d.issueBefore y.2 x.2) := by rw [← List.mem_append, hs]
    simp only [Dev.issueOrder, List.mem_append, List.mem_cons, ← ih, hm]
    tauto

/-! ## Copies within memory -/

/-- The keys of a canonical map rise. -/
theorem SMap.sortedFrom_iff {α : Type} (m : SMap α) (lo : Option Nat) :
    SMap.sortedFrom lo m = true ↔ (∀ l, lo = some l → ∀ p ∈ m, l < p.1) ∧ m.Pairwise (fun p q => p.1 < q.1) := by
  induction m generalizing lo with
  | nil => simp [SMap.sortedFrom]
  | cons p r ih =>
    obtain ⟨k, v⟩ := p
    cases lo with
    | none => simp [SMap.sortedFrom, ih, List.pairwise_cons]
    | some l =>
      simp only [SMap.sortedFrom, Bool.and_eq_true, decide_eq_true_eq, ih, List.pairwise_cons, Option.some.injEq, List.mem_cons]
      constructor
      · rintro ⟨hl, hk, hr⟩
        refine ⟨?_, hk k rfl, hr⟩
        rintro _ rfl p (rfl | hp)
        · exact hl
        · exact hl.trans (hk k rfl p hp)
      · rintro ⟨hl, hk, hr⟩
        exact ⟨hl l rfl _ (Or.inl rfl), by rintro _ rfl; exact hk, hr⟩

/-- A copy keeps the canonical form: what lies below the target, the bytes moved, and what lies above it follow one another. -/
theorem copyMem_wf {m : Memory} {src dst n : Nat} (h : m.wf = true) : Memory.wf (copyMem m src dst n) = true := by
  obtain ⟨hs, hz⟩ := (SMap.wf_iff 0 m).1 h
  have hp := ((SMap.sortedFrom_iff m none).1 hs).2
  refine (SMap.wf_iff 0 _).2 ⟨(SMap.sortedFrom_iff _ none).2 ⟨by simp, ?_⟩, ?_⟩
  · simp only [copyMem, List.pairwise_append, List.pairwise_map, List.mem_append, List.mem_map, List.mem_filter,
      decide_eq_true_eq, Bool.and_eq_true]
    refine ⟨⟨hp.filter _, ?_, ?_⟩, hp.filter _, ?_⟩
    · refine List.Pairwise.imp_of_mem ?_ (hp.filter _)
      intro a b ha hb hab
      simp only [List.mem_filter, Bool.and_eq_true, decide_eq_true_eq] at ha hb
      omega
    · rintro a ⟨-, ha⟩ b ⟨c, ⟨-, hc⟩, rfl⟩
      dsimp only
      omega
    · rintro a (⟨-, ha⟩ | ⟨c, ⟨-, hc⟩, rfl⟩) b ⟨-, hb⟩
      · omega
      · dsimp only
        omega
  · simp only [copyMem, List.mem_append, List.mem_map, List.mem_filter]
    rintro p ((⟨hm, -⟩ | ⟨c, ⟨hm, -⟩, rfl⟩) | ⟨hm, -⟩)
    · exact hz p hm
    · exact hz c hm
    · exact hz p hm

namespace Dev.Keeps
variable {d e : Dev}

@[refl] theorem refl : d.Keeps d := ⟨rfl, rfl, id⟩

theorem trans {f : Dev} (h : d.Keeps e) (k : e.Keeps f) : d.Keeps f :=
  ⟨k.bell.trans h.bell, k.opUs.trans h.opUs, fun i => k.inv (h.inv i)⟩

/-- A device that differs only in fields that the invariant does not read. -/
theorem frame {e' : Dev} (h : d.Keeps e) (hb : e'.bell = e.bell := by rfl) (hu : e'.opUs = e.opUs := by rfl)
    (hm : e'.mem = e.mem := by rfl) (hh : e'.hostMem = e.hostMem := by rfl)
    (hg : e'.host.staging = e.host.staging := by rfl) (hs : e'.host.state = e.host.state := by rfl)
    (hf : e'.fab.state = e.fab.state := by rfl) (hp : e'.pwr.phase = e.pwr.phase := by rfl)
    (hl : e'.log = e.log := by rfl) : d.Keeps e' := by
  refine ⟨hb.trans h.bell, hu.trans h.opUs, fun k => ?_⟩
  have i := h.inv k
  unfold Dev.Inv at i ⊢
  rwa [hb, hm, hh, hg, hs, hf, hp, hl]

/-- A device whose bell and operating time are the same and whose other parts are as legal as before. -/
theorem change {e' : Dev} (h : d.Keeps e) (hb : e'.bell = e.bell := by rfl) (hu : e'.opUs = e.opUs := by rfl)
    (hm : e.mem.wf = true → e'.mem.wf = true := by exact id) (hh : e.hostMem.wf = true → e'.hostMem.wf = true := by exact id)
    (hg : e.host.staging.wf = true → e'.host.staging.wf = true := by exact id)
    (hs : e.host.state ≤ 7 → e'.host.state ≤ 7 := by exact id) (hf : e.fab.state ≤ 6 → e'.fab.state ≤ 6 := by exact id)
    (hp : e.pwr.phase ≤ 7 → e'.pwr.phase ≤ 7 := by exact id)
    (hl : e.log.records.length ≤ 32768 ∧ e.log.epoch < 32768 → e'.log.records.length ≤ 32768 ∧ e'.log.epoch < 32768 := by exact id) :
    d.Keeps e' := by
  refine ⟨hb.trans h.bell, hu.trans h.opUs, fun k => ?_⟩
  obtain ⟨m, hm', g, b, s, f, p, l⟩ := h.inv k
  exact ⟨hm m, hh hm', hg g, by rwa [hb], hs s, hf f, hp p, hl l⟩

/-! A record update of fields that the invariant does not read, or of such parts of the host interface, the fabric or the power
controller. -/

theorem update (h : d.Keeps e) {cycles free out poison bank rw rc ctxs slots pools seqs retired allocs extents resvs
    items insts nextOrder chan cores clusters hubs sources deep nextDeep xc health fw} :
    d.Keeps ⟨e.bell, e.opUs, cycles, free, out, e.mem, e.hostMem, poison, bank, rw, rc, e.host, ctxs, slots, pools, seqs, retired,
      allocs, extents, resvs, items, insts, nextOrder, chan, cores, clusters, hubs, sources, deep, nextDeep, e.fab, xc, health,
      e.log, fw, e.pwr⟩ :=
  h.frame

theorem updateHost (h : d.Keeps e) {cycles free out poison bank rw rc ctxs slots pools seqs retired allocs extents resvs
    items insts nextOrder chan cores clusters hubs sources deep nextDeep xc health fw host}
    (hg : host.staging = e.host.staging := by rfl) (hs : host.state = e.host.state := by rfl) :
    d.Keeps ⟨e.bell, e.opUs, cycles, free, out, e.mem, e.hostMem, poison, bank, rw, rc, host, ctxs, slots, pools, seqs, retired,
      allocs, extents, resvs, items, insts, nextOrder, chan, cores, clusters, hubs, sources, deep, nextDeep, e.fab, xc, health,
      e.log, fw, e.pwr⟩ :=
  h.frame (hg := hg) (hs := hs)

theorem updateFab (h : d.Keeps e) {cycles free out poison bank rw rc ctxs slots pools seqs retired allocs extents resvs
    items insts nextOrder chan cores clusters hubs sources deep nextDeep xc health fw fab}
    (hf : fab.state = e.fab.state := by rfl) :
    d.Keeps ⟨e.bell, e.opUs, cycles, free, out, e.mem, e.hostMem, poison, bank, rw, rc, e.host, ctxs, slots, pools, seqs, retired,
      allocs, extents, resvs, items, insts, nextOrder, chan, cores, clusters, hubs, sources, deep, nextDeep, fab, xc, health,
      e.log, fw, e.pwr⟩ :=
  h.frame (hf := hf)

theorem updatePwr (h : d.Keeps e) {cycles free out poison bank rw rc ctxs slots pools seqs retired allocs extents resvs
    items insts nextOrder chan cores clusters hubs sources deep nextDeep xc health fw pwr}
    (hp : pwr.phase = e.pwr.phase := by rfl) :
    d.Keeps ⟨e.bell, e.opUs, cycles, free, out, e.mem, e.hostMem, poison, bank, rw, rc, e.host, ctxs, slots, pools, seqs, retired,
      allocs, extents, resvs, items, insts, nextOrder, chan, cores, clusters, hubs, sources, deep, nextDeep, e.fab, xc, health,
      e.log, fw, pwr⟩ :=
  h.frame (hp := hp)

theorem ite {c : Prop} [Decidable c] {a b : Dev} (ha : d.Keeps a) (hb : d.Keeps b) : d.Keeps (if c then a else b) := by
  split <;> assumption

theorem mk_fst {α : Type} {a : α} (h : d.Keeps e) : d.Keeps (e, a).1 := h
theorem mk_snd {α : Type} {a : α} (h : d.Keeps e) : d.Keeps (a, e).2 := h
theorem mk_snd_snd {α β : Type} {a : α} {b : β} (h : d.Keeps e) : d.Keeps (a, b, e).2.2 := h
theorem mk_memRes {st : Status} {v : Nat} (h : d.Keeps e) : d.Keeps (MemRes.ends st v e).dev := h
theorem mk_dev {st : Status} {ws : List Nat} {a b c} (h : d.Keeps e) : d.Keeps (Reply.mk e st ws a b c).dev := h

theorem ite_fst {α : Type} {c : Prop} [Decidable c] {a b : Dev × α} (ha : d.Keeps a.1) (hb : d.Keeps b.1) :
    d.Keeps (if c then a else b).1 := by split <;> assumption
theorem ite_snd {α : Type} {c : Prop} [Decidable c] {a b : α × Dev} (ha : d.Keeps a.2) (hb : d.Keeps b.2) :
    d.Keeps (if c then a else b).2 := by split <;> assumption
theorem ite_snd_snd {α β : Type} {c : Prop} [Decidable c] {a b : α × β × Dev} (ha : d.Keeps a.2.2) (hb : d.Keeps b.2.2) :
    d.Keeps (if c then a else b).2.2 := by split <;> assumption
theorem ite_memRes {c : Prop} [Decidable c] {a b : MemRes} (ha : d.Keeps a.dev) (hb : d.Keeps b.dev) :
    d.Keeps (if c then a else b).dev := by split <;> assumption
theorem ite_adm {c : Prop} [Decidable c] {a b : Adm} (ha : d.Keeps a.dev) (hb : d.Keeps b.dev) :
    d.Keeps (if c then a else b).dev := by split <;> assumption
theorem of_memRes {r r' : MemRes} (h : d.Keeps r.dev) (he : r = r') : d.Keeps r'.dev := he ▸ h
theorem ite_dev {c : Prop} [Decidable c] {a b : Reply} (ha : d.Keeps a.dev) (hb : d.Keeps b.dev) :
    d.Keeps (if c then a else b).dev := by split <;> assumption

theorem foldl {α : Type} {f : Dev → α → Dev} {l : List α} (h : d.Keeps e) (hf : ∀ e a, d.Keeps e → d.Keeps (f e a)) :
    d.Keeps (l.foldl f e) := by
  induction l generalizing e with
  | nil => exact h
  | cons a l ih => exact ih (hf e a h)

theorem upto {n : Nat} {f : Nat → Dev → Dev} (h : d.Keeps e) (hf : ∀ a e, d.Keeps e → d.Keeps (f a e)) :
    d.Keeps (upto n f e) := foldl h fun e a => hf a e

theorem foldl_fst {α β : Type} {f : Dev × β → α → Dev × β} {l : List α} {b : β} (h : d.Keeps e)
    (hf : ∀ p a, d.Keeps p.1 → d.Keeps (f p a).1) : d.Keeps (l.foldl f (e, b)).1 := by
  induction l generalizing e b with
  | nil => exact h
  | cons a l ih => exact ih (hf (e, b) a h)

theorem foldl_snd {α β : Type} {f : β × Dev → α → β × Dev} {l : List α} {b : β} (h : d.Keeps e)
    (hf : ∀ p a, d.Keeps p.2 → d.Keeps (f p a).2) : d.Keeps (l.foldl f (b, e)).2 := by
  induction l generalizing e b with
  | nil => exact h
  | cons a l ih => exact ih (hf (b, e) a h)

/-- The device of a pair. -/
theorem of_fst {α : Type} {p : Dev × α} {a : α} (h : d.Keeps p.1) (he : p = (e, a)) : d.Keeps e := by rwa [he] at h
theorem of_snd {α : Type} {p : α × Dev} {a : α} (h : d.Keeps p.2) (he : p = (a, e)) : d.Keeps e := by rwa [he] at h

end Dev.Keeps
end Sys2Proof.Machine
end

section
/-! SUPPORT. Each operation of the device keeps the bell, the time and the invariant: one lemma for each function, named after it,
which says that what it leaves is still reached by such moves. -/
namespace Sys2Proof.Machine
namespace Dev.Keeps
-- The lemmas are many and short: one after another they need less memory than side by side.
set_option Elab.async false
variable {d e : Dev}

theorem setCtx (h : d.Keeps e) {c x} : d.Keeps (e.setCtx c x) := .update h
theorem updCtx (h : d.Keeps e) {c f} : d.Keeps (e.updCtx c f) := h.setCtx
theorem setRing (h : d.Keeps e) {s r} : d.Keeps (e.setRing s r) := .updateHost h
theorem setSlot (h : d.Keeps e) {k x} : d.Keeps (e.setSlot k x) := .update h
theorem setPool (h : d.Keeps e) {k x} : d.Keeps (e.setPool k x) := .update h
theorem setCore (h : d.Keeps e) {k x} : d.Keeps (e.setCore k x) := .update h
theorem setCluster (h : d.Keeps e) {k x} : d.Keeps (e.setCluster k x) := .update h
theorem setHub (h : d.Keeps e) {k x} : d.Keeps (e.setHub k x) := .update h
theorem setSource (h : d.Keeps e) {k x} : d.Keeps (e.setSource k x) := .update h
theorem setPort (h : d.Keeps e) {p x} : d.Keeps (e.setPort p x) := .updateFab h
theorem setXlink (h : d.Keeps e) {dir link x} : d.Keeps (e.setXlink dir link x) := .update h
theorem setHist (h : d.Keeps e) {u x} : d.Keeps (e.setHist u x) := .update h
theorem setExtent (h : d.Keeps e) {k x} : d.Keeps (e.setExtent k x) := .update h
theorem emit (h : d.Keeps e) {e'} : d.Keeps (e.emit e') := .update h
theorem drawn (h : d.Keeps e) : d.Keeps (e.drawn) := .update h
theorem store (h : d.Keeps e) {a b} : d.Keeps (e.store a b) := h.change (hm := fun w => Memory.wf_writeBytes _ a b w)
theorem storeHost (h : d.Keeps e) {a b} : d.Keeps (e.storeHost a b) := h.change (hh := fun w => Memory.wf_writeBytes _ a b w)
theorem updInsts (h : d.Keeps e) {p f} : d.Keeps (e.updInsts p f) := .update h
theorem updInst (h : d.Keeps e) {x f} : d.Keeps (e.updInst x f) := h.updInsts
theorem updStep (h : d.Keeps e) {c newer f} : d.Keeps (e.updStep c newer f) := h.updCtx
theorem poisonLine (h : d.Keeps e) {l} : d.Keeps (e.poisonLine l) := .update h
theorem cureLine (h : d.Keeps e) {l} : d.Keeps (e.cureLine l) := .update h
theorem writeMem (h : d.Keeps e) {a b} : d.Keeps (e.writeMem a b) := .update h.store
theorem deepAsk (h : d.Keeps e) {q addr write data} : d.Keeps (e.deepAsk q addr write data) := .update h.emit
theorem rwPut (h : d.Keeps e) {die off reset v} : d.Keeps (e.rwPut die off reset v) := .update h
theorem stagePut (h : d.Keeps e) {die off reset v} : d.Keeps (e.stagePut die off reset v) := .update h
theorem rcPut (h : d.Keeps e) {die off v} : d.Keeps (e.rcPut die off v) := .update h
theorem rcAdd (h : d.Keeps e) {die off n} : d.Keeps (e.rcAdd die off n) := h.rcPut
theorem rcAddLo (h : d.Keeps e) {die off n} : d.Keeps (e.rcAddLo die off n) := h.rcPut
theorem rcAddHi (h : d.Keeps e) {die off n} : d.Keeps (e.rcAddHi die off n) := h.rcPut
theorem stick (h : d.Keeps e) {n} : d.Keeps (e.stick n) := .update h
theorem deliver (h : d.Keeps e) {r} : d.Keeps (e.deliver r) := h.change (hl := fun l => PitLog.append_legal _ r l)
theorem record (h : d.Keeps e) {e'} : d.Keeps (e.record e') :=
  .ite h.deliver.drawn (.ite h.deliver.drawn.stick (.ite h.deliver.drawn.stick.deliver.drawn h.deliver.drawn))
theorem markSuspect (h : d.Keeps e) {u} : d.Keeps (e.markSuspect u) := .ite h.setHist.record h
theorem refreshHealth (h : d.Keeps e) : d.Keeps (e.refreshHealth) :=
  .ite (.update h) (.record (.ite (.stick (.update h)) (.update h)))
theorem checkRecord (h : d.Keeps e) {u ctx addr} : d.Keeps (e.checkRecord u ctx addr) := h.stick.record
theorem fire (h : d.Keeps e) {v} : d.Keeps (e.fire v) := .ite h (.ite (.updateHost h) h.emit)
/-- The host states are numbered 0 to 7 (R394). -/
theorem hostState (h : d.Keeps e) {n} (hn : n ≤ 7 := by decide) : d.Keeps (e.hostState n) :=
  .ite h (.fire (h.change (hs := fun _ => hn)))
theorem orphanCtx (h : d.Keeps e) {c} : d.Keeps (e.orphanCtx c) := .ite h.updCtx h
theorem startGrace (h : d.Keeps e) {cause} : d.Keeps (e.startGrace cause) := .fire (.updateHost h)
theorem orphanAll (h : d.Keeps e) {cause} : d.Keeps (e.orphanAll cause) := by
  unfold Dev.orphanAll
  extract_lets d1 d2 _ d3
  have h1 : d.Keeps d1 := .upto h fun _ _ h => h.setRing
  have h2 : d.Keeps d2 := .upto h1 fun _ _ h => h.orphanCtx
  clear_value d2
  have h3 : d.Keeps d3 := .updateHost h2
  exact .ite h h3.startGrace.hostState.stick.record
theorem linkEvent (h : d.Keeps e) {cause} : d.Keeps (e.linkEvent cause) := by
  unfold Dev.linkEvent
  extract_lets d1 d2
  have h2 : d.Keeps d2 := h.orphanAll.frame
  exact .ite (.hostState (h2.change (hg := fun _ => rfl))) h2
theorem linkLost (h : d.Keeps e) : d.Keeps (e.linkLost) := .updateHost h.linkEvent
theorem putSeq (h : d.Keeps e) {a r} : d.Keeps (e.putSeq a r) := h.store
theorem report (h : d.Keeps e) {slot? r} : d.Keeps (e.report slot? r) := by
  unfold Dev.report
  split
  · exact h
  · exact h.setSlot
theorem adoptSlot (h : d.Keeps e) {job k} : d.Keeps (e.adoptSlot job k) := h.setSlot
theorem adopt (h : d.Keeps e) {c job} : d.Keeps (e.adopt c job) := .foldl h fun _ _ h => h.adoptSlot
theorem screenDrop (h : d.Keeps e) {c} : d.Keeps (e.screenDrop c) := .foldl h fun _ _ h => h.setSlot
theorem commitSlot (h : d.Keeps e) {c skip k} : d.Keeps (e.commitSlot c skip k) :=
  .ite h.setSlot (.ite h.setSlot (.ite h.setSlot.updCtx.record h.setSlot))
theorem wideCommit (h : d.Keeps e) {c form probe} : d.Keeps (e.wideCommit c form probe) :=
  .ite h.setCtx.record (.ite h.setCtx.record h.setCtx)
theorem screenCommit (h : d.Keeps e) {c form skip probe} : d.Keeps (e.screenCommit c form skip probe) :=
  .wideCommit (.foldl h.updCtx fun _ _ h => h.commitSlot)
theorem reportNf (h : d.Keeps e) {c at? task mb pos} : d.Keeps (e.reportNf c at? task mb pos) :=
  .ite (.foldl h fun _ _ h => .ite h.setSlot h) (.updCtx (.foldl h fun _ _ h => .ite h.setSlot h))
theorem ring! (h : d.Keeps e) {half s} : d.Keeps (e.ring! half s) := .ite h.setSource h
theorem refreshHubSource (h : d.Keeps e) {half s} : d.Keeps (e.refreshHubSource half s) := h.setSource
theorem dbcRefuse (h : d.Keeps e) {half} : d.Keeps (e.dbcRefuse half) := h.rcAdd
theorem hubTrap (h : d.Keeps e) {half core cause tval} : d.Keeps (e.hubTrap half core cause tval) := h.setHub
theorem present (h : d.Keeps e) {half s t} : d.Keeps (e.present half s t) := by
  unfold Dev.present
  dsimp only
  split
  · exact h.setSource.setHub
  · exact h.setSource.setHub.updInst.setHub.refreshHubSource
theorem dispatch (h : d.Keeps e) {half} : d.Keeps (e.dispatch half) :=
  .foldl_fst h fun _ _ h => .ite_fst h (.mk_fst h.present)
theorem eoi (h : d.Keeps e) {half t s} : d.Keeps (e.eoi half t s) := by
  unfold Dev.eoi
  dsimp only
  split
  · exact .ite h.setHub.setSource h.dbcRefuse
  · exact h.dbcRefuse
theorem withdrawTarget (h : d.Keeps e) {half t} : d.Keeps (e.withdrawTarget half t) :=
  .update (.setHub (.foldl h fun _ _ h => h.setSource))
theorem initSources (h : d.Keeps e) {c} : d.Keeps (e.initSources c) :=
  .upto h fun _ _ h => .ite h (.rwPut (.rwPut (.upto h fun _ _ h => h.rwPut.setSource)))
theorem maskSources (h : d.Keeps e) {c} : d.Keeps (e.maskSources c) := .upto h fun _ _ h => .upto h fun _ _ h => h.setSource
theorem putShare (h : d.Keeps e) {half p frame n} : d.Keeps (e.putShare half p frame n) := h.store
theorem shareUp (h : d.Keeps e) {half p frame} : d.Keeps (e.shareUp half p frame) := h.putShare
theorem shareDown (h : d.Keeps e) {half p frame} : d.Keeps (e.shareDown half p frame) := h.putShare
theorem deepTake (h : d.Keeps e) {half p ix} : d.Keeps (e.deepTake half p ix) := h.setPool
theorem deepGive (h : d.Keeps e) {half p ix} : d.Keeps (e.deepGive half p ix) := h.setPool
theorem putEntry (h : d.Keeps e) {table p e'} : d.Keeps (e.putEntry table p e') := h.store
theorem fixDeepAny (h : d.Keeps e) {a} : d.Keeps (e.fixDeepAny a) := h.putSeq
theorem shareTable (h : d.Keeps e) {half p table entries} : d.Keeps (e.shareTable half p table entries) :=
  .foldl h fun _ _ h => h.shareUp
theorem unshareTable (h : d.Keeps e) {half p table entries} : d.Keeps (e.unshareTable half p table entries) :=
  .foldl h fun _ _ h => h.shareDown
theorem changeEntry (h : d.Keeps e) {half p table entries k e'} : d.Keeps (e.changeEntry half p table entries k e') :=
  .putEntry (.ite (.shareUp (.ite h.putEntry.shareDown h.putEntry)) (.ite h.putEntry.shareDown h.putEntry))
theorem freeTable (h : d.Keeps e) {r} : d.Keeps (e.freeTable r) := by
  unfold Dev.freeTable
  dsimp only
  split
  · exact .ring! (.record (.foldl h.unshareTable fun _ _ h => h.deepGive))
  · exact .record (.foldl h.unshareTable fun _ _ h => h.deepGive)
theorem retire (h : d.Keeps e) {r} : d.Keeps (e.retire r).1 := .ite_fst h.freeTable.mk_fst (.mk_fst (.update h))
theorem dropSnaps (h : d.Keeps e) {i} : d.Keeps (e.dropSnaps i) :=
  .foldl (.update (.foldl h fun _ _ h => .ite h.putSeq h)) fun _ _ h => h.freeTable
theorem kvSwap (h : d.Keeps e) {a table entries expGen port} : d.Keeps (e.kvSwap a table entries expGen port).2.2 := by
  unfold Dev.kvSwap
  refine .ite_snd_snd (.mk_snd_snd h) ?_
  split
  · exact h.putSeq.shareTable.retire.fixDeepAny
  · exact h
theorem kvSet (h : d.Keeps e) {a index e' expGen} : d.Keeps (e.kvSet a index e' expGen).2 := by
  unfold Dev.kvSet
  refine .ite_snd (.mk_snd h) (.ite_snd (.mk_snd h) (.ite_snd (.mk_snd h) (.mk_snd (.fixDeepAny (.changeEntry ?_)))))
  exact .ite h.deepGive h
theorem kvRelease (h : d.Keeps e) {a expGen} : d.Keeps (e.kvRelease a expGen).2.2 := by
  unfold Dev.kvRelease
  extract_lets r
  refine .ite_snd_snd (.mk_snd_snd h) (.mk_snd_snd (.retire (.update (.putSeq ?_))))
  exact .foldl h fun _ _ h => h.deepGive
theorem setLock (h : d.Keeps e) {a on} : d.Keeps (e.setLock a on) := .ite h.putSeq h
theorem evictPage (h : d.Keeps e) {half p a r k} : d.Keeps (e.evictPage half p a r k) := by
  unfold Dev.evictPage
  split
  · exact h
  · exact h.drawn.deepTake.deepAsk
theorem evictEnd (h : d.Keeps e) {a} : d.Keeps (e.evictEnd a) := .ite h h.putSeq.fixDeepAny.setLock
theorem evictPageEnd (h : d.Keeps e) {q ok} : d.Keeps (e.evictPageEnd q ok) :=
  .ite h (.ite h.deepGive.evictEnd (.evictEnd (.ite (.upto h.writeMem.changeEntry fun _ _ h => h.poisonLine) h.writeMem.changeEntry)))
theorem evictOldest (h : d.Keeps e) {half p need} : d.Keeps (e.evictOldest half p need).1 := by
  unfold Dev.evictOldest
  split
  · exact h.mk_fst
  · exact .mk_fst (.evictEnd (.setLock (.foldl (.upto h fun _ _ h => .ite (.changeEntry (.ite h.deepGive h)) h) fun _ _ h => .ite h h.evictPage)))
theorem evictUntil (h : d.Keeps e) {half p need n} : d.Keeps (Dev.evictUntil half p need n e) := by
  induction n generalizing e with
  | zero => exact h
  | succ n ih => exact .ite h (.ite (ih h.evictOldest) h.evictOldest)
theorem kvProbe (h : d.Keeps e) {x busy ap gs} : d.Keeps (e.kvProbe x busy ap gs).2 := by
  unfold Dev.kvProbe
  split
  · exact h
  · extract_lets needs d1 ev
    have h1 : d.Keeps d1 := .foldl h fun _ _ h => h.evictUntil
    clear_value d1
    split
    · exact h
    · split
      · exact h1
      · exact .ite_snd h1 h1
theorem pickFrames (h : d.Keeps e) {ns got} : d.Keeps (e.pickFrames ns got).1 := by
  induction ns generalizing e got with
  | nil => exact h
  | cons n r ih => exact ih h.drawn
theorem kvUnlock (h : d.Keeps e) {x} : d.Keeps (e.kvUnlock x) := .foldl h fun _ _ h => h.setLock
theorem kvTake (h : d.Keeps e) {x ap gs} : d.Keeps (e.kvTake x ap gs).1 :=
  .mk_fst (.foldl (.foldl (.foldl h.pickFrames.kvUnlock fun _ _ h => h.changeEntry) fun _ _ h => h.putSeq) fun _ _ h => h.putSeq)
theorem fetchPage (h : d.Keeps e) {q data poison} : d.Keeps (e.fetchPage q data poison) := by
  unfold Dev.fetchPage
  dsimp only
  split
  · exact h
  · exact .ite h (.fixDeepAny (.putSeq (.ite (.upto h.updInst.writeMem.deepGive.changeEntry fun _ _ h => h.poisonLine) h.updInst.writeMem.deepGive.changeEntry)))
theorem seqFallBack (h : d.Keeps e) {a} : d.Keeps (e.seqFallBack a) := .ite h.putSeq h
theorem evictExt (h : d.Keeps e) {m e'} : d.Keeps (e.evictExt m e').1 := by
  unfold Dev.evictExt
  split
  · exact h.mk_fst
  · exact h.drawn.setExtent.deepAsk.mk_fst
theorem evictExtEnd (h : d.Keeps e) {e' ok} : d.Keeps (e.evictExtEnd e' ok) := .ite h (.ite h.setExtent h.setExtent)
theorem evictFor (h : d.Keeps e) {m half n k} : d.Keeps (Dev.evictFor m half n k e).1 := by
  induction k generalizing e with
  | zero => exact h
  | succ k ih =>
    refine .ite_fst h (.ite_fst h ?_)
    split
    · exact h
    · exact .ite_fst (ih h.evictExt) h
theorem evictHalves (h : d.Keeps e) {m ns} : d.Keeps (Dev.evictHalves m ns e).1 :=
  .foldl_fst h fun r n h => by
    split
    · exact h
    · exact h.evictFor
theorem fetchExts (h : d.Keeps e) {m kind exts} : d.Keeps (e.fetchExts m kind exts) :=
  .foldl h fun _ _ h => h.setExtent.deepAsk
theorem fetchFor (h : d.Keeps e) {m kind exts} : d.Keeps (e.fetchFor m kind exts).1 :=
  .ite_fst h.evictHalves.fetchExts.mk_fst h.evictHalves
theorem fetchExt (h : d.Keeps e) {e' data poison} : d.Keeps (e.fetchExt e' data poison) :=
  .ite (.upto (.ite h.setExtent h.setExtent.writeMem) fun _ _ h => h.poisonLine) (.ite h.setExtent h.setExtent.writeMem)
theorem fetchExtFail (h : d.Keeps e) {e'} : d.Keeps (e.fetchExtFail e') := .ite h.setExtent h
theorem memAlloc (h : d.Keeps e) {m c bytes half hint parity} : d.Keeps (e.memAlloc m c bytes half hint parity).dev := by
  fun_cases Dev.memAlloc
  case case7 => exact .update h.drawn
  case case9 | case10 | case11 | case12 => exact h.evictHalves
  case case13 => exact .foldl (.update h.evictHalves.drawn) fun _ _ h => .foldl h fun _ _ h => h.setExtent
  all_goals exact h
theorem dropAlloc (h : d.Keeps e) {a} : d.Keeps (e.dropAlloc a) := .foldl (.update h) fun _ _ h => h.setExtent
theorem memFree (h : d.Keeps e) {a} : d.Keeps (e.memFree a) := .ite (.update h) h.dropAlloc
theorem reapFreeing (h : d.Keeps e) : d.Keeps (e.reapFreeing) := .foldl h fun _ _ h => h.dropAlloc
theorem shrinkTo (h : d.Keeps e) {m c half quota deep k} : d.Keeps (Dev.shrinkTo m c half quota deep k e).1 := by
  induction k generalizing e with
  | zero => exact h
  | succ k ih =>
    refine .ite_fst h (.ite_fst h (.ite_fst h ?_))
    split
    · exact h
    · exact .ite_fst (ih h.evictExt) h
theorem memQuota (h : d.Keeps e) {m c halves hbm deep} : d.Keeps (e.memQuota m c halves hbm deep).dev := by
  have hr : d.Keeps (halves.foldl (fun (a : Dev × EvictRes) h =>
      match a.2 with
      | .fail => a
      | s =>
        let q := Dev.shrinkTo m c h hbm deep (e.residentExts c h + 1) a.1
        (q.1, if q.2 = .ok then s else q.2)) (e, .ok)).1 := .foldl_fst h fun a k h => by
    split
    · exact h
    · exact h.shrinkTo
  fun_cases Dev.memQuota with
  | case1 => exact h
  | case2 => exact h
  | case3 => exact hr
  | case4 => exact mk_memRes (updCtx hr)
theorem resetRegs (h : d.Keeps e) {die offs} : d.Keeps (e.resetRegs die offs) := .update h
theorem assignOne (h : d.Keeps e) {c kind half n} : d.Keeps (e.assignOne c kind half n) :=
  .ite (.ite h (.setSlot (.update h.resetRegs))) (.ite h (.setPool (.update h.resetRegs)))
theorem releaseOne (h : d.Keeps e) {c kind half n} : d.Keeps (e.releaseOne c kind half n) :=
  .ite (.ite h.setSlot h) (.ite h.setPool h)
theorem memAssign (h : d.Keeps e) {c kind op half first count} : d.Keeps (e.memAssign c kind op half first count).2 := by
  refine .ite_snd h.mk_snd (.ite_snd h.mk_snd (.ite_snd (.mk_snd ?_) (.ite_snd h.mk_snd (.mk_snd ?_))))
  · exact .foldl h fun _ _ h => .foldl h fun _ _ h => h.assignOne
  · exact .foldl h fun _ _ h => .foldl h fun _ _ h => h.releaseOne
theorem spillExtents (h : d.Keeps e) {c newer half blocks d1} (he : e.spillExtents c newer half blocks = some d1) : d.Keeps d1 := by
  unfold Dev.spillExtents at he
  dsimp only at he
  split at he
  · cases he
    exact h
  · split at he
    · cases he
    · split at he
      · cases he
      · cases he
        exact .updStep (.foldl h.drawn.frame fun _ _ h => h.setExtent)
theorem reserveStash (h : d.Keeps e) {c newer half mb stage policy need ahead d1}
    (he : e.reserveStash c newer half mb stage policy need ahead = .ok d1) : d.Keeps d1 := by
  unfold Dev.reserveStash at he
  extract_lets cap left put at he
  split at he
  · split at he
    · split at he
      next d2 hs =>
        cases he
        exact (h.spillExtents hs).frame
      next => cases he
    · split at he <;> cases he
  · split at he
    · cases he
    · cases he
      exact h.frame
theorem releaseStage (h : d.Keeps e) {c newer mb stage} : d.Keeps (e.releaseStage c newer mb stage) := .update h
theorem releaseStash (h : d.Keeps e) {c newer} : d.Keeps (e.releaseStash c newer) := .update h
theorem setDone (h : d.Keeps e) {gid half st bell} : d.Keeps (e.setDone gid half st bell) := .update h
theorem setFail (h : d.Keeps e) {gid half st} : d.Keeps (e.setFail gid half st) := h.setDone
theorem cfgRefused (h : d.Keeps e) {half gid st} : d.Keeps (e.cfgRefused half gid st) := h.rwPut.record
theorem arm (h : d.Keeps e) {gid half hub} : d.Keeps (e.arm gid half hub) := .ite (.record (.stick (.update h))) (.update h)
theorem tellHub (h : d.Keeps e) {hub code st} : d.Keeps (e.tellHub hub code st) := by
  unfold Dev.tellHub
  split
  · exact .ite h.setHub h
  · exact h
theorem hwLimits (h : d.Keeps e) : d.Keeps (e.hwLimits) := by
  unfold Dev.hwLimits
  split
  · exact h
  · exact .update h
theorem takeEffect (h : d.Keeps e) {g} : d.Keeps (e.takeEffect g) := by
  unfold Dev.takeEffect
  extract_lets gid half die offs bank d0 drop bank0 moved com progs d1 d2 d3 d4
  have h2 : d.Keeps d2 := .rwPut (.rwPut (.setDone (.update (.update h))))
  have h4 : d.Keeps d4 := .tellHub (.ite (.upto h2 fun _ _ h => h.putShare) h2)
  refine .ite (.tellHub (.cfgRefused (.setFail (.update (.update h))))) ?_
  split
  · exact .ite h4.record h4
  · exact h4.record
theorem takeAll (h : d.Keeps e) {p} : d.Keeps (e.takeAll p) := .foldl h fun _ _ h => h.takeEffect
theorem cfgBell (h : d.Keeps e) : d.Keeps (e.cfgBell) :=
  .takeAll (by
      split
      · exact .record (.update h)
      · exact h)
theorem cfgAttempt (h : d.Keeps e) {c} : d.Keeps (e.cfgAttempt c) := h.takeAll
theorem cfgStep (h : d.Keeps e) {c} : d.Keeps (e.cfgStep c) := h.takeAll
theorem cfgAtCommit (h : d.Keeps e) {c} : d.Keeps (e.cfgAtCommit c) := h.takeAll
theorem cfgPool (h : d.Keeps e) {half p} : d.Keeps (e.cfgPool half p) := h.takeAll
theorem cfgCommitWriteEff (h : d.Keeps e) {w half value} : d.Keeps (cfgCommitWriteEff w half value e) :=
  .ite h (.ite h.cfgRefused.tellHub (.ite h.arm.tellHub h.setFail.cfgRefused.tellHub))
theorem tlyPortGoEff (h : d.Keeps e) {half core value} : d.Keeps (tlyPortGoEff half core value e) :=
  .ite h (by
      split
      · exact h.setHub
      · exact h.setHub)
theorem tallyDrawDoneEff (h : d.Keeps e) {half core mismatch} : d.Keeps (tallyDrawDoneEff half core mismatch e) :=
  .ite h (.ite h.checkRecord h.setHub)
theorem writeSnapshot (h : d.Keeps e) {c} : d.Keeps (e.writeSnapshot c) := .ite h (.ite h.writeMem h)
theorem putGroup (h : d.Keeps e) {gid half vs} : d.Keeps (e.putGroup gid half vs) := .update h
theorem takeGroups (h : d.Keeps e) {rd c half} : d.Keeps (e.takeGroups rd c half) := by
  unfold Dev.takeGroups
  split
  · exact h
  · exact .foldl_fst h fun _ _ h => h.putGroup
theorem takeSlots (h : d.Keeps e) {rd c half} : d.Keeps (e.takeSlots rd c half) := by
  unfold Dev.takeSlots
  split
  · exact h
  · exact .upto (.ite h.updCtx h) fun _ _ h => h.putGroup.setSlot
theorem takeUpdate (h : d.Keeps e) {rd c} : d.Keeps (e.takeUpdate rd c) := by
  unfold Dev.takeUpdate
  split
  · exact h
  · exact h.updCtx
theorem takeKv (h : d.Keeps e) {rd c half} : d.Keeps (e.takeKv rd c half) := by
  unfold Dev.takeKv
  split
  · exact h
  · exact .upto (.upto h fun _ _ h => h.putGroup.setPool) fun _ _ h => .upto (.putSeq (.update h.store)) fun _ _ h => .ite h.deepTake h
theorem takeFabric (h : d.Keeps e) {rd c} : d.Keeps (e.takeFabric rd c) := by
  unfold Dev.takeFabric
  split
  · exact h
  · exact h.updCtx
theorem tellJob (h : d.Keeps e) {kind c data} : d.Keeps (e.tellJob kind c data) :=
  .foldl h fun _ _ h => h.emit
theorem dropWork (h : d.Keeps e) {c newer} : d.Keeps (e.dropWork c newer) := by
  refine .reapFreeing (.foldl (.updStep (.updCtx (.releaseStash (.updateFab ?_)))) fun _ _ h => h.refreshHubSource)
  exact .foldl (.foldl h fun _ _ h => h.dropSnaps) fun _ _ h => h.kvUnlock
theorem kvAbandon (h : d.Keeps e) {c newer} : d.Keeps (e.kvAbandon c newer) := by
  unfold Dev.kvAbandon
  split
  · exact .foldl h.updStep fun _ _ h => h.seqFallBack
  · exact h
theorem unstart (h : d.Keeps e) {c newer} : d.Keeps (e.unstart c newer) := by
  unfold Dev.unstart
  split
  · exact .ite h.kvAbandon.dropWork.updStep h
  · exact h
theorem dropSpill (h : d.Keeps e) {r} : d.Keeps (e.dropSpill r) := .foldl h fun _ _ h => h.dropAlloc
theorem promote (h : d.Keeps e) {c} : d.Keeps (e.promote c) := .updateFab h.updCtx
theorem leaveStep (h : d.Keeps e) {c r st} : d.Keeps (e.leaveStep c r st) := h.updCtx.record
theorem dropNewer (h : d.Keeps e) {c} : d.Keeps (e.dropNewer c) := by
  unfold Dev.dropNewer
  split
  · exact h.kvAbandon.dropWork.dropSpill.leaveStep.updCtx
  · exact h
theorem scrubBoundary (h : d.Keeps e) {c} : d.Keeps (e.scrubBoundary c) := h.updCtx
theorem endStep (h : d.Keeps e) {c newer st} : d.Keeps (e.endStep c newer st) :=
  .ite (by
      split
      · exact h.kvAbandon.dropWork.dropSpill.leaveStep.updCtx
      · exact h) (by
      split
      · exact h.dropNewer.kvAbandon.dropWork.dropSpill.screenDrop.updCtx.leaveStep.updCtx.scrubBoundary
      · exact h)
theorem startAttempt (h : d.Keeps e) {c newer} : d.Keeps (e.startAttempt c newer) := by
  unfold Dev.startAttempt
  split
  · exact h
  · extract_lets first d0 form r gen
    have h0 : d.Keeps d0 := .ite h.cfgStep.cfgAttempt h.cfgAttempt
    split
    · exact h0.endStep
    · exact .ite (.foldl h0.updCtx fun _ _ h => h.setSlot) h0.updCtx
theorem declare (h : d.Keeps e) {c newer st cls ev} : d.Keeps (e.declare c newer st cls ev) := by
  unfold Dev.declare
  extract_lets d0 join tell d1 d2
  have hd : d.Keeps d0 := by
    dsimp only [d0]
    split
    · exact h.record
    · exact h
  split
  · exact hd
  · have hjoin {e : Dev} (h : d.Keeps e) : d.Keeps (join e) := h.updStep.updCtx
    have htell {e : Dev} (h : d.Keeps e) : d.Keeps (tell e) := .ite h h.tellJob
    clear_value d0 join tell
    have h2 : d.Keeps d2 := .updStep (htell (hjoin hd.updCtx))
    exact .ite (.ite h2 h2.unstart) (.ite (hjoin hd) (.ite (.updStep (htell (hjoin hd))) (.ite (hjoin hd) hd)))
theorem cause (h : d.Keeps e) {c newer st cls unit opcode addr} : d.Keeps (e.cause c newer st cls unit opcode addr) :=
  h.declare
theorem takeMaxima (h : d.Keeps e) {m} : d.Keeps (e.takeMaxima m) := .foldl h fun _ _ h => h.setSlot
theorem updCommit (h : d.Keeps e) {c skip r} : d.Keeps (e.updCommit c skip r) :=
  .ite h.updCtx (.foldl h.updCtx.updCtx fun _ _ h => h.updCtx.record)
theorem kvCommit (h : d.Keeps e) {c skip r} : d.Keeps (e.kvCommit c skip r) :=
  .ite h.kvAbandon (.foldl h fun _ _ h => .ite h.putSeq h)
theorem upkeepStart (h : d.Keeps e) {c} : d.Keeps (e.upkeepStart c) := .ite h.updCtx h
theorem commitStep (h : d.Keeps e) {c skip maxima} : d.Keeps (e.commitStep c skip maxima) := by
  unfold Dev.commitStep
  split
  · exact h
  · extract_lets overlap d0 d1 d2 d3 st d4 d5
    have h0 : d.Keeps d0 := .ite h.unstart h
    have h3 : d.Keeps d3 := h0.takeMaxima.screenCommit.updCommit.kvCommit.dropWork.dropSpill
    have h5 : d.Keeps d5 := h3.updCtx.cfgAtCommit.leaveStep.writeSnapshot
    exact .scrubBoundary (.promote (.ite h5 h5.upkeepStart))
theorem adoptMaxima (h : d.Keeps e) {c m} : d.Keeps (e.adoptMaxima c m) := .foldl h fun _ _ h => h.setSlot
theorem tellLate (h : d.Keeps e) {c newer r} : d.Keeps (e.tellLate c newer r) := .ite h.tellJob.emit h.tellJob
theorem applyAbandon (h : d.Keeps e) {c newer dec} : d.Keeps (e.applyAbandon c newer dec) := by
  unfold Dev.applyAbandon
  split
  · exact h
  · extract_lets own peer d1 late free told d2
    have h1 : d.Keeps d1 := h.adoptMaxima.updCtx
    have ht : d.Keeps told := .ite h1.tellLate h1
    have h2 : d.Keeps d2 := h1.updStep
    exact .ite h (.ite ht.drawn.endStep (.ite (.ite h1.commitStep h1.updStep) (.ite h1.drawn.endStep
      (.ite h1.tellJob.updStep (.ite h2.startAttempt h2)))))
theorem reduceAbandon (h : d.Keeps e) {c newer} : d.Keeps (e.reduceAbandon c newer) := by
  unfold Dev.reduceAbandon
  split
  · exact h
  · exact .ite (.applyAbandon (.ite h.drawn.emit h.drawn)) h
theorem drainTest (h : d.Keeps e) {c} : d.Keeps (e.drainTest c).1 :=
  .foldl_fst h fun _ _ h => .ite_fst h (.mk_fst h.setSlot.updCtx)
theorem drained (h : d.Keeps e) {c newer} : d.Keeps (e.drained c newer) := by
  unfold Dev.drained
  split
  · exact h
  · extract_lets t probe maxima d1 v d2
    have ht : d.Keeps t.1 := .ite_fst h h.drainTest
    have h2 : d.Keeps d2 := ht.adopt.kvAbandon.dropWork.updStep
    exact .ite h (.reduceAbandon (.ite h2.emit h2))
theorem sealNow (h : d.Keeps e) {c r dec} : d.Keeps (e.sealNow c r dec) := .ite h.updCtx.updStep.unstart h.commitStep
theorem applySeal (h : d.Keeps e) {c dec} : d.Keeps (e.applySeal c dec) := by
  unfold Dev.applySeal
  split
  · exact h
  · exact .ite h (.ite h.sealNow h.updStep)
theorem reduceSeal (h : d.Keeps e) {c since} : d.Keeps (e.reduceSeal c since) := by
  unfold Dev.reduceSeal
  split
  · exact h
  · exact .ite (.applySeal (.ite h.emit h)) h
theorem sealTest (h : d.Keeps e) {c} : d.Keeps (e.sealTest c).1 :=
  .foldl_fst h fun _ _ h => .ite_fst h (.mk_fst h.setSlot)
theorem startStale (h : d.Keeps e) {c} : d.Keeps (e.startStale c) := by
  unfold Dev.startStale
  split
  · exact .ite h.startAttempt h
  · exact h
theorem sealStep (h : d.Keeps e) {c since} : d.Keeps (e.sealStep c since) := by
  unfold Dev.sealStep
  split
  · exact h
  · exact .ite h (.reduceSeal (.startStale (.ite (.emit (.updStep (.ite (.declare (by
        split
        · exact h.sealTest.updStep.updCtx.declare
        · exact h.sealTest.updStep)) (by
        split
        · exact h.sealTest.updStep.updCtx.declare
        · exact h.sealTest.updStep)))) (.updStep (.ite (.declare (by
        split
        · exact h.sealTest.updStep.updCtx.declare
        · exact h.sealTest.updStep)) (by
        split
        · exact h.sealTest.updStep.updCtx.declare
        · exact h.sealTest.updStep))))))
theorem commitDue (h : d.Keeps e) {c} : d.Keeps (e.commitDue c) := by
  unfold Dev.commitDue
  split
  · split
    · exact .ite h (.ite h.sealNow (.ite h.commitStep h))
    · exact h
  · exact h
theorem startDue (h : d.Keeps e) {c} : d.Keeps (e.startDue c) := by
  unfold Dev.startDue
  dsimp only
  split
  · exact .ite (.startStale (by
        split
        · exact .ite h.startAttempt (.ite (by
              split
              · exact .ite h.startAttempt h
              · exact h) h)
        · exact h)) (.ite (by
        split
        · exact .ite (.startAttempt (by
              split
              · exact .ite h.startAttempt (.ite (by
                    split
                    · exact .ite h.startAttempt h
                    · exact h) h)
              · exact h)) (by
              split
              · exact .ite h.startAttempt (.ite (by
                    split
                    · exact .ite h.startAttempt h
                    · exact h) h)
              · exact h)
        · split
          · exact .ite h.startAttempt (.ite (by
                split
                · exact .ite h.startAttempt h
                · exact h) h)
          · exact h) (by
        split
        · exact .ite h.startAttempt (.ite (by
              split
              · exact .ite h.startAttempt h
              · exact h) h)
        · exact h))
  · split
    · exact .ite h.startAttempt (.ite (by
          split
          · exact .ite h.startAttempt h
          · exact h) h)
    · exact h
theorem putRun (h : d.Keeps e) {ctx mb puts} : d.Keeps (e.putRun ctx mb puts) := .foldl h fun _ _ h => h.writeMem
theorem poisonRun (h : d.Keeps e) {ctx mb puts} : d.Keeps (e.poisonRun ctx mb puts) :=
  .foldl h fun _ _ h => .foldl h fun _ _ h => h.poisonLine
theorem missNow (h : d.Keeps e) {c newer k} : d.Keeps (e.missNow c newer k) :=
  .ite h (.ite h.setSlot h.setSlot.updCtx.declare)
theorem reportTo (h : d.Keeps e) {c newer half t r} : d.Keeps (e.reportTo c newer half t r) := by
  unfold Dev.reportTo
  split
  · exact h
  · exact .missNow (.ite h.setSlot h.setSlot.updCtx)
theorem detach (h : d.Keeps e) : d.Keeps (e.detach) := h.change (hf := fun _ => Nat.zero_le 6)
theorem torusPort (h : d.Keeps e) {half k plus} : d.Keeps (e.torusPort half k plus).2 :=
  .ite_snd (.mk_snd (.updateFab h)) (.ite_snd (.mk_snd (.updateFab h)) h.mk_snd)
theorem sendPackets (h : d.Keeps e) {p n} : d.Keeps (e.sendPackets p n) := by
  induction n generalizing e with
  | zero => exact h
  | succ n ih =>
    unfold Dev.sendPackets
    dsimp only
    split
    · exact h
    · exact ih h.setPort.emit
theorem pumpPort (h : d.Keeps e) {p} : d.Keeps (e.pumpPort p) := h.sendPackets
theorem queuePacket (h : d.Keeps e) {p k data} : d.Keeps (e.queuePacket p k data) := .pumpPort (.setPort (.updateFab h))
theorem sendPacket (h : d.Keeps e) {half from? k data} : d.Keeps (e.sendPacket half from? k data) := by
  unfold Dev.sendPacket
  dsimp only
  split
  · exact h.queuePacket
  · split
    · exact h
    · split
      next _ heq => exact h
      next p d1 heq => exact .queuePacket (.of_snd h.torusPort heq)
theorem ackPort (h : d.Keeps e) {p seq} : d.Keeps (e.ackPort p seq) := h.setPort.pumpPort
theorem nakPort (h : d.Keeps e) {p seq} : d.Keeps (e.nakPort p seq) := .foldl h.setPort.rcAdd fun _ _ h => h.emit
theorem misroute (h : d.Keeps e) {half} : d.Keeps (e.misroute half) := h.rcAdd
theorem sendLogical (h : d.Keeps e) {c half logical dstHalf vc type tag gen data} :
    d.Keeps (e.sendLogical c half logical dstHalf vc type tag gen data) := by
  unfold Dev.sendLogical
  split
  · exact h
  · exact h.sendPacket
theorem receivePacket (h : d.Keeps e) {port k data} : d.Keeps (e.receivePacket port k data).1 :=
  .ite_fst h.misroute.mk_fst (.ite_fst h.sendPacket.mk_fst (.ite_fst h.misroute.mk_fst h.mk_fst))
theorem leaveJob (h : d.Keeps e) {c} : d.Keeps (e.leaveJob c) :=
  .ite (h.updCtx.tellJob.change (hf := fun w => by rwa [Dev.tellJob_fab] at w)) h
theorem settleLeaving (h : d.Keeps e) : d.Keeps (e.settleLeaving) := .ite (h.change (hf := fun _ => Nat.le_refl 6)) h
theorem leaveAll (h : d.Keeps e) : d.Keeps (e.leaveAll) := .settleLeaving (.foldl h fun _ _ h => h.leaveJob)
theorem failDevice (h : d.Keeps e) {unit} : d.Keeps (e.failDevice unit) :=
  .ite h (.leaveAll (.record (.stick (.updateFab h))))
theorem fence (h : d.Keeps e) : d.Keeps (e.fence) := .ite h (.foldl (.update h) fun _ _ h => h.cause)
theorem isolateDie (h : d.Keeps e) {die} : d.Keeps (e.isolateDie die) := by
  unfold Dev.isolateDie
  extract_lets d1 onDie health pwr d2 d3
  have h2 : d.Keeps d2 := .updatePwr h.fence.stick.stick.record
  have h3 : d.Keeps d3 := .ite (.upto h2 fun _ _ h => h.setPort) h2
  exact .ite h (.ite h.failDevice (.failDevice (.ite h3.linkLost h3)))
theorem dropSram (h : d.Keeps e) {die cluster} : d.Keeps (e.dropSram die cluster) :=
  h.change (hm := fun w => Memory.wf_filter _ _ w)
theorem retile (h : d.Keeps e) {die cluster} : d.Keeps (e.retile die cluster) :=
  .ite (.isolateDie (.setCluster (.dropSram (.foldl h fun _ _ h => .foldl h fun _ _ h => by
      split
      · exact .ite h.cause h
      · exact h)))) (.refreshHealth (.setCluster (.dropSram (.foldl h fun _ _ h => .foldl h fun _ _ h => by
      split
      · exact .ite h.cause h
      · exact h))))
theorem moveSlot (h : d.Keeps e) {die cluster slot core} : d.Keeps (e.moveSlot die cluster slot core) := h.setCluster
theorem vacate (h : d.Keeps e) {die cluster core} : d.Keeps (e.vacate die cluster core) := by
  unfold Dev.vacate
  split
  · exact h.refreshHealth
  · split
    · exact h.moveSlot.refreshHealth
    · exact h.retile
theorem leaveHeld (h : d.Keeps e) {die cluster core} : d.Keeps (e.leaveHeld die cluster core) := .ite h.vacate h
theorem mapOut (h : d.Keeps e) {die cluster core} : d.Keeps (e.mapOut die cluster core) := by
  unfold Dev.mapOut
  extract_lets
  exact .ite h (.vacate (.record (.stick (.update (.upto h fun _ _ h => .ite h.setHist h)))))
theorem withdrawHub (h : d.Keeps e) {half core} : d.Keeps (e.withdrawHub half core) :=
  .ite h (.ite (.isolateDie (.refreshHealth (.record (.stick (.setHist (.withdrawTarget (by
      split
      · exact h.cause
      · exact h))))))) (.refreshHealth (.record (.stick (.setHist (.withdrawTarget (by
      split
      · exact h.cause
      · exact h)))))))
theorem dropStandby (h : d.Keeps e) {half} : d.Keeps (e.dropStandby half) := .ite h (.refreshHealth (.update h))
theorem linkRecord (h : d.Keeps e) {unit link} : d.Keeps (e.linkRecord unit link) := h.record.drawn
theorem retirePort (h : d.Keeps e) {p} : d.Keeps (e.retirePort p) := by
  unfold Dev.retirePort
  extract_lets x q d1 d2 y d3 d4
  have h2 : d.Keeps d2 := h.setPort.stick.linkRecord
  have h3 : d.Keeps d3 := .ite (.ite h2 h2.setPort.pumpPort) (.foldl h2 fun _ _ h => h.sendPacket)
  exact .ite h (.refreshHealth (.ite h3.failDevice h3))
theorem loseWavelength (h : d.Keeps e) {port lam} : d.Keeps (e.loseWavelength port lam) :=
  .ite h (.ite h.setPort.retirePort h.setPort)
theorem actPermanent (h : d.Keeps e) {u key} : d.Keeps (e.actPermanent u key) :=
  .ite (.ite h h.isolateDie) (.ite (.ite h.withdrawHub (.ite h.dropStandby h.isolateDie)) (.ite (.update h)
    (.ite h.retirePort (.ite h.loseWavelength (.ite (.ite h h.failDevice) h.isolateDie)))))
theorem permanent (h : d.Keeps e) {u key} : d.Keeps (e.permanent u key) :=
  .ite (.ite h h.record.actPermanent) (.ite h h.setHist.record.actPermanent)
theorem enterEvent (h : d.Keeps e) {u key kind} : d.Keeps (e.enterEvent u key kind) :=
  .ite (.permanent (.ite h.setHist.record h.setHist)) (.ite h.setHist.record h.setHist)
theorem loseContext (h : d.Keeps e) {c addr} : d.Keeps (e.loseContext c addr) :=
  h.stick.record.endStep.endStep.leaveJob.settleLeaving
theorem consumePoison (h : d.Keeps e) {c newer unit task line} : d.Keeps (e.consumePoison c newer unit task line) :=
  .ite h.stick.updCtx.cause (.ite h.stick.updCtx.updCtx.cause h.stick.updCtx.record.loseContext)
theorem escalate (h : d.Keeps e) {c newer die cluster core task} : d.Keeps (e.escalate c newer die cluster core task) :=
  h.cause
theorem sendFlit (h : d.Keeps e) {dir link q} : d.Keeps (e.sendFlit dir link q) := h.setXlink.emit
theorem sendFlits (h : d.Keeps e) {dir link n} : d.Keeps (e.sendFlits dir link n) := by
  induction n generalizing e with
  | zero => exact h
  | succ n ih =>
    unfold Dev.sendFlits
    split
    · exact h
    · exact ih h.sendFlit
theorem pumpLink (h : d.Keeps e) {dir link} : d.Keeps (e.pumpLink dir link) := h.sendFlits
theorem fencedMsg (h : d.Keeps e) {half m} : d.Keeps (e.fencedMsg half m) :=
  .ite h (by
      split
      · exact h.cause
      · exact h)
theorem sendCrosscut (h : d.Keeps e) {dir m} : d.Keeps (e.sendCrosscut dir m) :=
  .ite h.fencedMsg (.ite h (.pumpLink (.setXlink (.update h.drawn))))
theorem ackLink (h : d.Keeps e) {dir link seq} : d.Keeps (e.ackLink dir link seq) := h.setXlink.pumpLink
theorem nakLink (h : d.Keeps e) {dir link seq} : d.Keeps (e.nakLink dir link seq) :=
  .foldl h.setXlink.rcAdd fun _ _ h => by
      split
      · exact h.emit
      · exact h
theorem retireLink (h : d.Keeps e) {dir link} : d.Keeps (e.retireLink dir link) := by
  unfold Dev.retireLink
  extract_lets x d1 d2 ups dest d3 y d4
  have h3 : d.Keeps d3 := h.setXlink.stick.linkRecord.drawn
  have h4 : d.Keeps d4 := .ite h3 h3.setXlink.pumpLink
  exact .ite h (.ite h4.fence.failDevice.refreshHealth h4.refreshHealth)
theorem withWindows (h : d.Keeps e) {x} : d.Keeps (e.withWindows x) := .foldl h fun _ _ h => .ite (.update h.store) h.store
theorem openWindow (h : d.Keeps e) {x half gen a n use} : d.Keeps (e.openWindow x half gen a n use) := .update h
theorem copyIn (h : d.Keeps e) {x gen a n} : d.Keeps (e.copyIn x gen a n) := h.openWindow.updCtx.sendCrosscut
theorem outWindows (h : d.Keeps e) {x gen tds} : d.Keeps (e.outWindows x gen tds) := .foldl h fun _ _ h => h.openWindow
theorem sendFar (h : d.Keeps e) {x a b poison} : d.Keeps (e.sendFar x a b poison) := by
  unfold Dev.sendFar
  split
  · exact h
  · exact .sendCrosscut (.update h)
theorem putOut (h : d.Keeps e) {x puts poison} : d.Keeps (e.putOut x puts poison) :=
  .foldl (.ite h.poisonRun h.putRun) fun _ _ h => h.sendFar
theorem closeWindows (h : d.Keeps e) {x} : d.Keeps (e.closeWindows x) := .update h
theorem hfTrap (h : d.Keeps e) {core cause tval} : d.Keeps (e.hfTrap core cause tval) := .update h
theorem hfStore (h : d.Keeps e) {core die off v act} (ha : ∀ e, d.Keeps e → d.Keeps (act e)) :
    d.Keeps (e.hfStore core die off v act) := .ite h.hfTrap (.ite (ha e h) h.sendCrosscut)
theorem byWriter (h : d.Keeps e) {w die off v act} (ha : ∀ e, d.Keeps e → d.Keeps (act e)) :
    d.Keeps (e.byWriter w die off v act) := by
  cases w with
  | headframe core => exact h.hfStore ha
  | hub half core => exact ha e h
  | host => exact ha e h
  | mailbox set => exact ha e h
theorem putBits (h : d.Keeps e) {c mb t first els scales} : d.Keeps (e.putBits c mb t first els scales) := h.putRun
theorem putColl (h : d.Keeps e) {q} : d.Keeps (e.putColl q) := .updateFab h
theorem sendPart (h : d.Keeps e) {c i q result dest p} : d.Keeps (e.sendPart c i q result dest p) := h.sendLogical
theorem writeSum (h : d.Keeps e) {x dst p} : d.Keeps (e.writeSum x dst p) := .ite h.putOut.reportTo h.putOut.reportTo
theorem writeResult (h : d.Keeps e) {q i p from'} : d.Keeps (e.writeResult q i p from') :=
  .ite h (by
      split
      · exact h
      · dsimp only
        split
        · exact .ite (.updCtx (.ite h.writeSum h.putOut)) (.ite h.writeSum h.putOut)
        · exact h)
theorem setClip (h : d.Keeps e) {c sum} : d.Keeps (e.setClip c sum) := .update h.updCtx
theorem digestFail (h : d.Keeps e) {q half named} : d.Keeps (e.digestFail q half named) :=
  .ite h.updCtx.putColl h.updCtx.putColl.emit.cause
theorem finishColl (h : d.Keeps e) {q i} : d.Keeps (e.finishColl q i) := by
  unfold Dev.finishColl
  extract_lets reducer n fmt key range r r1 res d1 d2 d3 d4 own d1'
  have h2 : d.Keeps d2 := by
    refine .ite h.putColl ?_
    split
    · exact h.putColl.reportTo
    · exact h.putColl
  have h4 : d.Keeps d4 := .writeResult (.ite h2 (.foldl h2 fun _ _ h => h.sendPart))
  have h1 : d.Keeps d1' := h.putColl
  clear_value d4 d1'
  refine .ite h (.ite h.putColl.cause (.ite h.digestFail (.ite (.ite h4.setClip h4) (.ite ?_ (.foldl h1 fun _ _ h => h.writeResult)))))
  split
  · exact .ite h.putColl.writeResult.setClip h.putColl.writeResult
  · exact h1
theorem postPart (h : d.Keeps e) {c newer task mb due i own} : d.Keeps (e.postPart c newer task mb due i own) :=
  .finishColl (.ite h.putColl (.foldl h.putColl fun _ _ h => h.sendPart))
theorem postClip (h : d.Keeps e) {c newer} : d.Keeps (e.postClip c newer) := by
  unfold Dev.postClip
  split
  · exact .ite (by
        dsimp only
        split
        · exact h.postPart
        · exact h) h
  · exact h
theorem postInst (h : d.Keeps e) {x} : d.Keeps (e.postInst x) :=
  .ite h (by
      split
      · dsimp only
        split
        · exact h
        · split
          · exact h.consumePoison
          · exact .ite (.ite h.reportTo.postPart h.reportTo.cause) h.postPart
      · exact h)
theorem startColl (h : d.Keeps e) {x} : d.Keeps (e.startColl x) := .ite h.postInst h
theorem resumeColls (h : d.Keeps e) : d.Keeps (e.resumeColls) :=
  .foldl (.foldl h fun _ _ h => h.startColl) fun _ _ h => by
      split
      · exact h.finishColl
      · exact h
theorem takePart (h : d.Keeps e) {c gen cseq result p} : d.Keeps (e.takePart c gen cseq result p) := by
  unfold Dev.takePart
  dsimp only
  split
  · exact h
  · split
    · exact h
    · split
      · exact h
      · exact .ite (.digestFail (.putColl (.ite h.updCtx.record h))) (.finishColl (.putColl (.ite h.updCtx.record h)))
theorem putMasters (h : d.Keeps e) {c j ms} : d.Keeps (e.putMasters c j ms) := h.putRun.putRun
theorem putState (h : d.Keeps e) {c j o} : d.Keeps (e.putState c j o) := .foldl h.writeMem fun _ _ h => h.writeMem
theorem putBf16 (h : d.Keeps e) {c t first xs} : d.Keeps (e.putBf16 c t first xs) := h.putBits
theorem copyFactors (h : d.Keeps e) {c j} : d.Keeps (e.copyFactors c j) := h.putBits.putBits
theorem postRefresh (h : d.Keeps e) {c newer j z} : d.Keeps (e.postRefresh c newer j z) := by
  unfold Dev.postRefresh
  dsimp only
  split
  · exact h
  · exact h.reportTo.postPart
theorem updateTensorStartEff (h : d.Keeps e) {ctx newer task} : d.Keeps (updateTensorStartEff ctx newer task e) := by
  unfold Machine.updateTensorStartEff
  split
  · exact .ite h (by
        split
        · exact h.consumePoison
        · exact .ite h.updInst.updCtx.postRefresh h.updInst)
  · exact h
theorem updWrite (h : d.Keeps e) {x j o} : d.Keeps (e.updWrite x j o) := by
  unfold Dev.updWrite
  extract_lets c vals d1 t img rep d2 d3 k d4 d5
  have h1 : d.Keeps d1 := h.putMasters.putState
  have h2 : d.Keeps d2 := .ite h1 h1.reportTo.putRun.reportTo
  have h3 : d.Keeps d3 := .foldl h2 fun _ _ h => .ite h.updCtx.record h
  have h4 : d.Keeps d4 := by
    refine .ite h3 (.ite ?_ h3.copyFactors)
    split
    · exact h3.putBf16.putBf16
    · exact h3.copyFactors.record
  have h5 : d.Keeps d5 := by
    dsimp only [d5]
    split
    · exact h4.updStep
    · exact h4
  exact h5.rcAdd.updInst.drawn
theorem updateTensorDoneEff (h : d.Keeps e) {ctx newer task mismatch} :
    d.Keeps (Machine.updateTensorDoneEff ctx newer task mismatch e) := by
  unfold Machine.updateTensorDoneEff
  split
  · extract_lets u n d1 d2 o d3 d4
    have hm : d.Keeps d2 := h.checkRecord.stick.rcAdd.enterEvent.updCtx.updStep
    refine .ite h (.ite (.ite hm.updInst hm.markSuspect.cause) (.ite h ?_))
    split
    · exact h.updCtx.reportNf.updInst
    · exact .updWrite (.ite h.updCtx h)
  · exact h
theorem storeStats (h : d.Keeps e) {w zpA zpB} : d.Keeps (e.storeStats w zpA zpB) := by
  unfold Dev.storeStats
  split
  · exact h
  · exact .ite h (.foldl h fun _ _ h => .ite h.poisonLine h.writeMem)
theorem deepWrites (h : d.Keeps e) {x puts poison} : d.Keeps (e.deepWrites x puts poison) := .foldl h fun _ _ h => h.deepAsk
theorem writePieces (h : d.Keeps e) {w tile ps} : d.Keeps (e.writePieces w tile ps) :=
  .ite (.foldl h.putOut.deepWrites.putOut.deepWrites fun _ _ h => by
      split
      · exact h.reportTo
      · exact h) (.updInst (.foldl h.putOut.deepWrites.putOut.deepWrites fun _ _ h => by
      split
      · exact h.reportTo
      · exact h))
theorem noteReady (h : d.Keeps e) {c newer} : d.Keeps (e.noteReady c newer) := by
  unfold Dev.noteReady
  split
  · exact .ite h (.update h.updStep)
  · exact h
theorem fetchAll (h : d.Keeps e) {x exts d1} (he : e.fetchAll x exts = some d1) : d.Keeps d1 := by
  unfold Dev.fetchAll at he
  dsimp only at he
  split at he <;> cases he
  exact h.fetchFor
theorem fetchPages (h : d.Keeps e) {x ap gs pages} : d.Keeps (e.fetchPages x ap gs pages).1 :=
  .mk_fst (.foldl (.foldl h.pickFrames fun _ _ h => h.setLock) fun _ _ h => h.deepAsk)
theorem stageTake (h : d.Keeps e) {w d1} (he : e.stageTake w = .ok d1) : d.Keeps d1 := by
  unfold Dev.stageTake at he
  dsimp only at he
  split at he
  · cases he
    exact h
  · exact h.reserveStash he
theorem deepReads (h : d.Keeps e) {w} : d.Keeps (e.deepReads w) := .foldl h fun _ _ h => h.deepAsk
theorem admitInst (h : d.Keeps e) {w run x} : d.Keeps (e.admitInst w run x) := by
  unfold Dev.admitInst
  extract_lets c pin d1 exts d2 w0 y d3 buf d4 wy tds d5 late d6
  have h1 : d.Keeps d1 := .ite h.updCtx.updStep h
  have h2 : d.Keeps d2 := .foldl h1 fun _ _ h => h.setExtent
  have h4 : d.Keeps d4 := .updStep (.update h2)
  have h5 : d.Keeps d5 := .foldl h4.outWindows fun _ _ h => h.copyIn
  have h6 : d.Keeps d6 := .ite h5.deepReads.updCtx h5.deepReads
  exact .ite h6.refreshHubSource h6.startColl
theorem admStop (h : d.Keeps e) {x st cls} : d.Keeps (e.admStop x st cls) := .cause (.update h.kvUnlock)
theorem reserveKv (h : d.Keeps e) {d0 w} (h0 : d.Keeps d0) : d.Keeps (e.reserveKv d0 w).dev := by
  unfold Dev.reserveKv
  refine .ite_adm h0 (.ite_adm h ?_)
  dsimp only
  split
  · exact h.kvProbe
  · exact h.kvProbe
  · exact h.kvProbe
  · exact h.kvProbe.fetchPages
  · split
    next d2 hs => exact (h.kvProbe.stageTake hs).kvTake.updStep
    next => exact h.kvProbe
theorem reserve (h : d.Keeps e) {w} : d.Keeps (e.reserve w).dev := by
  unfold Dev.reserve
  refine .ite_adm ?_ ?_
  · split
    · exact h
    next d1 hf => exact h.fetchAll hf
  · split
    · exact h
    · exact h
    · exact h
    next d0 hs => exact h.reserveKv (h.stageTake hs)
theorem admReserve (h : d.Keeps e) {w run} : d.Keeps (e.admReserve w run) := by
  have hr := h.reserve (w := w)
  unfold Dev.admReserve
  split
  next d3 st cls he => exact .admStop (by rwa [he] at hr)
  next d3 y he => exact .frame (e := d3) (by rwa [he] at hr)
  next d3 y he => exact .admitInst (by rwa [he] at hr)
theorem admGo (h : d.Keeps e) {w run fresh} : d.Keeps (e.admGo w run fresh) := by
  unfold Dev.admGo
  split
  · exact h.admStop
  · exact .ite h.updCtx (.ite h.updCtx (.admReserve (.ite h.updCtx h)))
theorem admOpen (h : d.Keeps e) {t} : d.Keeps (e.admOpen t) := .foldl (.update h) fun _ _ h => h.cfgPool
theorem instanceAdmitEff (h : d.Keeps e) {ctx newer task mb} : d.Keeps (instanceAdmitEff ctx newer task mb e) := by
  unfold Machine.instanceAdmitEff
  dsimp only
  split
  · exact .ite h.noteReady (by
        split
        · exact h.noteReady.admGo
        · exact h.noteReady.admOpen.admGo)
  · exact h.noteReady
theorem endWait (h : d.Keeps e) {x st unit} : d.Keeps (e.endWait x st unit) := .cause (.update h.kvUnlock)
theorem pageExhaustedEff (h : d.Keeps e) {ctx newer task mb} : d.Keeps (pageExhaustedEff ctx newer task mb e) := by
  unfold Machine.pageExhaustedEff
  split
  · exact .ite h (.foldl h fun _ _ h => h.endWait)
  · exact h
theorem hbmAdmitDeadlineEff (h : d.Keeps e) {ctx newer task mb} : d.Keeps (hbmAdmitDeadlineEff ctx newer task mb e) := by
  unfold Machine.hbmAdmitDeadlineEff
  split
  · exact .ite h h.endWait
  · exact h
theorem addItem (h : d.Keeps e) {x excess} : d.Keeps (e.addItem x excess) := .update h
theorem addItems (h : d.Keeps e) {excess l} : d.Keeps (e.addItems excess l) := by
  induction l generalizing e excess with
  | nil => exact h
  | cons x r ih => exact ih h.addItem
theorem stashWrite (h : d.Keeps e) {g i t start outs} : d.Keeps (e.stashWrite g i t start outs).1 := by
  fun_cases Dev.stashWrite with
  | case1 => exact h
  | case2 => exact h.addItems
  | case3 => exact .update (h.addItems).updCtx
  | case4 _ _ _ _ _ _ _ _ _ _ _ _ he => exact .update (Dev.Keeps.addItems (h.spillExtents he)).updCtx
  | case5 => exact h
  | case6 => exact h
theorem stashMove (h : d.Keeps e) {half} : d.Keeps (e.stashMove half) := by
  unfold Dev.stashMove
  dsimp only
  split
  · exact .update h
  · split
    · exact .update h
    · exact h
theorem stashMoveDoneEff (h : d.Keeps e) {half} : d.Keeps (stashMoveDoneEff half e) := .ite h.stashMove h
theorem loadChans (h : d.Keeps e) {w key} : d.Keeps (e.loadChans w key) :=
  .ite h (.foldl h fun _ _ h => by
      split
      · exact .ite h (.foldl h fun _ _ h => .update h)
      · exact h)
theorem atnCount (h : d.Keeps e) {w die cluster first} : d.Keeps (e.atnCount w die cluster first) := .ite h h.rcAdd.rcAdd
/-- Every device that work may be issued on is the present one, or the one that its admission leaves. -/
theorem of_admittable (h : d.Keeps e) {half q} (hq : q ∈ e.admittable half) : d.Keeps q.1 := by
  simp only [Dev.admittable, List.mem_flatMap] at hq
  obtain ⟨c, -, newer, -, hq⟩ := hq
  split at hq
  · simp only [List.mem_flatMap] at hq
    obtain ⟨t, -, hq⟩ := hq
    split at hq
    · simp at hq
    · simp only [List.mem_filterMap] at hq
      obtain ⟨m, -, hq⟩ := hq
      split at hq
      · simp at hq
      · split at hq
        · split at hq
          · cases hq
            exact h.instanceAdmitEff
          · cases hq
        · cases hq
  · simp at hq
theorem sliceIssueEff (h : d.Keeps e) {die cluster core} : d.Keeps (sliceIssueEff die cluster core e) := by
  unfold Machine.sliceIssueEff
  refine .ite h ?_
  dsimp only
  split
  · exact h
  next b w hf =>
    have hb : d.Keeps b := by
      have hm := List.mem_of_find?_eq_some hf
      simp only [List.mem_filterMap, Option.map_eq_some_iff, Prod.mk.injEq] at hm
      obtain ⟨q, hq, _, -, rfl, -⟩ := hm
      rcases List.mem_append.1 (List.mem_of_mem_filter ((Dev.mem_issueOrder e _ q).1 hq)) with hq | hq
      · obtain ⟨i, -, rfl⟩ := List.mem_map.1 hq
        exact h
      · exact h.of_admittable hq
    exact .atnCount (.ite (.loadChans (.ite hb.drawn.setCore.updInst.updCtx hb.drawn.setCore.updInst))
      (.ite hb.drawn.setCore.updInst.updCtx hb.drawn.setCore.updInst))
theorem setAct (h : d.Keeps e) {key e' s} : d.Keeps (e.setAct key e' s) := h.setCore
theorem updAct (h : d.Keeps e) {key e' f} : d.Keeps (e.updAct key e' f) := by
  unfold Dev.updAct
  split
  · exact h.setAct
  · exact h
theorem nextSlice (h : d.Keeps e) {key e'} : d.Keeps (e.nextSlice key e') := by
  unfold Dev.nextSlice
  dsimp only
  split
  · exact h.setCore.loadChans
  · exact h.setCore
theorem dropSlice (h : d.Keeps e) {key e'} : d.Keeps (e.dropSlice key e') := h.setCore.nextSlice
theorem firstWrite (h : d.Keeps e) {w} : d.Keeps (e.firstWrite w).1 :=
  .ite_fst h.mk_fst (by
      dsimp only
      split
      · exact h.stashWrite.updInst.cause.mk_fst
      · exact h.stashWrite.updInst.cause.mk_fst
      · exact h.stashWrite.updInst.mk_fst)
theorem writeOut (h : d.Keeps e) {w unit tile ps line} : d.Keeps (e.writeOut w unit tile ps line) :=
  .ite h.firstWrite (by
      split
      · exact h.firstWrite.writePieces.updInst.consumePoison
      · exact h.firstWrite.writePieces.updInst)
theorem writeTile (h : d.Keeps e) {q unit tile f} : d.Keeps (e.writeTile q unit tile f) := h.writeOut
theorem writeGroup (h : d.Keeps e) {w unit g} : d.Keeps (e.writeGroup w unit g) := .ite h.writeOut.drawn h.writeOut
theorem unitFailed (h : d.Keeps e) {die reg? unit ctx} : d.Keeps (e.unitFailed die reg? unit ctx) :=
  .enterEvent (by
      split
      · exact h.checkRecord.rcAdd
      · exact h.checkRecord)
theorem failCount (h : d.Keeps e) {die cluster core e' part lane ctx} : d.Keeps (e.failCount die cluster core e' part lane ctx) :=
  .ite (.ite h h.unitFailed) (.unitFailed (.ite h h.unitFailed))
theorem handSlices (h : d.Keeps e) {die cluster core spare slot} : d.Keeps (e.handSlices die cluster core spare slot) := by
  unfold Dev.handSlices
  dsimp only
  split
  · exact h.setCore.setCore.moveSlot.loadChans
  · exact h.setCore.setCore.moveSlot
theorem coreLevel (h : d.Keeps e) {die cluster core e'} : d.Keeps (e.coreLevel die cluster core e') := by
  unfold Dev.coreLevel
  dsimp only
  split
  · exact h
  · exact .ite (by
        split
        · exact h.markSuspect.setCore.updAct.handSlices
        · exact h.markSuspect.dropSlice.escalate) h.setCore.updAct
theorem walkFailed (h : d.Keeps e) {die cluster core e' s} : d.Keeps (e.walkFailed die cluster core e' s) := by
  unfold Dev.walkFailed
  dsimp only
  split
  · exact .ite h.unitFailed.updInsts.updAct h.unitFailed.updInsts.markSuspect.coreLevel
  · exact h.unitFailed.updInsts
theorem offer (h : d.Keeps e) {key host} : d.Keeps (e.offer key host) :=
  .foldl h fun _ _ h => by
      split
      · exact h
      · exact .foldl h fun _ _ h => .ite h.setCore h
theorem intoArray (h : d.Keeps e) {key host} : d.Keeps (e.intoArray key host) := by
  unfold Dev.intoArray
  dsimp only
  split
  · exact h.setCore
  · exact h
theorem boundary (h : d.Keeps e) {key e'} : d.Keeps (e.boundary key e') := .ite h.intoArray.offer.intoArray h
theorem goForeign (h : d.Keeps e) {die cluster core e' tile} : d.Keeps (e.goForeign die cluster core e' tile) := by
  unfold Dev.goForeign
  dsimp only
  split
  · exact h.coreLevel
  · exact .ite h.updAct.rcAddHi.offer.intoArray h.updAct.rcAddHi.offer
theorem failFirst (h : d.Keeps e) {die cluster core e' tile q} : d.Keeps (e.failFirst die cluster core e' tile q) :=
  .ite h.failCount.goForeign h.failCount.updAct.rcAddLo
theorem stopDrained (h : d.Keeps e) {key e'} : d.Keeps (e.stopDrained key e') := by
  unfold Dev.stopDrained
  split
  · exact .ite h h.dropSlice
  · exact h
theorem passTile (h : d.Keeps e) {die cluster core e' unit tile f q} : d.Keeps (e.passTile die cluster core e' unit tile f q) :=
  h.writeTile.updAct.rcAdd.stopDrained
theorem attemptTile (h : d.Keeps e) {die cluster core n tile f k} (hk : ∀ e q, d.Keeps e → d.Keeps (k e q)) :
    d.Keeps (e.attemptTile die cluster core n tile f k) := by
  unfold Dev.attemptTile
  dsimp only
  split
  · exact h
  · refine .ite h.walkFailed.stopDrained ?_
    split
    · exact h
    · exact hk _ _ (.ite h.updAct h)
theorem drainTile (h : d.Keeps e) {die cluster core e' tile f} : d.Keeps (e.drainTile die cluster core e' tile f) := by
  unfold Dev.drainTile
  dsimp only
  split
  · exact h
  · exact .ite h (.boundary (.attemptTile h fun _ _ h => .ite h.passTile h.failFirst.stopDrained))
theorem fTileDrainEff (h : d.Keeps e) {die cluster core tile f} : d.Keeps (fTileDrainEff die cluster core tile f e) :=
  h.drainTile
theorem bTileDrainEff (h : d.Keeps e) {die cluster core eng tile f} : d.Keeps (bTileDrainEff die cluster core eng tile f e) :=
  .ite h h.drainTile
theorem replayTile (h : d.Keeps e) {die cluster core e' tile f} : d.Keeps (e.replayTile die cluster core e' tile f) :=
  .boundary (.attemptTile h fun _ _ h => .ite h.passTile h.failCount.markSuspect.goForeign.stopDrained)
theorem tileReplayEff (h : d.Keeps e) {die cluster core tile f} : d.Keeps (tileReplayEff die cluster core tile f e) := by
  unfold Machine.tileReplayEff
  dsimp only
  split
  · exact h
  · exact .ite h.replayTile h
theorem foreignTile (h : d.Keeps e) {die cluster core eng t f} : d.Keeps (e.foreignTile die cluster core eng t f) := by
  unfold Dev.foreignTile
  dsimp only
  split
  · exact h.setCore.boundary
  · refine .ite h.walkFailed.stopDrained (.boundary (.attemptTile h.setCore fun _ _ h => ?_))
    exact .ite (.passTile (.ite h.rcAddLo h.rcAddHi)) (.stopDrained (.coreLevel (.failCount (.ite h.rcAddLo h.rcAddHi))))
theorem foreignTileRunEff (h : d.Keeps e) {die cluster core eng f} : d.Keeps (foreignTileRunEff die cluster core eng f e) :=
  .ite h (by
      split
      · exact .ite h.intoArray h
      · exact .foreignTile (.ite h.intoArray h))
theorem vuGroupDoneEff (h : d.Keeps e) {die cluster core group fail} : d.Keeps (vuGroupDoneEff die cluster core group fail e) := by
  unfold Machine.vuGroupDoneEff
  dsimp only
  split
  · exact h
  · exact .ite h (.ite (.ite h.walkFailed.stopDrained h) (.ite (by
        split
        · exact h
        · exact h.writeGroup.updAct.stopDrained) (.ite h.failCount.updAct.stopDrained h.failCount.markSuspect.coreLevel.stopDrained)))
theorem sliceCompleteEff (h : d.Keeps e) {die cluster core} : d.Keeps (sliceCompleteEff die cluster core e) := by
  unfold Machine.sliceCompleteEff
  dsimp only
  split
  · exact h
  · split
    · exact h.nextSlice.leaveHeld
    · exact .leaveHeld (.nextSlice (.ite (.setCore (.ite h.updInst h)) (.ite h.updInst h)))
theorem ladderConvertDoneEff (h : d.Keeps e) {ctx newer task mb} : d.Keeps (ladderConvertDoneEff ctx newer task mb e) := by
  unfold Machine.ladderConvertDoneEff
  split
  · exact h
  · exact .ite h (.ite h.updStep.updCtx.updCtx.cause h.updStep.updCtx)
theorem copyDoneEff (h : d.Keeps e) {ctx newer task mb} : d.Keeps (copyDoneEff ctx newer task mb e) := by
  unfold Machine.copyDoneEff
  split
  · exact h
  · exact .ite h (by
        dsimp only
        split
        · exact .ite h.firstWrite (.updInst (.foldl h.firstWrite.putOut.putOut fun _ _ h => h.deepWrites))
        · exact h)
theorem collectiveCompleteEff (h : d.Keeps e) {ctx newer task mb} : d.Keeps (collectiveCompleteEff ctx newer task mb e) := by
  unfold Machine.collectiveCompleteEff
  split
  · split
    · exact .ite h.updInst h
    · exact h
  · exact h
theorem gatherReport (h : d.Keeps e) {w b} : d.Keeps (e.gatherReport w b) := .ite h h.reportTo
theorem reportPos (h : d.Keeps e) {w} : d.Keeps (e.reportPos w) := h.reportNf
theorem unpin (h : d.Keeps e) {c newer run mb} : d.Keeps (e.unpin c newer run mb) := by
  unfold Dev.unpin
  split
  · exact h
  · exact h.updCtx.updStep
theorem instanceCompleteEff (h : d.Keeps e) {ctx newer task mb since} :
    d.Keeps (Machine.instanceCompleteEff ctx newer task mb since e) := by
  unfold Machine.instanceCompleteEff
  extract_lets d0
  have h0 : d.Keeps d0 := h.noteReady
  split
  · extract_lets d1 d2 d3 d4 d5 run5 d7 d8 pools d9 d10 d11
    have h1 : d.Keeps d1 := .ite h0.storeStats h0
    have h3 : d.Keeps d3 := .closeWindows (.dropSnaps (.reportPos (.foldl h1 fun _ _ h => h.gatherReport)))
    have h5 : d.Keeps d5 := .updStep (.update h3)
    have h7 : d.Keeps d7 := .ite h5.releaseStage h5
    have h8 : d.Keeps d8 := .ite h7.unpin h7
    have h9 : d.Keeps d9 := .reapFreeing (.foldl h8 fun _ _ h => h.cfgPool)
    have h10 : d.Keeps d10 := .ite h9.postClip h9
    have h11 : d.Keeps d11 := .noteReady (.ite h10.refreshHubSource h10)
    exact .ite h0 (.ite h11 h11.sealStep)
  · exact h0
theorem attemptDrainedEff (h : d.Keeps e) {ctx newer} : d.Keeps (attemptDrainedEff ctx newer e) := h.drained
theorem stepTimeoutEff (h : d.Keeps e) {ctx newer} : d.Keeps (stepTimeoutEff ctx newer e) := by
  unfold Machine.stepTimeoutEff
  split
  · exact .ite h.declare h
  · exact h
theorem guardRecord (h : d.Keeps e) {g unit a ctx} : d.Keeps (e.guardRecord g unit a ctx) := h.record
theorem hubAccessFaultEff (h : d.Keeps e) {half core dpa kind} : d.Keeps (hubAccessFaultEff half core dpa kind e) :=
  .ite h (.hubTrap (by
      split
      · exact h.guardRecord
      · exact h))
theorem guardedStoreEff (h : d.Keeps e) {w dpa data} : d.Keeps (guardedStoreEff w dpa data e) := by
  unfold Machine.guardedStoreEff
  split
  · exact .ite h (by
        split
        · exact h.guardRecord.hubTrap
        · exact .ite h.hubTrap (.ite h (.ite h.deepAsk h.writeMem)))
  · split
    · exact h.guardRecord
    · exact h
theorem makeRoom (h : d.Keeps e) {half ok} : d.Keeps (e.makeRoom half ok).1 :=
  .ite_fst h.mk_fst (by
      split
      · exact h.mk_fst
      · exact .mk_fst (.ite (.evictExtEnd (.update h.evictExt)) h.evictExt))
theorem hubEvictedAccessEff (h : d.Keeps e) {half core dpa kind deepOk} : d.Keeps (hubEvictedAccessEff half core dpa kind deepOk e) :=
  .ite h (.ite h (by
      split
      · exact h.hubTrap
      · exact .ite h.hubTrap (.ite h.makeRoom.hubTrap (.ite (.fetchExt (.update h.makeRoom.fetchExts)) (.hubTrap (.fetchExtFail (.update h.makeRoom.fetchExts)))))))
theorem kvPortEnd (h : d.Keeps e) {half core st free gen} : d.Keeps (e.kvPortEnd half core st free gen) := h.setHub
theorem kvPortRun (h : d.Keeps e) {half core op since} : d.Keeps (e.kvPortRun half core op since) :=
  .ite h.kvPortEnd (.ite h.setHub (.ite h.kvSwap.kvPortEnd h.kvSet.kvPortEnd))
theorem kvPortStart (h : d.Keeps e) {half core op} : d.Keeps (e.kvPortStart half core op) :=
  .ite h (by
      split
      · exact h.setHub
      · exact .kvPortRun (.update h.setHub))
theorem retryPorts (h : d.Keeps e) : d.Keeps (e.retryPorts) := .foldl h fun _ _ h => h.kvPortRun
theorem kvPortOpDoneEff (h : d.Keeps e) {half core} : d.Keeps (kvPortOpDoneEff half core e) := by
  unfold Machine.kvPortOpDoneEff
  dsimp only
  split
  · exact .ite h h.kvPortRun
  · exact .setHub (.ite h h.kvPortRun)
theorem hubDoneWriteEff (h : d.Keeps e) {half core value} : d.Keeps (hubDoneWriteEff half core value e) := by
  unfold Machine.hubDoneWriteEff
  dsimp only
  split
  · exact h
  · split
    · exact h.setHub
    · exact .ite h.setHub (.ite h.setHub.updInst h.setHub.cause)
theorem dbcWrite (h : d.Keeps e) {w half value act off} (ha : ∀ n e, d.Keeps e → d.Keeps (act n e)) :
    d.Keeps (e.dbcWrite w half value act off) := by
  unfold Dev.dbcWrite
  split
  · exact .ite (.ite h.hubTrap h) (.ite h (.ite (ha _ _ h) h.dbcRefuse))
  · exact .ite (ha _ _ h) h
  · exact h
theorem updSource (h : d.Keeps e) {half s f} : d.Keeps (e.updSource half s f) := h.setSource
theorem dbcDoorbellEff (h : d.Keeps e) {w half value} : d.Keeps (dbcDoorbellEff w half value e) :=
  .dbcWrite h fun _ _ h => h.ring!
theorem dbcMaskSetEff (h : d.Keeps e) {w half value} : d.Keeps (dbcMaskSetEff w half value e) :=
  .dbcWrite h fun _ _ h => h.updSource
theorem dbcMaskClrEff (h : d.Keeps e) {w half value} : d.Keeps (dbcMaskClrEff w half value e) :=
  .dbcWrite h fun _ _ h => h.updSource
theorem dbcPendSetEff (h : d.Keeps e) {w half value} : d.Keeps (dbcPendSetEff w half value e) :=
  .dbcWrite h fun _ _ h => h.ring!
theorem dbcPendClrEff (h : d.Keeps e) {w half value} : d.Keeps (dbcPendClrEff w half value e) :=
  .dbcWrite h fun _ _ h => .ite h.updSource h
theorem dbcEoiEff (h : d.Keeps e) {half target value} : d.Keeps (dbcEoiEff half target value e) := .ite h h.eoi
theorem doorbellDispatchEff (h : d.Keeps e) {half} : d.Keeps (doorbellDispatchEff half e) := .ite h.dispatch h
theorem msixWrite (h : d.Keeps e) {ix value} : d.Keeps (e.msixWrite ix value) :=
  .ite (.emit (.updateHost (.updateHost h))) (.updateHost h)
theorem settleHost (h : d.Keeps e) : d.Keeps (e.settleHost) := .ite h (.ite h.hostState (.hostState (.updateHost h)))
theorem flushRing (h : d.Keeps e) {s n} : d.Keeps (Dev.flushRing s n e) := by
  induction n generalizing e with
  | zero => exact h
  | succ n ih =>
    unfold Dev.flushRing
    dsimp only
    split
    · exact h
    · exact .ite h (ih h.storeHost.setRing.fire)
theorem postCpl (h : d.Keeps e) {s c} : d.Keeps (e.postCpl s c) := h.setRing.flushRing
theorem ringCtl (h : d.Keeps e) {s value} : d.Keeps (e.ringCtl s value) :=
  .ite h.setRing (.ite h.setRing (.ite h h.setRing.flushRing))
theorem evtCtl (h : d.Keeps e) {value} : d.Keeps (e.evtCtl value) :=
  .ite (.updateHost h) (.ite (.updateHost h) (.ite h (.updateHost h)))
theorem ringWrite (h : d.Keeps e) {s o v} : d.Keeps (e.ringWrite s o v) := by
  unfold Dev.ringWrite
  dsimp only
  split
  · exact h.setRing
  · exact h.setRing
  · exact h.setRing
  · exact h.setRing
  · exact h.setRing
  · exact h.ringCtl
  · exact h.setRing
  · exact h.setRing.flushRing
  · exact h
theorem evtWrite (h : d.Keeps e) {o v} : d.Keeps (e.evtWrite o v) := by
  unfold Dev.evtWrite
  dsimp only
  split
  · exact .updateHost h
  · exact .updateHost h
  · exact .updateHost h
  · exact .updateHost h
  · exact .updateHost h
  · exact .updateHost h
  · exact h.evtCtl
  · exact h
theorem loadBit (h : d.Keeps e) {i} : d.Keeps (e.loadBit i) := .updateHost h
theorem loadStartEff (h : d.Keeps e) : d.Keeps (loadStartEff e) := .ite h (.ite h.loadBit.hostState h.loadBit)
theorem loadGoEff (h : d.Keeps e) : d.Keeps (loadGoEff e) := .ite h (.ite h.loadBit.hostState h.loadBit)
theorem loadAbortEff (h : d.Keeps e) : d.Keeps (loadAbortEff e) := .ite h (.ite h.loadBit.hostState h.loadBit)
theorem loadWrite (h : d.Keeps e) {v} : d.Keeps (e.loadWrite v) :=
  .ite (.loadAbortEff (.ite (.loadGoEff (.ite h.loadStartEff h)) (.ite h.loadStartEff h))) (.ite (.loadGoEff (.ite h.loadStartEff h)) (.ite h.loadStartEff h))
theorem hostHeartbeatWriteEff (h : d.Keeps e) {value} : d.Keeps (hostHeartbeatWriteEff value e) := .ite h (.updateHost h)
theorem bar0Write (h : d.Keeps e) {off v} : d.Keeps (e.bar0Write off v) :=
  .ite h (.ite h.ringWrite (.ite h.evtWrite (.ite h.msixWrite (by
      split
      · exact h.loadWrite
      · exact .updateHost h
      · exact .updateHost h
      · exact h.hostHeartbeatWriteEff
      · exact .updateHost h
      · exact .updateHost h
      · exact .updateHost h
      · exact h))))
theorem hifBellReadEff (h : d.Keeps e) : d.Keeps (hifBellReadEff e) := .ite h (.emit (.updateHost h))
theorem evtPut (h : d.Keeps e) {r} : d.Keeps (e.evtPut r) := .fire (.updateHost h.storeHost.storeHost)
theorem eventDeliverEff (h : d.Keeps e) : d.Keeps (eventDeliverEff e) :=
  .ite h (.ite (by
      dsimp only
      split
      · exact .evtPut (.updateHost (.record (.updateHost h)))
      · exact .updateHost (.record (.updateHost h))) (by
      split
      · exact h
      · exact .evtPut (.updateHost h)))
theorem winFault (h : d.Keeps e) : d.Keeps (e.winFault) := h.rcAdd
theorem bar2ReadEff (h : d.Keeps e) {off n} : d.Keeps (bar2ReadEff off n e) :=
  .ite h (.ite h.emit (.ite h.emit (.ite h.winFault.emit (.ite h.emit h.emit))))
theorem bar2WriteEff (h : d.Keeps e) {off data} : d.Keeps (bar2WriteEff off data e) := by
  unfold Machine.bar2WriteEff
  have hs : d.Keeps { e with host := { e.host with staging := e.host.staging.writeBytes off data } } :=
    h.change (hg := fun w => Memory.wf_writeBytes _ _ _ w)
  refine .ite h (.ite (.ite hs h) (.ite h (.ite h.winFault ?_)))
  split
  · exact h.guardRecord
  · exact h.writeMem
theorem hostHeartbeatLostEff (h : d.Keeps e) : d.Keeps (hostHeartbeatLostEff e) := .ite h.orphanAll h
theorem linkTrain (h : d.Keeps e) {bad} : d.Keeps (e.linkTrain bad) := .ite (.updateHost h) (.emit (.updateHost h))
theorem hostWavelengthLossEff (h : d.Keeps e) {lam} : d.Keeps (hostWavelengthLossEff lam e) :=
  .ite h (.ite h.linkTrain (.updateHost h))
theorem holdRow (h : d.Keeps e) {c w} : d.Keeps (e.holdRow c w) := .ite h.updCtx h
theorem sendRows (h : d.Keeps e) {c half s pick} : d.Keeps (e.sendRows c half s pick) := .foldl h fun _ _ h => h.emit
theorem ownUnits (h : d.Keeps e) {c} : d.Keeps (e.ownUnits c) := by
  unfold Dev.ownUnits
  exact h.updCtx
theorem upkeep (h : d.Keeps e) {c step counts rows} : d.Keeps (e.upkeep c step counts rows) :=
  .foldl (.foldl h.updCtx fun _ _ h => h.sendRows) fun _ _ h => h.holdRow
theorem rebuildFor (h : d.Keeps e) {c} : d.Keeps (e.rebuildFor c) := .foldl h fun _ _ h => h.sendRows
theorem refuse (h : d.Keeps e) {st} : d.Keeps (e.refuse st).dev := h.mk_dev
theorem done (h : d.Keeps e) {ws} : d.Keeps (e.done ws).dev := h.mk_dev
theorem wait (h : d.Keeps e) {note} : d.Keeps (e.wait note).dev := h.mk_dev
theorem take (h : d.Keeps e) {h'} : d.Keeps (e.take h') := h.setRing
theorem answer (h : d.Keeps e) {h' rescanned st ws} : d.Keeps (e.answer h' rescanned st ws) := h.postCpl
theorem enqueue (h : d.Keeps e) {h' cmd note} : d.Keeps (e.enqueue h' cmd note) := .updateHost h
theorem serve (h : d.Keeps e) {hd cmd k act} (ha : ∀ e, d.Keeps e → d.Keeps (act e).dev) : d.Keeps (e.serve hd cmd k act) := by
  unfold Dev.serve
  refine .ite h ?_
  dsimp only
  have hr := ha _ (h.take (h' := hd))
  split
  · exact h.take.answer
  · exact .ite hr (.ite hr.enqueue hr.answer)
theorem again (h : d.Keeps e) {x act} (ha : ∀ e, d.Keeps e → d.Keeps (act e).dev) : d.Keeps (e.again x act) := by
  have hr := ha e h
  have h1 : d.Keeps { (act e).dev with
      host := { (act e).dev.host with inflight := (act e).dev.host.inflight.filter (fun y => y.id ≠ x.id) } } := hr.frame
  exact .ite h (.ite hr (.ite h1 h1.answer))
theorem opcodeInvalidEff (h : d.Keeps e) {h' opcode} : d.Keeps (opcodeInvalidEff h' opcode e) := .ite h h.take.answer
theorem graphLoad (h : d.Keeps e) {c image} : d.Keeps (e.graphLoad c image).dev := by
  unfold Dev.graphLoad
  split
  · exact h.refuse
  · exact h.updCtx.done
theorem graphUnload (h : d.Keeps e) {c gid} : d.Keeps (e.graphUnload c gid).dev :=
  .ite_dev h.refuse (.ite_dev h.refuse h.updCtx.done)
theorem stepSubmit (h : d.Keeps e) {c p} : d.Keeps (e.stepSubmit c p).dev :=
  .ite_dev h.done (.ite_dev h.refuse (by
      split
      · exact h.refuse
      · exact .ite_dev h.refuse (.ite_dev h.refuse (.ite_dev h.refuse (.ite_dev h.refuse h.updCtx.done)))))
theorem stepAbortAgain (h : d.Keeps e) {c step} : d.Keeps (e.stepAbortAgain c step).dev :=
  .ite_dev h.wait (by
      split
      · exact h.done
      · exact h.refuse)
theorem stepAbort (h : d.Keeps e) {c step} : d.Keeps (e.stepAbort c step).dev := by
  unfold Dev.stepAbort
  dsimp only
  split
  · exact .ite_dev (.ite_dev h.endStep.stepAbortAgain (.ite_dev h.refuse h.declare.stepAbortAgain)) (by
        split
        · exact .ite_dev (.ite_dev h.endStep.stepAbortAgain (.ite_dev h.refuse h.declare.stepAbortAgain)) h.refuse
        · exact h.refuse)
  · exact h.refuse
theorem stepQuery (h : d.Keeps e) {c} : d.Keeps (e.stepQuery c).dev := h.done
theorem reply {r : MemRes} {ws} (h : d.Keeps r.dev) : d.Keeps (r.reply ws).dev := by
  cases r with
  | ends st v d => exact .ite_dev h h
  | waits d => exact h
theorem memAllocCmd (h : d.Keeps e) {c bytes half hint flags id note} :
    d.Keeps (e.memAllocCmd c bytes half hint flags id note).dev := .ite_dev h (.reply h.memAlloc)
theorem memFreeCmd (h : d.Keeps e) {c dpa} : d.Keeps (e.memFreeCmd c dpa).dev := by
  unfold Dev.memFreeCmd
  split
  · exact h.refuse
  · exact .done (.foldl h fun _ _ h => h.memFree)
theorem setHint (h : d.Keeps e) {l hint} : d.Keeps (e.setHint l hint) := .update h
theorem hintPin (h : d.Keeps e) {c l id note} : d.Keeps (e.hintPin c l id note).dev :=
  .ite_dev h.setHint.done (.ite_dev h.refuse (.ite_dev h.fetchFor.refuse h.fetchFor.wait))
theorem hintDeep (h : d.Keeps e) {c l id note} : d.Keeps (e.hintDeep c l id note).dev :=
  .ite_dev h.setHint.done (.ite_dev h.refuse (.ite_dev h.wait (.ite_dev h.refuse (.ite_dev h.refuse (.wait (.foldl h fun _ _ h => h.evictExt))))))
theorem memHintCmd (h : d.Keeps e) {c dpa hint id note} : d.Keeps (e.memHintCmd c dpa hint id note).dev := by
  unfold Dev.memHintCmd
  split
  · exact h.refuse
  · exact .ite_dev (.ite_dev h.done h.refuse) (.ite_dev h.hintPin (.ite_dev h.setHint.done (.ite_dev h.hintDeep h.refuse)))
theorem memQuotaCmd (h : d.Keeps e) {set c half hbm deep id note} :
    d.Keeps (e.memQuotaCmd set c half hbm deep id note).dev := .ite_dev h (.ite_dev h (.reply h.memQuota))
theorem memQueryCmd (h : d.Keeps e) {set c} : d.Keeps (e.memQueryCmd set c).dev := .ite_dev h.refuse h.done
theorem memAssignCmd (h : d.Keeps e) {c kind op half first count} : d.Keeps (e.memAssignCmd c kind op half first count).dev :=
  .ite_dev h.memAssign.done h.refuse
theorem createGuard (h : d.Keeps e) {c a r} (he : e.createGuard c a = some r) : d.Keeps r.dev := by
  simp only [Dev.createGuard, Option.map_eq_some_iff] at he
  obtain ⟨g, -, rfl⟩ := he
  exact h.guardRecord
theorem kvCreateCmd (h : d.Keeps e) {c a pt stats entries initLen pool hq flags} :
    d.Keeps (e.kvCreateCmd c a pt stats entries initLen pool hq flags).dev := by
  unfold Dev.kvCreateCmd
  refine .ite_dev h ?_
  split
  next r he => exact h.createGuard he
  next =>
    refine .ite_dev h ?_
    split
    · exact .ite_dev h (.update h.putSeq.shareTable)
    · exact h
theorem kvSwapCmd (h : d.Keeps e) {c a pt entries expGen since} : d.Keeps (e.kvSwapCmd c a pt entries expGen since).dev :=
  .ite_dev h.refuse (.ite_dev h.wait (.ite_dev h.refuse (.ite_dev h.kvSwap.done h.refuse)))
theorem kvSetCmd (h : d.Keeps e) {c a index e' expGen since} : d.Keeps (e.kvSetCmd c a index e' expGen since).dev :=
  .ite_dev h.refuse (.ite_dev h.wait (.ite_dev h.kvSet.done h.refuse))
theorem kvReleaseCmd (h : d.Keeps e) {c a expGen since} : d.Keeps (e.kvReleaseCmd c a expGen since).dev :=
  .ite_dev h.refuse (.ite_dev h.wait (.ite_dev h.kvRelease.done h.refuse))
theorem kvQueryCmd (h : d.Keeps e) {c a} : d.Keeps (e.kvQueryCmd c a).dev := .ite_dev h.refuse h.done
theorem closeCtx (h : d.Keeps e) {c} : d.Keeps (e.closeCtx c) :=
  .update (.foldl (.foldl h fun _ _ h => h.unshareTable) fun _ _ h => h.dropAlloc)
theorem startClose (h : d.Keeps e) {c} : d.Keeps (e.startClose c) := h.leaveJob.maskSources.updCtx
theorem reapClosing (h : d.Keeps e) : d.Keeps (e.reapClosing) := by
  unfold Dev.reapClosing
  extract_lets d1
  have h1 : d.Keeps d1 := .upto h fun c e h => by
    have h2 : d.Keeps (match (e.ctx c).older with
        | some r => if (e.ctx c).closing && !(e.ctx c).bound && r.state = 1 then e.endStep c false St.stepAborted else e
        | none => e) := by
      split
      · exact .ite h.endStep h
      · exact h
    exact .ite h2.closeCtx h2
  clear_value d1
  exact .ite h h1.settleHost
theorem unbind (h : d.Keeps e) {c} : d.Keeps (e.unbind c) := by
  unfold Dev.unbind
  have h1 := h.updCtx (c := c)
    (f := fun x => { x with bound := false, leaving := false, job := 0, logical := 0, groups := [], relief := {} })
  exact .ite h1 (.ite (h1.change (hf := fun _ => (by decide : 3 ≤ 6))) (.ite h1.detach h1))
theorem deviceReset (h : d.Keeps e) : d.Keeps (e.deviceReset) := by
  unfold Dev.deviceReset
  refine .hostState (.hwLimits ?_)
  exact h.change (hg := fun _ => rfl) (hf := fun _ => Nat.zero_le 6)
theorem sessHello (h : d.Keeps e) {set verMin verMax grace} : d.Keeps (e.sessHello set verMin verMax grace).dev :=
  .ite_dev h.refuse (.ite_dev h.refuse (.ite_dev h.refuse (.done (.hostState (.updateHost h.setRing)))))
theorem endSession (h : d.Keeps e) {set} : d.Keeps (e.endSession set) := h.setRing.settleHost
theorem leaveSession (h : d.Keeps e) {set} : d.Keeps (e.leaveSession set) := .foldl h fun _ _ h => h.startClose
theorem sessBye (h : d.Keeps e) {set mode} : d.Keeps (e.sessBye set mode).dev := by
  unfold Dev.sessBye
  extract_lets l d1 host d2 d3
  have h2 : d.Keeps d2 := .updateHost (.foldl h fun _ _ h => h.orphanCtx)
  have h3 : d.Keeps d3 := h.leaveSession.reapClosing
  refine .ite_dev (.ite_dev h.endSession.done h.refuse) (.ite_dev (.ite_dev h2.endSession.done ?_) (.ite_dev h3.endSession.done h3.wait))
  exact h2.startGrace.endSession.stick.record.done
theorem sessByeAgain (h : d.Keeps e) {set note} : d.Keeps (e.sessByeAgain set note).dev := .ite_dev h.endSession.done h.wait
theorem sessAdopt (h : d.Keeps e) {set c token} : d.Keeps (e.sessAdopt set c token).dev :=
  .ite_dev h.refuse (.done (.ite h.updCtx (.fire (.updateHost h.updCtx))))
theorem sessReset (h : d.Keeps e) {h' level force} : d.Keeps (e.sessReset h' level force).dev := by
  unfold Dev.sessReset
  extract_lets set d1
  have h1 : d.Keeps d1 := h.leaveSession.reapClosing
  exact .ite_dev (.ite_dev h.refuse (.ite_dev h1.endSession.done h1.wait)) (.ite_dev h.answer.deviceReset.mk_dev
    (.ite_dev h.leaveAll.wait h.refuse))
theorem sessResetAgain (h : d.Keeps e) {x level} : d.Keeps (e.sessResetAgain x level).dev :=
  .ite_dev (.ite_dev h.endSession.done h.wait) (.ite_dev h.wait (.mk_dev (.deviceReset (.ite h h.answer))))
theorem sessSpdm (h : d.Keeps e) {req reqBytes rsp rspMax} : d.Keeps (e.sessSpdm req reqBytes rsp rspMax).dev :=
  .ite_dev h.refuse (.ite_dev (.refuse (.update h)) (.done (.storeHost (.update h))))
theorem ctxOpen (h : d.Keeps e) {set} : d.Keeps (e.ctxOpen set).dev := by
  unfold Dev.ctxOpen
  split
  · exact h.refuse
  · exact h.drawn.setCtx.initSources.done
theorem ctxClose (h : d.Keeps e) {c} : d.Keeps (e.ctxClose c).dev :=
  .ite_dev h.refuse (.ite_dev h.startClose.closeCtx.settleHost.done h.startClose.wait)
theorem ctxCloseAgain (h : d.Keeps e) {c} : d.Keeps (e.ctxCloseAgain c).dev := .ite_dev h.wait h.done
theorem snapshotTo (h : d.Keeps e) {c buf room} : d.Keeps (e.snapshotTo c buf room).dev := h.storeHost.done
theorem ctxSnapshot (h : d.Keeps e) {c buf room} : d.Keeps (e.ctxSnapshot c buf room).dev := .ite_dev h.snapshotTo h.wait
theorem ctxSnapshotAgain (h : d.Keeps e) {c buf room note} : d.Keeps (e.ctxSnapshotAgain c buf room note).dev :=
  .ite_dev h.snapshotTo h.wait
theorem ctxQuery (h : d.Keeps e) {set c} : d.Keeps (e.ctxQuery set c).dev := h.done
theorem restoreAllocs (h : d.Keeps e) {c rd bytes} : d.Keeps (e.restoreAllocs c rd bytes).dev := by
  unfold Dev.restoreAllocs
  extract_lets x d0 l d1 d2 o d3 d4
  have h0 : d.Keeps d0 := h.closeCtx.setCtx
  have h2 : d.Keeps d2 := .foldl (.update h0) fun _ _ h => h.setExtent
  have h3 : d.Keeps d3 := .ite h2 h2.updCtx
  have h4 : d.Keeps d4 := .foldl h3 fun _ _ h => .foldl (.foldl h fun _ _ h => h.assignOne) fun _ _ h => h.assignOne
  exact .ite_dev h.refuse (.ite_dev h.refuse (.ite_dev h.refuse h4.done))
theorem restoreGraphs (h : d.Keeps e) {c gs} : d.Keeps (e.restoreGraphs c gs).2 := by
  induction gs generalizing e with
  | nil => exact h
  | cons g gs ih =>
    unfold Dev.restoreGraphs
    split
    · exact h
    · exact ih h.updCtx
theorem startHubCode (h : d.Keeps e) {c half} : d.Keeps (e.startHubCode c half) :=
  .ite h (.ring! (.foldl h fun _ _ h => h.setHub))
theorem restoreSections (h : d.Keeps e) {c rd bytes} : d.Keeps (e.restoreSections c rd bytes).dev := by
  unfold Dev.restoreSections
  extract_lets x d1 d2 r d3 d4
  have h1 : d.Keeps d1 := .foldl h fun _ _ h => .ite h.takeGroups.takeSlots.takeKv h
  have h2 : d.Keeps d2 := h1.takeUpdate.takeFabric.updCtx
  have h4 : d.Keeps d4 := .upto (.initSources h2.restoreGraphs) fun _ _ h => h.startHubCode
  exact .ite_dev h.refuse (.ite_dev h.refuse (.ite_dev h.refuse (.ite_dev h.refuse h4.done)))
theorem ctxRestore (h : d.Keeps e) {c buf bytes phase} : d.Keeps (e.ctxRestore c buf bytes phase).dev :=
  .ite_dev h.restoreAllocs h.restoreSections
theorem orphanGraceExpiryEff (h : d.Keeps e) : d.Keeps (orphanGraceExpiryEff e) :=
  .ite h (.settleHost (.reapClosing (.foldl h fun _ _ h => h.startClose)))
theorem updRelief (h : d.Keeps e) {c f} : d.Keeps (e.updRelief c f) := h.updCtx
theorem reliefRecord (h : d.Keeps e) {c st about} : d.Keeps (e.reliefRecord c st about) := h.record
theorem failRelief (h : d.Keeps e) {c about} : d.Keeps (e.failRelief c about) := by
  unfold Dev.failRelief
  exact h.stick.reliefRecord.endStep.endStep.updRelief
theorem failJob (h : d.Keeps e) {c about} : d.Keeps (e.failJob c about) := h.tellJob.failRelief
theorem rollBack (h : d.Keeps e) {c} : d.Keeps (e.rollBack c) := by
  unfold Dev.rollBack
  dsimp only
  split
  · exact h.failRelief
  · exact .ite h.failRelief (.reliefRecord (.updCtx (.takeUpdate (.foldl (by
        split
        · exact h.unstart.kvAbandon.dropWork.leaveStep
        · exact h.unstart.kvAbandon.dropWork) fun _ _ h => .ite h.takeGroups.takeSlots.takeKv h))))
theorem unsealStep (h : d.Keeps e) {c st} : d.Keeps (e.unseal c st) := by
  unfold Dev.unseal
  split
  · exact .ite h.updStep.updCtx.unstart h
  · exact h
theorem holdSteps (h : d.Keeps e) {c} : d.Keeps (e.holdSteps c) := by
  unfold Dev.holdSteps
  split
  · exact h
  · exact .reduceAbandon (.unstart (.updStep (.ite h.unsealStep (.ite h.declare h))))
theorem noticeCtx (h : d.Keeps e) {c l} : d.Keeps (e.noticeCtx c l) := by
  unfold Dev.noticeCtx
  extract_lets x r d1 beyond d2 d3
  have h1 : d.Keeps d1 := .ite h.updCtx.settleLeaving h
  have h3 : d.Keeps d3 := h1.updRelief.reliefRecord.holdSteps
  exact .ite h (.ite h1.failRelief (.ite h1.updRelief (.ite h3.tellJob.rollBack h3)))
theorem claimNext (h : d.Keeps e) {c} : d.Keeps (e.claimNext c) := by
  unfold Dev.claimNext
  dsimp only
  split
  · exact h.failJob
  · exact h.emit
theorem nextSpare (h : d.Keeps e) {c p} : d.Keeps (e.nextSpare c p) := h.updRelief.claimNext
theorem takeLead (h : d.Keeps e) {c l} : d.Keeps (e.takeLead c l) := h.updRelief.claimNext
theorem startRelief (h : d.Keeps e) {l} : d.Keeps (e.startRelief l) :=
  .foldl h fun _ _ h => .ite h (.ite (by
      split
      · exact .ite h.nextSpare h
      · exact h) (.ite h (.ite (.takeLead (.foldl h.tellJob fun _ _ h => h.noticeCtx)) (.foldl h.tellJob fun _ _ h => h.noticeCtx))))
theorem deviceOut (h : d.Keeps e) {phys} : d.Keeps (e.deviceOut phys) := .foldl h fun _ _ h => h.startRelief
theorem stageRemap (h : d.Keeps e) {l phys bell} : d.Keeps (e.stageRemap l phys bell) := .updateFab h
theorem relieve (h : d.Keeps e) {c} : d.Keeps (e.relieve c) :=
  .ite h.endStep.endStep.stick.reliefRecord.unbind.startClose h.endStep.endStep.stick.reliefRecord.unbind
theorem remapSwitch (h : d.Keeps e) : d.Keeps (e.remapSwitch) :=
  .ite h (.foldl (.foldl (.updateFab h) fun _ _ h => h.rebuildFor) fun _ _ h => h.relieve)
theorem nameResume (h : d.Keeps e) {c l bell} : d.Keeps (e.nameResume c l bell) :=
  .ite h (by
      split
      · exact h.updRelief.takeLead
      · exact h.updRelief)
theorem resumeDue (h : d.Keeps e) {c} : d.Keeps (e.resumeDue c) :=
  .ite h (.updStep (.updStep (.updRelief (.foldl h fun _ _ h => h.reliefRecord))))
theorem reliefNoticeEff (h : d.Keeps e) {job l} : d.Keeps (reliefNoticeEff job l e) :=
  .foldl h fun _ _ h => .ite h (by
      split
      · exact .ite h.nextSpare h.noticeCtx
      · exact h.noticeCtx)
theorem leaveNoticeEff (h : d.Keeps e) {job l} : d.Keeps (leaveNoticeEff job l e) := .ite h.startRelief h
theorem digestNoticeEff (h : d.Keeps e) {src cseq} : d.Keeps (digestNoticeEff src cseq e) :=
  .ite (.markSuspect (.record (.stick (.updateFab h)))) (.ite (.leaveAll (.record (.stick (.updateFab h)))) (.record (.stick (.updateFab h))))
theorem spareClaimEff (h : d.Keeps e) {lead job l} : d.Keeps (spareClaimEff lead job l e) :=
  .ite (.emit (.updateFab h)) h.emit
theorem spareClaimTimeoutEff (h : d.Keeps e) {c} : d.Keeps (spareClaimTimeoutEff c e) := by
  unfold Machine.spareClaimTimeoutEff
  dsimp only
  split
  · exact .ite h.nextSpare h
  · exact h
theorem spareClaimAnswerEff (h : d.Keeps e) {c phys accepted} : d.Keeps (spareClaimAnswerEff c phys accepted e) := by
  unfold Machine.spareClaimAnswerEff
  dsimp only
  split
  · exact h
  · exact .ite h (.ite h.nextSpare (.ite h h.updRelief.stageRemap.tellJob.emit))
theorem spareReadyEff (h : d.Keeps e) {c} : d.Keeps (spareReadyEff c e) := by
  unfold Machine.spareReadyEff
  dsimp only
  split
  · exact .ite h (.foldl h.drawn.tellJob.emit fun _ _ h => h.nameResume)
  · exact h
theorem reliefLeadTimeoutEff (h : d.Keeps e) {c newLead} : d.Keeps (reliefLeadTimeoutEff c newLead e) := by
  unfold Machine.reliefLeadTimeoutEff
  dsimp only
  split
  · exact h
  · exact .ite h (.ite h.takeLead h.updRelief)
theorem restoreSpare (h : d.Keeps e) {l dpa rows} : d.Keeps (e.restoreSpare l dpa rows).2 := by
  unfold Dev.restoreSpare
  dsimp only
  split
  · exact h.mk_snd
  · exact .ite_snd h.mk_snd (.ite_snd h.mk_snd (.ite_snd h.mk_snd (.mk_snd (.foldl h.setCtx.drawn.restoreAllocs.restoreSections.updCtx.ownUnits fun _ _ h => h.holdRow))))
theorem reliefRebuildDoneEff (h : d.Keeps e) {job l units rows snapshots} :
    d.Keeps (reliefRebuildDoneEff job l units rows snapshots e) := by
  have hf : d.Keeps (units.foldl (fun (d : Dev) u => d.writeMem u.dpa (u.data.take parityUnit)) { e with fab := { e.fab with claim := none } }) :=
    .foldl (.updateFab h) fun _ _ h => h.writeMem
  have hs : (units.foldl (fun (d : Dev) u => d.writeMem u.dpa (u.data.take parityUnit))
      { e with fab := { e.fab with claim := none } }).fab.state = e.fab.state := 
    foldl_fixes (fun d : Dev => d.fab.state) (f := fun d u => d.writeMem u.dpa (u.data.take parityUnit)) (fun _ _ => rfl) units _
  fun_cases Machine.reliefRebuildDoneEff with
  | case1 => exact h
  | case2 => exact h
  | case3 => exact hf.stick.record.emit
  | case4 => exact hf.emit
  | case5 =>
    rename_i r _
    have hr : d.Keeps r.2 := .foldl_snd (.updateFab hf hs.symm) fun _ _ h => .ite_snd h.restoreSpare h
    exact .emit (hr.change (hf := fun _ => (by decide : 5 ≤ 6)))
theorem parityUpkeepDoneEff (h : d.Keeps e) {c step ringOk counts rows} :
    d.Keeps (Machine.parityUpkeepDoneEff c step ringOk counts rows e) := by
  unfold Machine.parityUpkeepDoneEff
  extract_lets x r d1 both d2
  have h1 : d.Keeps d1 := .foldl h fun _ _ h => h.dropAlloc
  have h2 : d.Keeps d2 := h.upkeep.updRelief
  exact .ite h (.ite (.ite h h1.updRelief.reliefRecord) (.ite h2.updRelief (.ite h2.updRelief.reliefRecord h2)))
theorem reliefArm (h : d.Keeps e) {c ring spares snapExtents id note} :
    d.Keeps (e.reliefArm c ring spares snapExtents id note).dev := by
  have ha (e : Dev) (h : d.Keeps e) : d.Keeps (e.memAlloc (.cmd c id) c (snapExtents * 2 ^ 21) 0 2 true).dev := h.memAlloc
  fun_cases Dev.reliefArm
  case case5 he => exact of_memRes (ha _ h) he
  case case7 he _ _ he2 => exact .update (of_memRes (ha _ (of_memRes (ha _ h) he)) he2)
  case case9 he _ _ _ _ he2 _ _ => exact mk_dev (of_memRes (ha _ (of_memRes (ha _ h) he)) he2).updRelief.ownUnits
  all_goals exact h
theorem reliefSpare (h : d.Keeps e) {offer} : d.Keeps (e.reliefSpare offer).dev := by
  unfold Dev.reliefSpare
  exact .ite_dev h (.ite_dev (.ite h (h.change (hf := fun _ => (by decide : 4 ≤ 6))))
    (.ite_dev h (h.change (hf := fun _ => (by decide : 3 ≤ 6)))))
theorem reliefStart (h : d.Keeps e) {c l} : d.Keeps (e.reliefStart c l).dev :=
  .ite_dev h.refuse (.ite_dev h.refuse (.ite_dev (.refuse (.ite h.startRelief h.tellJob)) (.wait (.ite h.startRelief h.tellJob))))
theorem reliefStartAgain (h : d.Keeps e) {c l note} : d.Keeps (e.reliefStartAgain c l note).dev :=
  .ite_dev h.refuse (by
      split
      · exact .ite_dev h.done h.wait
      · split
        · exact .ite_dev h.done h.wait
        · exact h.wait)
theorem reliefQuery (h : d.Keeps e) {c} : d.Keeps (e.reliefQuery c).dev := h.done
theorem sendBell (h : d.Keeps e) {half tk hops} : d.Keeps (e.sendBell half tk hops) := .foldl h fun _ _ h => h.emit
theorem startBeat (h : d.Keeps e) : d.Keeps (e.startBeat) := .ite h.sendBell.sendBell h.sendBell
theorem sendHeartbeats (h : d.Keeps e) : d.Keeps (e.sendHeartbeats) := .updateFab (.foldl h fun _ _ h => h.emit)
theorem fabJoin (h : d.Keeps e) {p cls} : d.Keeps (e.fabJoin p cls).dev := by
  unfold Dev.fabJoin
  refine .ite_dev (.ite_dev (.ite_dev h h) h) (.ite_dev h (.ite_dev h ?_))
  extract_lets d1
  have h1 : d.Keeps d1 := .foldl h fun _ _ h => h.setPort
  exact h1.change (hf := fun _ => (by decide : 1 ≤ 6))
theorem fabJoinAgain (h : d.Keeps e) : d.Keeps (e.fabJoinAgain).dev := .ite_dev h.done (.ite_dev h.refuse h.wait)
theorem fabLeave (h : d.Keeps e) : d.Keeps (e.fabLeave).dev :=
  .ite_dev h.refuse (.ite_dev h.leaveAll.detach.done h.leaveAll.wait)
theorem fabLeaveAgain (h : d.Keeps e) {note} : d.Keeps (e.fabLeaveAgain note).dev := .ite_dev h.done h.wait
theorem fabBind (h : d.Keeps e) {c job logical group0 count} : d.Keeps (e.fabBind c job logical group0 count).dev := by
  unfold Dev.fabBind
  refine .ite_dev h (.ite_dev h ?_)
  split
  · exact h
  · refine .ite_dev h ?_
    extract_lets d1
    have h1 : d.Keeps d1 := h.updCtx
    clear_value d1
    exact Dev.Keeps.mk_dev (h1.change (hf := fun _ => (by decide : 5 ≤ 6)))
theorem fabGroup (h : d.Keeps e) {c group table} : d.Keeps (e.fabGroup c group table).dev :=
  .ite_dev h.refuse (.ite_dev h.refuse (.ite_dev h.refuse (.ite_dev h.refuse (by
      split
      · exact h.refuse
      · exact h.updCtx.done))))
theorem fabQuery (h : d.Keeps e) : d.Keeps (e.fabQuery).dev := h.done
theorem trainingCompleteEff (h : d.Keeps e) : d.Keeps (trainingCompleteEff e) := by
  unfold Machine.trainingCompleteEff
  extract_lets d1
  have h1 : d.Keeps d1 := .foldl h fun _ _ h => h.setPort.drawn
  exact .ite h (h1.change (hf := fun _ => (by decide : 2 ≤ 6)))
theorem joinFailed (h : d.Keeps e) : d.Keeps (e.joinFailed) := h.detach.record
theorem trainingTimeoutEff (h : d.Keeps e) : d.Keeps (trainingTimeoutEff e) := .ite h.joinFailed h
theorem bellLockEff (h : d.Keeps e) : d.Keeps (bellLockEff e) := .ite (h.change (hf := fun _ => (by decide : 3 ≤ 6))) h
theorem bellLockTimeoutEff (h : d.Keeps e) : d.Keeps (bellLockTimeoutEff e) := .ite h.joinFailed h
theorem leaveTimeoutEff (h : d.Keeps e) : d.Keeps (leaveTimeoutEff e) :=
  .ite (.reapClosing (.detach (.foldl h fun _ _ h => h.relieve))) h
theorem bellHoldoverEff (h : d.Keeps e) : d.Keeps (bellHoldoverEff e) :=
  .ite h (.record (.upto (.updateFab h) fun _ _ h => .ite h.rcAdd h))
theorem secondaryTimekeeperEff (h : d.Keeps e) : d.Keeps (secondaryTimekeeperEff e) := .ite h (.startBeat (.updateFab h))
theorem bellLostEff (h : d.Keeps e) : d.Keeps (bellLostEff e) :=
  .ite h (.ite (.detach (.record (.stick (.updateFab h)))) (.leaveAll (.record (.stick (.updateFab h)))))
theorem beatDue (h : d.Keeps e) : d.Keeps (e.beatDue) := .ite h (.ite h.startBeat (.updateFab h))
theorem heartbeatEff (h : d.Keeps e) {port w peerHalf crcOk} : d.Keeps (heartbeatEff port w peerHalf crcOk e) :=
  .ite h (.ite h.joinFailed (.ite (.deviceOut (.updateFab h.setPort)) (.updateFab h.setPort)))
theorem fabUnresponsiveEff (h : d.Keeps e) {phys} : d.Keeps (fabUnresponsiveEff phys e) :=
  .ite h (.deviceOut (.record (.updateFab (.foldl h fun _ _ h => h.setPort))))
theorem ackEff (h : d.Keeps e) {port seq} : d.Keeps (ackEff port seq e) := .ite h.ackPort h
theorem nakEff (h : d.Keeps e) {port seq} : d.Keeps (nakEff port seq e) := .ite h (.ite h.retirePort h.nakPort)
theorem creditEff (h : d.Keeps e) {port counts} : d.Keeps (creditEff port counts e) := .ite h.setPort.pumpPort h
theorem flitCrcFailEff (h : d.Keeps e) {port seq} : d.Keeps (flitCrcFailEff port seq e) :=
  .ite h (.ite h.rcAdd h.rcAdd.setPort.emit)
theorem portRetireEff (h : d.Keeps e) {port} : d.Keeps (portRetireEff port e) := h.retirePort
theorem wavelengthFailEff (h : d.Keeps e) {port lam} : d.Keeps (wavelengthFailEff port lam e) := h.loseWavelength
theorem linkTake (h : d.Keeps e) {port k} : d.Keeps (e.linkTake port k) := h.setPort.emit.emit
theorem arrive (h : d.Keeps e) {port type k data} : d.Keeps (e.arrive port type k data).1 :=
  .ite_fst h.mk_fst h.linkTake.receivePacket
theorem packetTo (h : d.Keeps e) {k c newer data p} : d.Keeps (e.packetTo k c newer data p) :=
  .ite (.updateFab h) (.ite h.stick.updCtx.cause h.takePart)
theorem packetIn (h : d.Keeps e) {k c newer m} : d.Keeps (e.packetIn k c newer m) := h.packetTo
theorem packetAcross (h : d.Keeps e) {k c newer data} : d.Keeps (e.packetAcross k c newer data) := .sendCrosscut (.update h)
theorem packetArrives (h : d.Keeps e) {port k data p} : d.Keeps (e.packetArrives port k data p) := by
  unfold Dev.packetArrives
  split
  · exact h
  · exact .ite h.packetTo (.ite h.packetAcross h)
theorem ulusilWritePacketEff (h : d.Keeps e) {port k data} : d.Keeps (ulusilWritePacketEff port k data e) :=
  .ite h.arrive h.arrive.packetArrives.sendPacket
theorem writeAckPacketEff (h : d.Keeps e) {port k} : d.Keeps (writeAckPacketEff port k e) := h.arrive
theorem controlPacketEff (h : d.Keeps e) {port k data} : d.Keeps (controlPacketEff port k data e) := h.arrive
theorem collectiveContributionEff (h : d.Keeps e) {port k p} : d.Keeps (collectiveContributionEff port k p e) :=
  .ite h.arrive.packetArrives h.arrive
theorem collectiveResultEff (h : d.Keeps e) {port k p} : d.Keeps (collectiveResultEff port k p e) :=
  .ite h.arrive.packetArrives h.arrive
theorem manage (h : d.Keeps e) {data} : d.Keeps (e.manage data) :=
  .ite h.stageRemap (.ite (.foldl h fun _ _ h => h.nameResume) (.ite (.foldl h fun _ _ h => h.failRelief) (.ite (.foldl h fun _ _ h => .ite h.rollBack h) h)))
theorem managementPacketEff (h : d.Keeps e) {port k data} : d.Keeps (managementPacketEff port k data e) :=
  .ite h.arrive.manage h.arrive
theorem abandonNoticeEff (h : d.Keeps e) {c src} : d.Keeps (abandonNoticeEff c src e) :=
  .ite h (by
      dsimp only
      split
      · exact .ite h.unsealStep (.ite h.declare h)
      · exact h)
theorem abandonVoteEff (h : d.Keeps e) {c src v} : d.Keeps (abandonVoteEff c src v e) :=
  .ite h (by
      dsimp only
      split
      · exact .ite h.updStep.reduceAbandon h
      · exact h)
theorem abandonDecisionEff (h : d.Keeps e) {c dec} : d.Keeps (abandonDecisionEff c dec e) := .ite h.applyAbandon h
theorem sealVoteEff (h : d.Keeps e) {c src v since} : d.Keeps (sealVoteEff c src v since e) :=
  .ite h (by
      split
      · exact .ite h.updStep.reduceSeal h
      · exact h)
theorem sealDecisionEff (h : d.Keeps e) {c dec} : d.Keeps (sealDecisionEff c dec e) := .ite h.applySeal h
theorem rcCounterReadEff (h : d.Keeps e) {die off} : d.Keeps (rcCounterReadEff die off e) := .ite h h.rcPut.emit
theorem belNowReadEff (h : d.Keeps e) {die since} : d.Keeps (belNowReadEff die since e) := .ite h h.rwPut.rwPut.emit
theorem stickyClear (h : d.Keeps e) {index value} : d.Keeps (e.stickyClear index value) := .update h
theorem stickyClearWriteEff (h : d.Keeps e) {w index value} : d.Keeps (stickyClearWriteEff w index value e) := by
  unfold Machine.stickyClearWriteEff
  split
  · exact .ite h.stickyClear h
  · exact h
theorem slotWrite (h : d.Keeps e) {w half n o v} : d.Keeps (e.slotWrite w half n o v) :=
  .ite h (.ite h.setSlot (.ite h.setSlot (.ite h.setSlot h)))
theorem stageWrite (h : d.Keeps e) {w die off r v} : d.Keeps (e.stageWrite w die off r v) := .ite h.stagePut h
theorem srcWrite (h : d.Keeps e) {w half s v} : d.Keeps (e.srcWrite w half s v) := by
  unfold Dev.srcWrite
  dsimp only
  split
  · exact .ite h.dbcRefuse (.ite h (.ite h h.rwPut))
  · exact .ite h h.rwPut
  · exact h
theorem dbellWrite (h : d.Keeps e) {half core v} : d.Keeps (e.dbellWrite half core v) := by
  unfold Dev.dbellWrite
  dsimp only
  split
  · exact .ite h.rwPut h
  · exact h.rwPut
theorem headframeWrite (h : d.Keeps e) {half off v} : d.Keeps (e.headframeWrite half off v) :=
  .ite (.updateFab h) (.ite (.updateFab h) (.ite (.updateFab h) (.ite h.rwPut (.ite h.rwPut h))))
theorem hubRegWrite (h : d.Keeps e) {w half off v} : d.Keeps (e.hubRegWrite w half off v) := by
  unfold Dev.hubRegWrite
  dsimp only
  split
  · exact h.stageWrite
  · refine .ite h.slotWrite (.ite (.ite h (.ite h.tlyPortGoEff (.ite h.rwPut h))) (.ite (.ite h ?kv) (.ite (.ite h.hubDoneWriteEff h)
      (.ite h.dbcDoorbellEff (.ite h.dbcMaskSetEff (.ite h.dbcMaskClrEff (.ite h.dbcPendSetEff (.ite h.dbcPendClrEff (.ite ?eoi
      (.ite h.srcWrite (.ite (.ite h.rwPut h) (.ite ?may (.ite h.cfgCommitWriteEff (.ite h.stickyClearWriteEff ?other))))))))))))))
    case kv =>
      split
      · exact .ite h.kvPortStart (.ite h.kvPortStart h)
      · exact h.dbellWrite
      · split
        · exact h.rwPut
        · exact h
    case eoi =>
      split
      · exact h.dbcEoiEff
      · exact h
    case may =>
      split
      · exact .ite h.rwPut h
      · exact h
    case other =>
      split
      · exact h.headframeWrite
      · exact h
theorem writeReg (h : d.Keeps e) {w die off v} : d.Keeps (e.writeReg w die off v) := by
  unfold Dev.writeReg
  dsimp only
  split
  · exact .ite h.bar0Write h
  · exact .ite h (.ite h.hubTrap (.ite h.hubRegWrite h))
  · exact .ite (.hfStore h fun _ h => .ite h.hubRegWrite h) h
  · exact h
theorem xcDrop (h : d.Keeps e) : d.Keeps (e.xcDrop) := h.rcAdd
theorem xcControl (h : d.Keeps e) {half m} : d.Keeps (e.xcControl half m) := .ite h.hubRegWrite h.xcDrop
theorem inputArrived (h : d.Keeps e) {c newer task mb} : d.Keeps (e.inputArrived c newer task mb) := by
  unfold Dev.inputArrived
  split
  · exact h
  · exact .ite h.refreshHubSource h.startColl
theorem intoWindow (h : d.Keeps e) {w m} : d.Keeps (e.intoWindow w m) := by
  unfold Dev.intoWindow
  dsimp only
  split
  · exact .inputArrived (.update h)
  · exact .ite h.xcDrop (.update (.ite h.poisonRun h.putRun))
  · exact .packetIn (.update h)
theorem deliverWindow (h : d.Keeps e) {half m} : d.Keeps (e.deliverWindow half m) := by
  unfold Dev.deliverWindow
  split
  · exact h.xcDrop
  · exact h.intoWindow
theorem ingress (h : d.Keeps e) {half m} : d.Keeps (e.ingress half m) :=
  .ite h.fencedMsg (.ite h.xcControl (.ite h.deliverWindow h.xcDrop))
theorem takeFlit (h : d.Keeps e) {dir link f} : d.Keeps (e.takeFlit dir link f) :=
  .ite (.ite h h.setXlink.emit) (.ite h (.ite h.setXlink.emit.ingress h.setXlink.emit))
theorem crosscutMessageEff (h : d.Keeps e) {dir link flits} : d.Keeps (crosscutMessageEff dir link flits e) :=
  .ite (.foldl h fun _ _ h => .ite h.takeFlit h) h
theorem crosscutReplayRequestEff (h : d.Keeps e) {dir link seq} : d.Keeps (crosscutReplayRequestEff dir link seq e) :=
  .ite h (.ite h.retireLink h.nakLink)
theorem crosscutLinkRetireEff (h : d.Keeps e) {dir link} : d.Keeps (crosscutLinkRetireEff dir link e) := .ite h.retireLink h
theorem crosscutAckEff (h : d.Keeps e) {dir link seq} : d.Keeps (crosscutAckEff dir link seq e) := .ite h.ackLink h
theorem crosscutParityFailEff (h : d.Keeps e) {dir link flit} : d.Keeps (crosscutParityFailEff dir link flit e) :=
  .ite h.takeFlit h
theorem poisonSpan (h : d.Keeps e) {a n} : d.Keeps (e.poisonSpan a n) := .upto h fun _ _ h => h.poisonLine
theorem noteFail (h : d.Keeps e) {q st} : d.Keeps (e.noteFail q st) := .updateHost h
theorem deepArrived (h : d.Keeps e) {q poison data} : d.Keeps (e.deepArrived q poison data) := by
  unfold Dev.deepArrived
  split
  · exact .inputArrived (.ite h.writeMem.poisonSpan h.writeMem)
  · exact h.fetchExt
  · exact h.fetchExt
  · exact h.fetchPage
  · exact h.evictExtEnd
  · exact h.evictPageEnd
  · exact h.writeMem
  · exact h
theorem deepFailed (h : d.Keeps e) {q st} : d.Keeps (e.deepFailed q st) := by
  unfold Dev.deepFailed
  dsimp only
  split
  · exact h.cause
  · split
    · exact .ite h.fetchExtFail.endWait h.fetchExtFail
    · exact h.fetchExtFail
  · split
    · exact .ite h.endWait h
    · exact h
  · exact .ite (by
        split
        · exact .ite h.evictExtEnd.noteFail.endWait h.evictExtEnd.noteFail
        · exact h.evictExtEnd.noteFail) h.evictExtEnd.noteFail
  · exact h.evictPageEnd
  · exact h.hubTrap
  · exact h.fetchExtFail.noteFail
  · exact h
theorem deepEnd (h : d.Keeps e) {id f} (hf : ∀ e q, d.Keeps e → d.Keeps (f e q)) : d.Keeps (e.deepEnd id f) := by
  unfold Dev.deepEnd
  split
  · exact h
  · exact hf _ _ h.frame
theorem deepResponseEff (h : d.Keeps e) {id ok poison data} : d.Keeps (deepResponseEff id ok poison data e) :=
  .deepEnd h fun _ _ h => .ite h.deepArrived h.deepFailed
theorem deepTimeoutEff (h : d.Keeps e) {id} : d.Keeps (deepTimeoutEff id e) := .deepEnd h fun _ _ h => h.deepFailed
theorem deepLinkDownEff (h : d.Keeps e) {half} : d.Keeps (deepLinkDownEff half e) :=
  .foldl h fun _ _ h => .deepEnd h fun _ _ h => h.deepFailed
theorem parityRepairDoneEff (h : d.Keeps e) {c ok lines} : d.Keeps (parityRepairDoneEff c ok lines e) := by
  unfold Machine.parityRepairDoneEff
  dsimp only
  split
  · exact h
  · exact .ite h.updCtx.loseContext (.ite h (.updCtx (.foldl h fun _ _ h => h.writeMem.record)))
theorem scrubLineEff (h : d.Keeps e) {half off err} : d.Keeps (scrubLineEff half off err e) :=
  .ite h (.ite h.enterEvent (.ite (.enterEvent (.upto h.poisonLine.stick.record fun _ _ h => .ite h.updCtx h)) h))
theorem retired! (h : d.Keeps e) {unit key fails} : d.Keeps (e.retired! unit key fails) :=
  .refreshHealth (.ite h.stick.record.failDevice h.stick.record)
theorem locationRetireEff (h : d.Keeps e) {kind key} : d.Keeps (locationRetireEff kind key e) :=
  .ite h (.ite (.retired! (.update h)) (.ite (.ite h.evictFor h) (.retired! (.update h.evictFor))))
theorem updCplx (h : d.Keeps e) {f} : d.Keeps (e.updCplx f) := .update h
theorem kernelTickEff (h : d.Keeps e) {half core work} : d.Keeps (kernelTickEff half core work e) := .ite h h.updCplx
theorem setShed (h : d.Keeps e) {n} : d.Keeps (e.setShed n) := .ite h (.record (.update h))
theorem shedWindowEndEff (h : d.Keeps e) {half} : d.Keeps (shedWindowEndEff half e) :=
  .ite h (.ite (.setShed (.update h.updCplx)) (.ite (.update h.updCplx) (.ite (.update h.updCplx) (.setShed (.update h.updCplx)))))
theorem noteAbsent (h : d.Keeps e) : d.Keeps (e.noteAbsent) := .ite (.update h) h
theorem startRestart (h : d.Keeps e) {level unit svcs cores} : d.Keeps (e.startRestart level unit svcs cores) :=
  .record (.stick (.noteAbsent (.updCplx (.update h))))
theorem restartComplex (h : d.Keeps e) : d.Keeps (e.restartComplex) := h.startRestart
theorem serviceExceptionEff (h : d.Keeps e) {prio} : d.Keeps (serviceExceptionEff prio e) := .ite h h.startRestart
theorem watchdogBiteEff (h : d.Keeps e) {core} : d.Keeps (watchdogBiteEff core e) :=
  .ite h (.ite h.restartComplex h.startRestart)
theorem coreRestartTimeoutEff (h : d.Keeps e) : d.Keeps (coreRestartTimeoutEff e) := .ite h.restartComplex h
theorem rescan (h : d.Keeps e) : d.Keeps (e.rescan) := .foldl (.updateHost h) fun _ _ h => h.answer
theorem fwResume (h : d.Keeps e) : d.Keeps (e.fwResume) :=
  .ite (.rescan (.setShed (.updCplx (.update h)))) (.setShed (.updCplx (.update h)))
theorem handOver (h : d.Keeps e) : d.Keeps (e.handOver) :=
  .ite h.failDevice (.refreshHealth (.record (.stick (.noteAbsent (.update h)))))
theorem imageCorrupt (h : d.Keeps e) : d.Keeps (e.imageCorrupt) := h.record.handOver
theorem fwRestartDoneEff (h : d.Keeps e) {imageOk} : d.Keeps (fwRestartDoneEff imageOk e) :=
  .ite h (.ite h.fwResume h.imageCorrupt)
theorem handoverEff (h : d.Keeps e) {why} : d.Keeps (handoverEff why e) :=
  .ite h (.ite (.ite h.handOver h) (.ite (.ite h.imageCorrupt h) (.ite (.ite h.handOver h) h)))
theorem handoverDoneEff (h : d.Keeps e) : d.Keeps (handoverDoneEff e) := .ite h.fwResume h
theorem fwAbsentEff (h : d.Keeps e) : d.Keeps (fwAbsentEff e) := .ite h (.record (.update h))
theorem fwAbsentFailedEff (h : d.Keeps e) : d.Keeps (fwAbsentFailedEff e) := .ite h (.updateFab h)
theorem updSub (h : d.Keeps e) {id f} : d.Keeps (e.updSub id f) := .update h
theorem sendEvent (h : d.Keeps e) {q ok} : d.Keeps (e.sendEvent q ok) :=
  .ite h.drawn.emit.updSub (by
      split
      · exact h
      · exact h.emit.updSub)
theorem redfishPushEff (h : d.Keeps e) {sub ok} : d.Keeps (redfishPushEff sub ok e) := by
  unfold Machine.redfishPushEff
  split
  · exact .ite h.sendEvent h
  · exact h
theorem redfishRetryEff (h : d.Keeps e) {sub ok} : d.Keeps (redfishRetryEff sub ok e) := by
  unfold Machine.redfishRetryEff
  split
  · exact .ite h.sendEvent h
  · exact h
theorem redfishRequestEff (h : d.Keeps e) {op arg} : d.Keeps (redfishRequestEff op arg e) :=
  .ite h (by
      split
      · exact .ite h.emit (by
            split
            · exact .emit (.update h)
            · exact h.emit)
      · exact .ite h.emit (by
            split
            · exact .emit (.update h)
            · exact h.emit)
      · exact .ite (.emit (.update h)) h.emit
      · exact h.emit
      · exact h.emit
      · exact h.emit
      · exact h)
theorem spdmTcpRequestEff (h : d.Keeps e) {req} : d.Keeps (spdmTcpRequestEff req e) :=
  .ite h (.ite (.update h) (.emit (.update h)))
theorem updCanary (h : d.Keeps e) {u f} : d.Keeps (e.updCanary u f) := .update h
theorem dropCanary (h : d.Keeps e) {u} : d.Keeps (e.dropCanary u) := .update h
theorem handOff (h : d.Keeps e) {u} : d.Keeps (e.handOff u) := .ite h h.updCanary
theorem addCanary (h : d.Keeps e) {u slot} : d.Keeps (e.addCanary u slot) := .ite h (.handOff (.update h))
theorem canarySlot (h : d.Keeps e) : d.Keeps (e.canarySlot) := by
  unfold Dev.canarySlot
  extract_lets n _ d1
  have h1 : d.Keeps d1 := .update h
  clear_value d1
  refine .ite h ?_
  split
  · exact .ite h1 h1.addCanary
  · exact h1
theorem freeCore (h : d.Keeps e) {die cluster core} : d.Keeps (e.freeCore die cluster core) := by
  unfold Dev.freeCore
  split
  · exact h
  · split
    · exact h.moveSlot
    · exact .setCluster (h.change (hm := fun w => copyMem_wf w))
theorem unpark (h : d.Keeps e) {die cluster core} : d.Keeps (e.unpark die cluster core) := by
  unfold Dev.unpark
  dsimp only
  split
  · exact .ite (.setCluster (h.change (hm := fun w => copyMem_wf w))) h
  · exact h
theorem losePark (h : d.Keeps e) {die cluster core} : d.Keeps (e.losePark die cluster core) :=
  .ite (.retile (.update h)) h.refreshHealth
theorem canaryEnter (h : d.Keeps e) {u pass} : d.Keeps (e.canaryEnter u pass) := by
  unfold Dev.canaryEnter
  extract_lets x d1 d2
  have h1 : d.Keeps d1 := .record (.ite h h.stick)
  have h2 : d.Keeps d2 := h1.setHist
  exact .ite h1.setHist (.ite h2.permanent (.ite h2.markSuspect h2))
theorem coreCanaryEnds (h : d.Keeps e) {u pass} : d.Keeps (e.coreCanaryEnds u pass) :=
  .resumeColls (.ite h.dropCanary.setCore.setHist.canaryEnter.unpark.refreshHealth h.dropCanary.setCore.setHist.canaryEnter.losePark)
theorem canaryEnds (h : d.Keeps e) {u pass} : d.Keeps (e.canaryEnds u pass) :=
  .ite h.coreCanaryEnds (.resumeColls (.canaryEnter (.ite h.dropCanary.setHub h.dropCanary)))
theorem canaryRuns (h : d.Keeps e) {u} : d.Keeps (e.canaryRuns u) := h.updCanary
theorem canaryStartEff (h : d.Keeps e) {unit} : d.Keeps (canaryStartEff unit e) := by
  unfold Machine.canaryStartEff
  split
  · exact h
  · exact .ite h (.ite (.ite h.handOff.freeCore.setCore.canaryRuns h.handOff) (.ite h (.ite h.addCanary.canaryRuns.setHub h.addCanary.canaryRuns)))
theorem canaryResultEff (h : d.Keeps e) {unit pass} : d.Keeps (canaryResultEff unit pass e) := by
  unfold Machine.canaryResultEff
  split
  · exact .ite h.canaryEnds h
  · exact h
theorem canaryHandoffTimeoutEff (h : d.Keeps e) {unit} : d.Keeps (canaryHandoffTimeoutEff unit e) := by
  unfold Machine.canaryHandoffTimeoutEff
  split
  · exact .ite h.dropCanary.setHist.canaryEnter.leaveHeld h
  · exact h
theorem canaryRunTimeoutEff (h : d.Keeps e) {unit} : d.Keeps (canaryRunTimeoutEff unit e) := by
  unfold Machine.canaryRunTimeoutEff
  split
  · exact .ite h.canaryEnds h
  · exact h
theorem canaryDeferredEff (h : d.Keeps e) {unit} : d.Keeps (canaryDeferredEff unit e) := by
  unfold Machine.canaryDeferredEff
  split
  · exact h
  · exact .ite h h.addCanary.updCanary.record
theorem suspectCanaryDueEff (h : d.Keeps e) {unit} : d.Keeps (suspectCanaryDueEff unit e) := by
  unfold Machine.suspectCanaryDueEff
  split
  · exact h
  · exact .ite h h.addCanary
theorem suspectReleaseEff (h : d.Keeps e) {unit} : d.Keeps (suspectReleaseEff unit e) := .ite h h.setHist.record
theorem spareHandoffEff (h : d.Keeps e) {die cluster slot} : d.Keeps (spareHandoffEff die cluster slot e) := by
  unfold Machine.spareHandoffEff
  split
  · exact .ite h.moveSlot h
  · exact .ite h.leaveHeld h
  · exact h
theorem coreMapOutEff (h : d.Keeps e) {die cluster core} : d.Keeps (coreMapOutEff die cluster core e) :=
  .ite h h.dropCanary.setCore.mapOut.losePark
theorem pollEvent (h : d.Keeps e) {e'} : d.Keeps (e.pollEvent e') := by
  unfold Dev.pollEvent
  extract_lets p d1 d1' d2
  have h1 : d.Keeps d1 := .ite (.record (.stick (.ite h.poisonLine h))) h
  have h1' : d.Keeps d1' := .ite h1.stick h1
  have h2 : d.Keeps d2 := .enterEvent (.ite h1'.checkRecord h1')
  exact .ite h (.ite h2.restartComplex h2)
theorem healthPollEff (h : d.Keeps e) {events} : d.Keeps (healthPollEff events e) :=
  .ite h (.foldl (.update h) fun _ _ h => h.pollEvent)
theorem hltRead (h : d.Keeps e) {unit buf} : d.Keeps (e.hltRead unit buf).dev := by
  unfold Dev.hltRead
  split
  · exact mk_dev (foldl_fst h fun _ _ h => h.storeHost)
  · exact .ite_dev h h.storeHost
theorem logRead (h : d.Keeps e) {first count buf} : d.Keeps (e.logRead first count buf).dev := h.storeHost.done
theorem logClear (h : d.Keeps e) {expEpoch} : d.Keeps (e.logClear expEpoch).dev :=
  .ite_dev (h.change (hl := fun _ => ⟨Nat.zero_le _, Nat.mod_lt _ (by decide)⟩)) h
theorem hltCanary (h : d.Keeps e) {unit} : d.Keeps (e.hltCanary unit).dev := by
  unfold Dev.hltCanary
  split
  · exact h.refuse
  · exact .ite_dev h.refuse h.addCanary.wait
theorem hltCanaryAgain (h : d.Keeps e) {unit} : d.Keeps (e.hltCanaryAgain unit).dev := by
  unfold Dev.hltCanaryAgain
  split
  · exact .ite_dev h.done h.wait
  · exact h.refuse
theorem hltSticky (h : d.Keeps e) {index clear} : d.Keeps (e.hltSticky index clear).dev := h.stickyClear.done
theorem hltQuery (h : d.Keeps e) : d.Keeps (e.hltQuery).dev := h.done
theorem stopFw (h : d.Keeps e) : d.Keeps (e.stopFw) := .update h
theorem rejectLoad (h : d.Keeps e) {code st} : d.Keeps (e.rejectLoad code st) :=
  .hostState (.record (.ite (.stick (.updateHost h.stopFw)) (.updateHost h.stopFw)))
theorem startFw (h : d.Keeps e) {minSvn} : d.Keeps (e.startFw minSvn) := .update h
theorem imageVerifyDoneEff (h : d.Keeps e) {revoked keyHash minSvn} : d.Keeps (imageVerifyDoneEff revoked keyHash minSvn e) :=
  .ite h (.ite h.rejectLoad (.hostState (.updateHost h.startFw)))
theorem startTimeoutEff (h : d.Keeps e) : d.Keeps (startTimeoutEff e) := .ite h h.rejectLoad
theorem entryPut (h : d.Keeps e) {e' f} : d.Keeps (e.entryPut e' f) := by
  unfold Dev.entryPut
  split
  · exact .ite h h.stagePut
  · exact h
theorem applyEntry (h : d.Keeps e) {e'} : d.Keeps (e.applyEntry e') := h.entryPut
theorem commitNow (h : d.Keeps e) {l d1} (he : e.commitNow l = some d1) : d.Keeps d1 := by
  unfold Dev.commitNow at he
  split at he <;> cases he
  exact .foldl h fun _ _ h => h.arm.takeEffect
theorem loadConfig (h : d.Keeps e) {m len} : d.Keeps (e.loadConfig m len).2 := by
  unfold Dev.loadConfig
  refine .ite_snd h ?_
  split
  · exact h
  · dsimp only
    split
    · exact h
    next d2 he => exact (commitNow (.foldl (.foldl h fun _ _ h => h.applyEntry) fun _ _ h => h.applyEntry) he).frame
theorem baseConfigLoadEff (h : d.Keeps e) : d.Keeps (baseConfigLoadEff e) :=
  .ite h (.ite h.rejectLoad (.refreshHealth (.hostState (.updateHost h.loadConfig))))
theorem hostLinkUpEff (h : d.Keeps e) : d.Keeps (hostLinkUpEff e) := .ite h h.linkTrain
theorem cfgRefusedAll (h : d.Keeps e) {code st} : d.Keeps (e.cfgRefusedAll code st) :=
  .record (.upto h fun _ _ h => .ite h.rwPut h)
theorem cfgStage (h : d.Keeps e) {list count} : d.Keeps (e.cfgStage list count).dev := by
  unfold Dev.cfgStage
  dsimp only
  split
  · exact h.refuse
  · exact .done (.foldl h fun _ _ h => h.applyEntry)
theorem cfgCommit (h : d.Keeps e) {gid} : d.Keeps (e.cfgCommit gid).dev :=
  .ite_dev h.cfgRefusedAll.mk_dev (.ite_dev (.wait (.foldl h fun _ _ h => h.arm)) (.mk_dev (.cfgRefusedAll (.foldl h fun _ _ h => h.setFail))))
theorem cfgCommitAgain (h : d.Keeps e) {gid} : d.Keeps (e.cfgCommitAgain gid).dev :=
  .ite_dev h.wait (by
      dsimp only
      split
      · exact h.refuse
      · exact h.done)
theorem switchStaged (h : d.Keeps e) {code} : d.Keeps (e.switchStaged code) :=
  .foldl (.foldl h fun _ _ h => h.entryPut) fun _ _ h => h.applyEntry
theorem cfgOverlay (h : d.Keeps e) {code} : d.Keeps (e.cfgOverlay code).dev := by
  refine .ite_dev h.cfgRefusedAll.mk_dev (.ite_dev (.wait (.update ?_)) (.mk_dev (.cfgRefusedAll ?_)))
  · exact .foldl h.switchStaged fun _ _ h => h.arm
  · exact .foldl h.switchStaged fun _ _ h => h.setFail
theorem cfgOverlayAgain (h : d.Keeps e) : d.Keeps (e.cfgOverlayAgain).dev := .ite_dev h.wait h.done
theorem cfgQuery (h : d.Keeps e) {gid half} : d.Keeps (e.cfgQuery gid half).dev := .ite_dev h.refuse h.done
theorem powerGood (h : d.Keeps e) : d.Keeps (e.powerGood) := by
  unfold Dev.powerGood
  extract_lets _ d1 train
  have h1 : d.Keeps d1 := h.change (hp := fun _ => (by decide : 4 ≤ 7))
  exact .refreshHealth (.upto h1 fun _ _ h => .ite h.setPort h)
theorem nextDomain (h : d.Keeps e) {todo} : d.Keeps (e.nextDomain todo) := by
  cases todo with
  | nil => exact h.powerGood
  | cons n rest => exact h.change (hp := fun _ => (by decide : 3 ≤ 7))
theorem startDomains (h : d.Keeps e) : d.Keeps (e.startDomains) := h.nextDomain
theorem startUp (h : d.Keeps e) : d.Keeps (e.startUp) := h.change (hp := fun _ => (by decide : 1 ≤ 7))
theorem powerCycled (h : d.Keeps e) : d.Keeps (e.powerCycled) := by
  unfold Dev.powerCycled
  extract_lets bad
  clear_value bad
  exact .updatePwr (e := { e with fab := { e.fab with hbState := 0 } }) h.updateFab
theorem supplyInRangeEff (h : d.Keeps e) : d.Keeps (supplyInRangeEff e) :=
  .ite (.startUp (.powerCycled (.updatePwr h))) (.ite (.updatePwr (.updatePwr h)) h)
theorem classSelectedEff (h : d.Keeps e) {coolId rise fluid} : d.Keeps (classSelectedEff coolId rise fluid e) := by
  unfold Machine.classSelectedEff
  refine .ite h ?_
  extract_lets k dis _ d0 d2 d1 _ d3
  have h0 : d.Keeps d0 := h.frame
  have h1 : d.Keeps d1 := by
    unfold d1
    split
    · exact h
    · exact .record (.ite h0.hwLimits.stick.record h0.hwLimits)
  clear_value d1
  have h3 : d.Keeps d3 := h1.change (hp := fun _ => (by decide : 2 ≤ 7))
  exact .ite h3.startDomains h3
theorem domainInToleranceEff (h : d.Keeps e) {domain} : d.Keeps (domainInToleranceEff domain e) := by
  unfold Machine.domainInToleranceEff
  split
  · exact .ite h.nextDomain h
  · exact h
theorem domainToleranceTimeoutEff (h : d.Keeps e) {domain} : d.Keeps (domainToleranceTimeoutEff domain e) := by
  unfold Machine.domainToleranceTimeoutEff
  extract_lets _ d1
  have h1 : d.Keeps d1 := h.change (hp := fun _ => (by decide : 6 ≤ 7))
  exact .ite h h1.stick.record
theorem powerDown (h : d.Keeps e) {st} : d.Keeps (e.powerDown st) :=
  .record (.sendHeartbeats (h.change (hp := fun _ => (by decide : 5 ≤ 7))))
theorem pwrEnRiseEff (h : d.Keeps e) : d.Keeps (pwrEnRiseEff e) :=
  .ite h (.ite (.startDomains (.updatePwr h)) (.ite (.ite (.updatePwr (.updatePwr h)) (.startUp (.updatePwr h))) (.updatePwr h)))
theorem pwrEnFallEff (h : d.Keeps e) : d.Keeps (pwrEnFallEff e) := by
  unfold Machine.pwrEnFallEff
  extract_lets _ off _
  have h0 : d.Keeps off := h.frame
  exact .ite h (.ite h0.powerDown (.ite (h0.change (hp := fun _ => (by decide : 7 ≤ 7))) h0))
theorem powerFaultEff (h : d.Keeps e) : d.Keeps (powerFaultEff e) :=
  .ite h (.ite (.stick (.updatePwr h)) (.powerDown (.stick (.updatePwr h))))
theorem thermTripEff (h : d.Keeps e) : d.Keeps (thermTripEff e) :=
  .ite h (.ite (.stick (.stick (.updatePwr h))) (.powerDown (.stick (.stick (.updatePwr h)))))
theorem sensorsBelow85CEff (h : d.Keeps e) : d.Keeps (sensorsBelow85CEff e) :=
  .ite h (.ite (.startUp (.updatePwr h)) (.updatePwr h))
theorem setThrottle (h : d.Keeps e) {k mhz} : d.Keeps (e.setThrottle k mhz) := .updatePwr h
theorem enterThrottle (h : d.Keeps e) {cause} : d.Keeps (e.enterThrottle cause) :=
  .ite (.record (.updatePwr h.rcAdd.stick)) h.rcAdd.stick
theorem throttleStepEff (h : d.Keeps e) {cause half domain up} : d.Keeps (throttleStepEff cause half domain up e) :=
  .ite h (.ite (by
      split
      · exact h.setThrottle
      · exact h) (.ite h.setThrottle h.setThrottle.enterThrottle))
theorem telemetrySampleEff (h : d.Keeps e) {input power hottest energy hotW hotE} :
    d.Keeps (telemetrySampleEff input power hottest energy hotW hotE e) :=
  .ite h (.ite (.updatePwr h) (.ite (.updatePwr (.updatePwr h)) (.updatePwr (.storeHost (.updatePwr (.updatePwr h))))))
theorem telemetryBell (h : d.Keeps e) : d.Keeps (e.telemetryBell) := .ite h (.ite (.updatePwr h) (.updatePwr h))
theorem pwrLimit (h : d.Keeps e) {kind value} : d.Keeps (e.pwrLimit kind value).dev := by
  unfold Dev.pwrLimit
  split
  · exact h.refuse
  · exact .ite_dev h.refuse (.ite_dev h.stagePut.setFail.cfgRefusedAll.mk_dev (.ite_dev h.stagePut.arm.stick.record.mk_dev h.stagePut.arm.done))
theorem pwrQuery (h : d.Keeps e) : d.Keeps (e.pwrQuery).dev := h.done
theorem pwrTelemetry (h : d.Keeps e) {period buf} : d.Keeps (e.pwrTelemetry period buf).dev :=
  .ite_dev h.refuse (.done (.updatePwr h))
theorem retry (h : d.Keeps e) {x} : d.Keeps (e.retry x) := by
  unfold Dev.retry
  dsimp only
  split
  · exact .again h fun _ h => h.sessByeAgain
  · exact .again h fun _ h => h.sessResetAgain
  · exact .again h fun _ h => h.ctxCloseAgain
  · exact .again h fun _ h => h.ctxSnapshotAgain
  · exact .again h fun _ h => h.memAllocCmd
  · exact .again h fun _ h => h.memQuotaCmd
  · exact .again h fun _ h => h.memHintCmd
  · exact .again h fun _ h => h.stepAbortAgain
  · exact .again h fun _ h => h.kvSwapCmd
  · exact .again h fun _ h => h.kvSetCmd
  · exact .again h fun _ h => h.kvReleaseCmd
  · exact .again h fun _ h => h.fabJoinAgain
  · exact .again h fun _ h => h.fabLeaveAgain
  · exact .again h fun _ h => h.reliefArm
  · exact .again h fun _ h => h.reliefStartAgain
  · exact .again h fun _ h => h.hltCanaryAgain
  · exact .again h fun _ h => h.cfgCommitAgain
  · exact .again h fun _ h => h.cfgOverlayAgain
  · exact h
theorem settle (h : d.Keeps e) : d.Keeps (e.settle) := by
  unfold Dev.settle
  extract_lets d1
  have h1 : d.Keeps d1 := h.reapClosing.retryPorts
  clear_value d1
  exact .ite (.retryPorts (.foldl h1 fun _ _ h => h.retry)) h1
theorem command (h : d.Keeps e) {hd cmd k act} (ha : ∀ e, d.Keeps e → d.Keeps (act e).dev) :
    d.Keeps (e.command hd cmd k act) := (h.serve ha).settle
theorem headframeCoreTestEff (h : d.Keeps e) {half core pass} : d.Keeps (headframeCoreTestEff half core pass e) :=
  .ite h h.addCanary.canaryRuns.settle.dropCanary.canaryEnter

end Dev.Keeps
end Sys2Proof.Machine
end

section
/-! SUPPORT. Which commands keep the bell, that every step keeps the invariant, and the statements that follow. -/

namespace Sys2Proof.Machine
set_option Elab.async false

/-- The commands that may change the bell count (R314, R318, R331). -/
def Instr.movesBell : Instr → Bool
  | .bellBoundary | .powerDownComplete | .bell .. => true
  | _ => false

/-- An effect that keeps the device's bell, time and invariant makes a command that does. -/
theorem onDev_keeps {f : Dev → Dev} {s t : State} (h : onDev f s = .next t) (hf : s.dev.Keeps (f s.dev)) : s.dev.Keeps t.dev := by
  cases h
  exact hf

/-- Every command but three keeps the bell, the operating time and the invariant. -/
theorem exec_keeps {i : Instr} {s t : State} (h : exec i s = .next t) (hi : Instr.movesBell i = false) : s.dev.Keeps t.dev := by
  cases i with
  | sessHello => exact onDev_keeps (show execSessHello .. = _ from h) (.command .refl fun _ h => h.sessHello)
  | sessBye => exact onDev_keeps (show execSessBye .. = _ from h) (.command .refl fun _ h => h.sessBye)
  | sessAdopt => exact onDev_keeps (show execSessAdopt .. = _ from h) (.command .refl fun _ h => h.sessAdopt)
  | sessReset => exact onDev_keeps (show execSessReset .. = _ from h) (.command .refl fun _ h => h.sessReset)
  | sessSpdm => exact onDev_keeps (show execSessSpdm .. = _ from h) (.command .refl fun _ h => h.sessSpdm)
  | ctxOpen => exact onDev_keeps (show execCtxOpen .. = _ from h) (.command .refl fun _ h => h.ctxOpen)
  | ctxClose => exact onDev_keeps (show execCtxClose .. = _ from h) (.command .refl fun _ h => h.ctxClose)
  | ctxSnapshot => exact onDev_keeps (show execCtxSnapshot .. = _ from h) (.command .refl fun _ h => h.ctxSnapshot)
  | ctxRestore => exact onDev_keeps (show execCtxRestore .. = _ from h) (.command .refl fun _ h => h.ctxRestore)
  | ctxQuery => exact onDev_keeps (show execCtxQuery .. = _ from h) (.command .refl fun _ h => h.ctxQuery)
  | memAlloc => exact onDev_keeps (show execMemAlloc .. = _ from h) (.command .refl fun _ h => h.memAllocCmd)
  | memFree => exact onDev_keeps (show execMemFree .. = _ from h) (.command .refl fun _ h => h.memFreeCmd)
  | memHint => exact onDev_keeps (show execMemHint .. = _ from h) (.command .refl fun _ h => h.memHintCmd)
  | memQuota => exact onDev_keeps (show execMemQuota .. = _ from h) (.command .refl fun _ h => h.memQuotaCmd)
  | memQuery => exact onDev_keeps (show execMemQuery .. = _ from h) (.command .refl fun _ h => h.memQueryCmd)
  | memAssign => exact onDev_keeps (show execMemAssign .. = _ from h) (.command .refl fun _ h => h.memAssignCmd)
  | graphLoad => exact onDev_keeps (show execGraphLoad .. = _ from h) (.command .refl fun _ h => h.graphLoad)
  | graphUnload => exact onDev_keeps (show execGraphUnload .. = _ from h) (.command .refl fun _ h => h.graphUnload)
  | stepSubmit => exact onDev_keeps (show execStepSubmit .. = _ from h) (.command .refl fun _ h => h.stepSubmit)
  | stepAbort => exact onDev_keeps (show execStepAbort .. = _ from h) (.command .refl fun _ h => h.stepAbort)
  | stepQuery => exact onDev_keeps (show execStepQuery .. = _ from h) (.command .refl fun _ h => h.stepQuery)
  | kvCreate => exact onDev_keeps (show execKvCreate .. = _ from h) (.command .refl fun _ h => h.kvCreateCmd)
  | kvSwap => exact onDev_keeps (show execKvSwap .. = _ from h) (.command .refl fun _ h => h.kvSwapCmd)
  | kvSet => exact onDev_keeps (show execKvSet .. = _ from h) (.command .refl fun _ h => h.kvSetCmd)
  | kvRelease => exact onDev_keeps (show execKvRelease .. = _ from h) (.command .refl fun _ h => h.kvReleaseCmd)
  | kvQuery => exact onDev_keeps (show execKvQuery .. = _ from h) (.command .refl fun _ h => h.kvQueryCmd)
  | fabJoin =>
    have h : execFabJoin .. = _ := h
    unfold execFabJoin at h
    exact onDev_keeps h (.command .refl fun _ h => h.fabJoin)
  | fabLeave => exact onDev_keeps (show execFabLeave .. = _ from h) (.command .refl fun _ h => h.fabLeave)
  | fabBind => exact onDev_keeps (show execFabBind .. = _ from h) (.command .refl fun _ h => h.fabBind)
  | fabGroup => exact onDev_keeps (show execFabGroup .. = _ from h) (.command .refl fun _ h => h.fabGroup)
  | fabQuery => exact onDev_keeps (show execFabQuery .. = _ from h) (.command .refl fun _ h => h.fabQuery)
  | reliefArm => exact onDev_keeps (show execReliefArm .. = _ from h) (.command .refl fun _ h => h.reliefArm)
  | reliefSpare => exact onDev_keeps (show execReliefSpare .. = _ from h) (.command .refl fun _ h => h.reliefSpare)
  | reliefStart => exact onDev_keeps (show execReliefStart .. = _ from h) (.command .refl fun _ h => h.reliefStart)
  | reliefQuery => exact onDev_keeps (show execReliefQuery .. = _ from h) (.command .refl fun _ h => h.reliefQuery)
  | hltRead => exact onDev_keeps (show execHltRead .. = _ from h) (.command .refl fun _ h => h.hltRead)
  | logRead => exact onDev_keeps (show execLogRead .. = _ from h) (.command .refl fun _ h => h.logRead)
  | logClear => exact onDev_keeps (show execLogClear .. = _ from h) (.command .refl fun _ h => h.logClear)
  | hltCanary => exact onDev_keeps (show execHltCanary .. = _ from h) (.command .refl fun _ h => h.hltCanary)
  | hltSticky => exact onDev_keeps (show execHltSticky .. = _ from h) (.command .refl fun _ h => h.hltSticky)
  | hltQuery => exact onDev_keeps (show execHltQuery .. = _ from h) (.command .refl fun _ h => h.hltQuery)
  | cfgStage => exact onDev_keeps (show execCfgStage .. = _ from h) (.command .refl fun _ h => h.cfgStage)
  | cfgCommitCmd => exact onDev_keeps (show execCfgCommitCmd .. = _ from h) (.command .refl fun _ h => h.cfgCommit)
  | cfgOverlay => exact onDev_keeps (show execCfgOverlay .. = _ from h) (.command .refl fun _ h => h.cfgOverlay)
  | cfgQuery => exact onDev_keeps (show execCfgQuery .. = _ from h) (.command .refl fun _ h => h.cfgQuery)
  | pwrLimit => exact onDev_keeps (show execPwrLimit .. = _ from h) (.command .refl fun _ h => h.pwrLimit)
  | pwrQuery => exact onDev_keeps (show execPwrQuery .. = _ from h) (.command .refl fun _ h => h.pwrQuery)
  | pwrTelemetry => exact onDev_keeps (show execPwrTelemetry .. = _ from h) (.command .refl fun _ h => h.pwrTelemetry)
  | opcodeInvalid => exact onDev_keeps (show execOpcodeInvalid .. = _ from h) (.opcodeInvalidEff .refl)
  | cmdTailDoorbell => exact onDev_keeps (show execCmdTailDoorbell .. = _ from h) (.ite (.bar0Write .refl) .refl)
  | ringEnableWrite => exact onDev_keeps (show execRingEnableWrite .. = _ from h) (.ite (.bar0Write .refl) .refl)
  | eventRingEnableWrite => exact onDev_keeps (show execEventRingEnableWrite .. = _ from h) (.bar0Write .refl)
  | loadStart => exact onDev_keeps (show execLoadStart .. = _ from h) (.loadStartEff .refl)
  | loadGo => exact onDev_keeps (show execLoadGo .. = _ from h) (.loadGoEff .refl)
  | loadAbort => exact onDev_keeps (show execLoadAbort .. = _ from h) (.loadAbortEff .refl)
  | imageVerifyDone => exact onDev_keeps (show execImageVerifyDone .. = _ from h) (.imageVerifyDoneEff .refl)
  | baseConfigLoad => exact onDev_keeps (show execBaseConfigLoad .. = _ from h) (.baseConfigLoadEff .refl)
  | startTimeout => exact onDev_keeps (show execStartTimeout .. = _ from h) (.startTimeoutEff .refl)
  | hostHeartbeatWrite => exact onDev_keeps (show execHostHeartbeatWrite .. = _ from h) (.hostHeartbeatWriteEff .refl)
  | hostHeartbeatLost => exact onDev_keeps (show execHostHeartbeatLost .. = _ from h) (.hostHeartbeatLostEff .refl)
  | orphanGraceExpiry => exact onDev_keeps (show execOrphanGraceExpiry .. = _ from h) (.orphanGraceExpiryEff .refl)
  | hotReset => exact onDev_keeps (show execHotReset .. = _ from h) (.ite (.linkTrain (.linkEvent .refl)) .refl)
  | flr => exact onDev_keeps (show execFlr .. = _ from h) (.ite (.linkEvent .refl) .refl)
  | hostLinkDown => exact onDev_keeps (show execHostLinkDown .. = _ from h) (.linkLost .refl)
  | hostWavelengthLoss => exact onDev_keeps (show execHostWavelengthLoss .. = _ from h) (.hostWavelengthLossEff .refl)
  | bar2Read => exact onDev_keeps (show execBar2Read .. = _ from h) (.bar2ReadEff .refl)
  | bar2Write => exact onDev_keeps (show execBar2Write .. = _ from h) (.bar2WriteEff .refl)
  | eventDeliver => exact onDev_keeps (show execEventDeliver .. = _ from h) (.eventDeliverEff .refl)
  | rcCounterRead => exact onDev_keeps (show execRcCounterRead .. = _ from h) (.rcCounterReadEff .refl)
  | belNowRead => exact onDev_keeps (show execBelNowRead .. = _ from h) (.belNowReadEff .refl)
  | hifBellRead => exact onDev_keeps (show execHifBellRead .. = _ from h) (.hifBellReadEff .refl)
  | stickyClearWrite => exact onDev_keeps (show execStickyClearWrite .. = _ from h) (.byWriter .refl fun _ h => h.stickyClearWriteEff)
  | registerWrite => exact onDev_keeps (show execRegisterWrite .. = _ from h) (.writeReg .refl)
  | hubAccessFault => exact onDev_keeps (show execHubAccessFault .. = _ from h) (.hubAccessFaultEff .refl)
  | guardedStore => exact onDev_keeps (show execGuardedStore .. = _ from h) (.guardedStoreEff .refl)
  | hubEvictedAccess => exact onDev_keeps (show execHubEvictedAccess .. = _ from h) (.hubEvictedAccessEff .refl)
  | cfgCommitWrite => exact onDev_keeps (show execCfgCommitWrite .. = _ from h) (.byWriter .refl fun _ h => h.cfgCommitWriteEff)
  | tlyPortGo => exact onDev_keeps (show execTlyPortGo .. = _ from h) (.tlyPortGoEff .refl)
  | tallyDrawDone => exact onDev_keeps (show execTallyDrawDone .. = _ from h) (.tallyDrawDoneEff .refl)
  | kvPortSwap => exact onDev_keeps (show execKvPortSwap .. = _ from h) (.kvPortStart .refl)
  | kvPortSet => exact onDev_keeps (show execKvPortSet .. = _ from h) (.kvPortStart .refl)
  | kvPortOpDone => exact onDev_keeps (show execKvPortOpDone .. = _ from h) (.settle (.kvPortOpDoneEff .refl))
  | hubDoneWrite => exact onDev_keeps (show execHubDoneWrite .. = _ from h) (.hubDoneWriteEff .refl)
  | dbcDoorbell => exact onDev_keeps (show execDbcDoorbell .. = _ from h) (.byWriter .refl fun _ h => h.dbcDoorbellEff)
  | dbcMaskSet => exact onDev_keeps (show execDbcMaskSet .. = _ from h) (.byWriter .refl fun _ h => h.dbcMaskSetEff)
  | dbcMaskClr => exact onDev_keeps (show execDbcMaskClr .. = _ from h) (.byWriter .refl fun _ h => h.dbcMaskClrEff)
  | dbcPendSet => exact onDev_keeps (show execDbcPendSet .. = _ from h) (.byWriter .refl fun _ h => h.dbcPendSetEff)
  | dbcPendClr => exact onDev_keeps (show execDbcPendClr .. = _ from h) (.byWriter .refl fun _ h => h.dbcPendClrEff)
  | dbcEoi => exact onDev_keeps (show execDbcEoi .. = _ from h) (.dbcEoiEff .refl)
  | doorbellDispatch => exact onDev_keeps (show execDoorbellDispatch .. = _ from h) (.doorbellDispatchEff .refl)
  | instanceAdmit => exact onDev_keeps (show execInstanceAdmit .. = _ from h) (.instanceAdmitEff .refl)
  | pageExhausted => exact onDev_keeps (show execPageExhausted .. = _ from h) (.pageExhaustedEff .refl)
  | hbmAdmitDeadline => exact onDev_keeps (show execHbmAdmitDeadline .. = _ from h) (.hbmAdmitDeadlineEff .refl)
  | sliceIssue => exact onDev_keeps (show execSliceIssue .. = _ from h) (.sliceIssueEff .refl)
  | fTileDrain => exact onDev_keeps (show execFTileDrain .. = _ from h) (.fTileDrainEff .refl)
  | bTileDrain => exact onDev_keeps (show execBTileDrain .. = _ from h) (.bTileDrainEff .refl)
  | tileReplay => exact onDev_keeps (show execTileReplay .. = _ from h) (.tileReplayEff .refl)
  | foreignTileRun => exact onDev_keeps (show execForeignTileRun .. = _ from h) (.foreignTileRunEff .refl)
  | vuGroupDone => exact onDev_keeps (show execVuGroupDone .. = _ from h) (.vuGroupDoneEff .refl)
  | sliceComplete => exact onDev_keeps (show execSliceComplete .. = _ from h) (.sliceCompleteEff .refl)
  | spareHandoff => exact onDev_keeps (show execSpareHandoff .. = _ from h) (.spareHandoffEff .refl)
  | coreMapOut => exact onDev_keeps (show execCoreMapOut .. = _ from h) (.coreMapOutEff .refl)
  | ladderConvertDone => exact onDev_keeps (show execLadderConvertDone .. = _ from h) (.ladderConvertDoneEff .refl)
  | copyDone => exact onDev_keeps (show execCopyDone .. = _ from h) (.copyDoneEff .refl)
  | updateTensorStart => exact onDev_keeps (show execUpdateTensorStart .. = _ from h) (.updateTensorStartEff .refl)
  | updateTensorDone => exact onDev_keeps (show execUpdateTensorDone .. = _ from h) (.updateTensorDoneEff .refl)
  | collectiveComplete => exact onDev_keeps (show execCollectiveComplete .. = _ from h) (.collectiveCompleteEff .refl)
  | instanceComplete => exact onDev_keeps (show execInstanceComplete .. = _ from h) (.settle (.instanceCompleteEff .refl))
  | attemptDrained => exact onDev_keeps (show execAttemptDrained .. = _ from h) (.settle (.attemptDrainedEff .refl))
  | stepTimeout => exact onDev_keeps (show execStepTimeout .. = _ from h) (.stepTimeoutEff .refl)
  | bellBoundary => cases hi
  | locationRetire => exact onDev_keeps (show execLocationRetire .. = _ from h) (.locationRetireEff .refl)
  | ulusilWritePacket => exact onDev_keeps (show execUlusilWritePacket .. = _ from h) (.ulusilWritePacketEff .refl)
  | writeAckPacket => exact onDev_keeps (show execWriteAckPacket .. = _ from h) (.writeAckPacketEff .refl)
  | collectiveContribution => exact onDev_keeps (show execCollectiveContribution .. = _ from h) (.collectiveContributionEff .refl)
  | collectiveResult => exact onDev_keeps (show execCollectiveResult .. = _ from h) (.collectiveResultEff .refl)
  | abandonNotice => exact onDev_keeps (show execAbandonNotice .. = _ from h) (.abandonNoticeEff .refl)
  | abandonVote => exact onDev_keeps (show execAbandonVote .. = _ from h) (.abandonVoteEff .refl)
  | abandonDecision => exact onDev_keeps (show execAbandonDecision .. = _ from h) (.abandonDecisionEff .refl)
  | sealVote => exact onDev_keeps (show execSealVote .. = _ from h) (.sealVoteEff .refl)
  | sealDecision => exact onDev_keeps (show execSealDecision .. = _ from h) (.sealDecisionEff .refl)
  | reliefNotice => exact onDev_keeps (show execReliefNotice .. = _ from h) (.reliefNoticeEff .refl)
  | leaveNotice => exact onDev_keeps (show execLeaveNotice .. = _ from h) (.leaveNoticeEff .refl)
  | digestNotice => exact onDev_keeps (show execDigestNotice .. = _ from h) (.digestNoticeEff .refl)
  | spareClaim => exact onDev_keeps (show execSpareClaim .. = _ from h) (.spareClaimEff .refl)
  | spareClaimTimeout => exact onDev_keeps (show execSpareClaimTimeout .. = _ from h) (.settle (.spareClaimTimeoutEff .refl))
  | spareClaimAnswer => exact onDev_keeps (show execSpareClaimAnswer .. = _ from h) (.settle (.spareClaimAnswerEff .refl))
  | reliefRebuildDone => exact onDev_keeps (show execReliefRebuildDone .. = _ from h) (.reliefRebuildDoneEff .refl)
  | spareReady => exact onDev_keeps (show execSpareReady .. = _ from h) (.spareReadyEff .refl)
  | reliefLeadTimeout => exact onDev_keeps (show execReliefLeadTimeout .. = _ from h) (.reliefLeadTimeoutEff .refl)
  | parityUpkeepDone => exact onDev_keeps (show execParityUpkeepDone .. = _ from h) (.parityUpkeepDoneEff .refl)
  | controlPacket => exact onDev_keeps (show execControlPacket .. = _ from h) (.controlPacketEff .refl)
  | managementPacket => exact onDev_keeps (show execManagementPacket .. = _ from h) (.managementPacketEff .refl)
  | bell => cases hi
  | heartbeat => exact onDev_keeps (show execHeartbeat .. = _ from h) (.heartbeatEff .refl)
  | ack => exact onDev_keeps (show execAck .. = _ from h) (.ackEff .refl)
  | nak => exact onDev_keeps (show execNak .. = _ from h) (.nakEff .refl)
  | credit => exact onDev_keeps (show execCredit .. = _ from h) (.creditEff .refl)
  | portRetire => exact onDev_keeps (show execPortRetire .. = _ from h) (.portRetireEff .refl)
  | wavelengthFail => exact onDev_keeps (show execWavelengthFail .. = _ from h) (.wavelengthFailEff .refl)
  | fabUnresponsive => exact onDev_keeps (show execFabUnresponsive .. = _ from h) (.fabUnresponsiveEff .refl)
  | trainingComplete => exact onDev_keeps (show execTrainingComplete .. = _ from h) (.trainingCompleteEff .refl)
  | trainingTimeout => exact onDev_keeps (show execTrainingTimeout .. = _ from h) (.settle (.trainingTimeoutEff .refl))
  | bellLock => exact onDev_keeps (show execBellLock .. = _ from h) (.settle (.bellLockEff .refl))
  | bellLockTimeout => exact onDev_keeps (show execBellLockTimeout .. = _ from h) (.settle (.bellLockTimeoutEff .refl))
  | leaveTimeout => exact onDev_keeps (show execLeaveTimeout .. = _ from h) (.settle (.leaveTimeoutEff .refl))
  | bellHoldover => exact onDev_keeps (show execBellHoldover .. = _ from h) (.bellHoldoverEff .refl)
  | secondaryTimekeeper => exact onDev_keeps (show execSecondaryTimekeeper .. = _ from h) (.secondaryTimekeeperEff .refl)
  | bellLost => exact onDev_keeps (show execBellLost .. = _ from h) (.bellLostEff .refl)
  | crosscutMessage => exact onDev_keeps (show execCrosscutMessage .. = _ from h) (.crosscutMessageEff .refl)
  | crosscutReplayRequest => exact onDev_keeps (show execCrosscutReplayRequest .. = _ from h) (.crosscutReplayRequestEff .refl)
  | crosscutLinkRetire => exact onDev_keeps (show execCrosscutLinkRetire .. = _ from h) (.crosscutLinkRetireEff .refl)
  | deepResponse => exact onDev_keeps (show execDeepResponse .. = _ from h) (.settle (.deepResponseEff .refl))
  | deepTimeout => exact onDev_keeps (show execDeepTimeout .. = _ from h) (.settle (.deepTimeoutEff .refl))
  | deepLinkDown => exact onDev_keeps (show execDeepLinkDown .. = _ from h) (.settle (.deepLinkDownEff .refl))
  | stashMoveDone => exact onDev_keeps (show execStashMoveDone .. = _ from h) (.stashMoveDoneEff .refl)
  | parityRepairDone => exact onDev_keeps (show execParityRepairDone .. = _ from h) (.settle (.parityRepairDoneEff .refl))
  | scrubLine => exact onDev_keeps (show execScrubLine .. = _ from h) (.scrubLineEff .refl)
  | healthPoll => exact onDev_keeps (show execHealthPoll .. = _ from h) (.healthPollEff .refl)
  | suspectRelease => exact onDev_keeps (show execSuspectRelease .. = _ from h) (.suspectReleaseEff .refl)
  | canaryStart => exact onDev_keeps (show execCanaryStart .. = _ from h) (.settle (.canaryStartEff .refl))
  | canaryResult => exact onDev_keeps (show execCanaryResult .. = _ from h) (.canaryResultEff .refl)
  | canaryHandoffTimeout => exact onDev_keeps (show execCanaryHandoffTimeout .. = _ from h) (.canaryHandoffTimeoutEff .refl)
  | canaryRunTimeout => exact onDev_keeps (show execCanaryRunTimeout .. = _ from h) (.canaryRunTimeoutEff .refl)
  | canaryDeferred => exact onDev_keeps (show execCanaryDeferred .. = _ from h) (.canaryDeferredEff .refl)
  | suspectCanaryDue => exact onDev_keeps (show execSuspectCanaryDue .. = _ from h) (.suspectCanaryDueEff .refl)
  | redfishPush => exact onDev_keeps (show execRedfishPush .. = _ from h) (.redfishPushEff .refl)
  | redfishRetry => exact onDev_keeps (show execRedfishRetry .. = _ from h) (.redfishRetryEff .refl)
  | redfishRequest => exact onDev_keeps (show execRedfishRequest .. = _ from h) (.redfishRequestEff .refl)
  | spdmTcpRequest => exact onDev_keeps (show execSpdmTcpRequest .. = _ from h) (.spdmTcpRequestEff .refl)
  | kernelTick => exact onDev_keeps (show execKernelTick .. = _ from h) (.kernelTickEff .refl)
  | shedWindowEnd => exact onDev_keeps (show execShedWindowEnd .. = _ from h) (.shedWindowEndEff .refl)
  | serviceException => exact onDev_keeps (show execServiceException .. = _ from h) (.serviceExceptionEff .refl)
  | watchdogBite => exact onDev_keeps (show execWatchdogBite .. = _ from h) (.watchdogBiteEff .refl)
  | coreRestartTimeout => exact onDev_keeps (show execCoreRestartTimeout .. = _ from h) (.coreRestartTimeoutEff .refl)
  | fwRestartDone => exact onDev_keeps (show execFwRestartDone .. = _ from h) (.settle (.fwRestartDoneEff .refl))
  | fwAbsent => exact onDev_keeps (show execFwAbsent .. = _ from h) (.fwAbsentEff .refl)
  | fwAbsentFailed => exact onDev_keeps (show execFwAbsentFailed .. = _ from h) (.fwAbsentFailedEff .refl)
  | handover => exact onDev_keeps (show execHandover .. = _ from h) (.handoverEff .refl)
  | handoverDone => exact onDev_keeps (show execHandoverDone .. = _ from h) (.settle (.handoverDoneEff .refl))
  | headframeCoreTest => exact onDev_keeps (show execHeadframeCoreTest .. = _ from h) (.headframeCoreTestEff .refl)
  | supplyInRange => exact onDev_keeps (show execSupplyInRange .. = _ from h) (.supplyInRangeEff .refl)
  | classSelected => exact onDev_keeps (show execClassSelected .. = _ from h) (.classSelectedEff .refl)
  | domainInTolerance => exact onDev_keeps (show execDomainInTolerance .. = _ from h) (.domainInToleranceEff .refl)
  | domainToleranceTimeout => exact onDev_keeps (show execDomainToleranceTimeout .. = _ from h) (.domainToleranceTimeoutEff .refl)
  | pwrEnRise => exact onDev_keeps (show execPwrEnRise .. = _ from h) (.pwrEnRiseEff .refl)
  | pwrEnFall => exact onDev_keeps (show execPwrEnFall .. = _ from h) (.pwrEnFallEff .refl)
  | powerFault => exact onDev_keeps (show execPowerFault .. = _ from h) (.powerFaultEff .refl)
  | thermTrip => exact onDev_keeps (show execThermTrip .. = _ from h) (.thermTripEff .refl)
  | throttleStep => exact onDev_keeps (show execThrottleStep .. = _ from h) (.throttleStepEff .refl)
  | telemetrySample => exact onDev_keeps (show execTelemetrySample .. = _ from h) (.telemetrySampleEff .refl)
  | powerDownComplete => cases hi
  | sensorsBelow85C => exact onDev_keeps (show execSensorsBelow85C .. = _ from h) (.sensorsBelow85CEff .refl)
  | hostLinkUp => exact onDev_keeps (show execHostLinkUp .. = _ from h) (.hostLinkUpEff .refl)
  | crosscutAck => exact onDev_keeps (show execCrosscutAck .. = _ from h) (.crosscutAckEff .refl)
  | crosscutParityFail => exact onDev_keeps (show execCrosscutParityFail .. = _ from h) (.crosscutParityFailEff .refl)
  | flitCrcFail => exact onDev_keeps (show execFlitCrcFail .. = _ from h) (.flitCrcFailEff .refl)

/-- A BELL packet keeps all; only a device that waits for the bell takes its number, from a packet that came whole (R314, R331). -/
theorem bellEff_keeps_or_adopts (port num hops tk : Nat) (crcOk : Bool) (d : Dev) : d.Keeps (bellEff port num hops tk crcOk d)
    ∨ crcOk = true ∧ d.fab.state = 2 ∧ Dev.Keeps { d with bell := num % 2 ^ 48 } (bellEff port num hops tk crcOk d) := by
  unfold bellEff
  split
  · exact .inl .refl
  · split
    · exact .inl .refl
    next hc =>
      simp only [Bool.or_eq_true, not_or] at hc
      split
      · exact .inl (.sendBell .refl)
      · by_cases h2 : d.fab.state = 2
        · rw [if_pos h2]
          exact .inr ⟨by simpa using hc.1.1.1.1.1.1, h2, .sendBell (.drawn (.updateFab .refl))⟩
        · rw [if_neg h2]
          exact .inl (.sendBell (.drawn (.updateFab .refl)))

/-- A BELL packet keeps the invariant: the number it may bring has 48 bits. -/
theorem bellEff_inv {port num hops tk : Nat} {crcOk : Bool} {d : Dev} (h : d.Inv) : (bellEff port num hops tk crcOk d).Inv := by
  obtain k | ⟨-, -, k⟩ := bellEff_keeps_or_adopts port num hops tk crcOk d
  · exact k.inv h
  · obtain ⟨hm, hh, hg, -, hr⟩ := h
    exact k.inv ⟨hm, hh, hg, Nat.mod_lt _ (by decide), hr⟩

/-- The end of a power-down keeps the invariant: the memory and the bell count restart from nothing (R482). -/
theorem powerDownCompleteEff_inv {d : Dev} (h : d.Inv) : (powerDownCompleteEff d).Inv := by
  unfold powerDownCompleteEff
  split
  · exact h
  · extract_lets _ d1 p keep _ _ _ d2
    have h1 : d.Keeps d1 := .deviceReset (.updateHost .refl)
    obtain ⟨hm, hh, hg, -, hs, hf, hp, hl⟩ := h1.inv h
    clear_value d1 keep
    have h2 : d2.Inv := ⟨rfl, hh, hg, (by decide : 0 < 2 ^ 48), hs, hf, by simp only [d2]; split <;> decide, hl⟩
    split
    · exact (Dev.Keeps.startUp .refl).inv h2
    · exact h2

/-- The bell count's own step keeps the invariant (R315). -/
theorem Dev.tick_inv {d : Dev} (h : d.Inv) : d.tick.Inv := by
  obtain ⟨hm, hh, hg, -, hs, hf, hp, hl⟩ := h
  exact ⟨hm, hh, hg, Nat.mod_lt _ (by decide), hs, hf, hp, hl⟩

/-- Nothing that acts at a boundary changes the bell or the time once they have advanced (R318). -/
theorem bellBoundaryEff_keeps_tick {d : Dev} (h : d.pwr.phase = 4) : d.tick.Keeps (bellBoundaryEff d) := by
  unfold bellBoundaryEff
  rw [if_neg (not_not.2 h)]
  extract_lets d1 d2 d3 d4
  have h1 : d.tick.Keeps d1 := .cfgBell (.remapSwitch .refl)
  have h2 : d.tick.Keeps d2 := .settle (.upto h1 fun _ _ h => h.commitDue)
  have h3 : d.tick.Keeps d3 := .upto h2 fun _ _ h => h.resumeDue.startDue
  have h4 : d.tick.Keeps d4 := h3.canarySlot.telemetryBell.sendHeartbeats.beatDue
  exact .settle (.upto h4 fun _ _ h => h.sealStep)

/-- Before power is good, no bell passes (R478). -/
theorem bellBoundaryEff_of_unpowered {d : Dev} (h : d.pwr.phase ≠ 4) : bellBoundaryEff d = d := if_pos h

theorem bellBoundaryEff_inv {d : Dev} (h : d.Inv) : (bellBoundaryEff d).Inv := by
  by_cases hp : d.pwr.phase = 4
  · exact (bellBoundaryEff_keeps_tick hp).inv (Dev.tick_inv h)
  · rwa [bellBoundaryEff_of_unpowered hp]

/-- Every command keeps the invariant. -/
theorem exec_keeps_inv {i : Instr} {s t : State} (h : exec i s = .next t) (hs : s.dev.Inv) : t.dev.Inv := by
  by_cases hi : Instr.movesBell i = false
  · exact (exec_keeps h hi).inv hs
  · unfold Instr.movesBell at hi
    split at hi
    · cases h
      exact bellBoundaryEff_inv hs
    · cases h
      exact powerDownCompleteEff_inv hs
    · cases h
      exact bellEff_inv hs
    · exact absurd rfl hi

/-- Settles O58: every part of the device starts empty and in its first state. -/
theorem resetInv : Obligations.ResetInv := by
  unfold Obligations.ResetInv Dev.Inv
  decide +kernel

/-- Settles O59: a step runs one command, and each command's effect is built from operations that keep the invariant. -/
theorem stepKeepsInv : Obligations.StepKeepsInv := by
  intro s t hs h
  unfold step at h
  split at h
  · cases h
    exact hs
  · exact exec_keeps_inv h hs

/-- Settles O60: every other command keeps the bell, and a BELL packet keeps it unless the device adopts the number. -/
theorem onlyBellsCount : Obligations.OnlyBellsCount := by
  intro i s t h
  by_cases hi : Instr.movesBell i = false
  · exact .inl (exec_keeps h hi).bell
  · unfold Instr.movesBell at hi
    split at hi
    · exact .inr (.inl rfl)
    · exact .inr (.inr (.inl rfl))
    next port num hops tk crcOk =>
      cases h
      obtain k | ⟨rfl, h2, k⟩ := bellEff_keeps_or_adopts port num hops tk crcOk s.dev
      · exact .inl k.bell
      · exact .inr (.inr (.inr ⟨port, num, hops, tk, rfl, h2, k.bell⟩))
    · exact absurd rfl hi

/-- Settles O42: the bell and the time advance first, and what acts at the boundary keeps both. -/
theorem bellBoundary : Obligations.BellBoundary := by
  refine ⟨fun s hp => ⟨bellBoundaryEff s.dev, rfl, ?_, ?_⟩, fun s hp => onDev_eq (bellBoundaryEff_of_unpowered hp)⟩
  · exact (bellBoundaryEff_keeps_tick hp).bell
  · exact (bellBoundaryEff_keeps_tick hp).opUs

end Sys2Proof.Machine
end

section
/-! SUPPORT. Mailbox entries whose action ends, by the check they pass, and the statements about the queue, sessions and contexts. -/

open Sys2Proof Sys2Proof.Machine

namespace Sys2Proof.Machine

/-! ## Entries that pass their checks and end -/

section
variable {d : Dev} {h : Hdr} {idem : Bool} {cmd : Instr} {k : CmdKind} {act : Dev → Reply} {x : Dev} {st : Status} {ws : List Nat}

/-- The service takes a clean entry. -/
theorem Dev.inSession.takes (hd : d.inSession h idem) : d.takes h = true := hd.1.1

theorem Dev.inContext.takes (hd : d.inContext h idem) : d.takes h = true := hd.1.1

theorem Dev.command_inSession (hd : d.inSession h idem) (hk : k = { idem := idem })
    (hr : act (d.take h) = { dev := x, status := st, words := ws }) : d.command h cmd k act = x.completed h st ws :=
  d.command_eq h hd.takes (hk ▸ d.entryFail_session h idem hd) hr

theorem Dev.command_inContext (hd : d.inContext h idem) (hk : k = { idem := idem, ctx := .owned })
    (hr : act (d.take h) = { dev := x, status := st, words := ws }) : d.command h cmd k act = x.completed h st ws :=
  d.command_eq h hd.takes (hk ▸ d.entryFail_context h idem hd) hr

theorem Dev.command_inFreeSession (hd : d.inFreeSession h idem) (hk : k = { idem := idem, free := true })
    (hr : act (d.take h) = { dev := x, status := st, words := ws }) : d.command h cmd k act = x.completed h st ws :=
  d.command_eq h hd.1.takes (hk ▸ d.entryFail_free h idem hd) hr

/-- An entry with a reserved value is answered RESERVED_NONZERO. -/
theorem Dev.command_bad (ht : d.takes h = true) (hk : k.bad = true) :
    d.command h cmd k act = (d.take h).completed h St.reservedNonzero [] :=
  d.command_refused h ht (by simp [Dev.entryFail, hk])

/-- An entry whose action waits joins the commands in flight. -/
theorem Dev.command_waits {n : Nat} (ht : d.takes h = true) (hf : (d.take h).entryFail h k = none)
    (hr : act (d.take h) = { dev := x, waits := true, note := n }) : d.command h cmd k act = (x.enqueue h cmd n).settle := by
  simp [Dev.command, Dev.serve, ht, hf, hr]

/-- An entry whose action posts its own completion. -/
theorem Dev.command_silent (ht : d.takes h = true) (hf : (d.take h).entryFail h k = none)
    (hr : act (d.take h) = { dev := x, silent := true }) : d.command h cmd k act = x.settle := by
  simp [Dev.command, Dev.serve, ht, hf, hr]

/-- The contexts of a ring set that owns none. -/
theorem Dev.sessionCtxs_of_ownsCtx {set : Nat} (ho : d.ownsCtx set = false) : d.sessionCtxs set = [] := by
  simpa [Dev.ownsCtx, Dev.sessionCtxs] using ho

theorem Dev.sessionCtxs_ne_nil {set : Nat} (ho : d.ownsCtx set = true) : d.sessionCtxs set ≠ [] := by
  simpa [Dev.ownsCtx, Dev.sessionCtxs] using ho

@[simp] theorem Dev.take_sessionCtxs (set : Nat) : (d.take h).sessionCtxs set = d.sessionCtxs set := rfl

end

/-- Settles O1: the step is defined by the queue's first two shapes. -/
theorem stepRunsFront : Obligations.StepRunsFront := by
  refine ⟨fun c r s => rfl, fun s hs => ?_⟩
  unfold step
  rw [hs]

/-- Settles O2: each arm of `exec` is an effect on the device alone. -/
theorem everyCommandAnswers : Obligations.EveryCommandAnswers := by
  intro i s
  cases i <;> exact ⟨_, rfl, rfl⟩

/-! ## What reaches only the host side, or only the limits' registers -/

/-- An interrupt is sent or noted as pending. -/
theorem Dev.fire_eq (d : Dev) (v : Nat) : ∃ m o, d.fire v = { d with host := { d.host with msix := m }, out := o } := by
  unfold Dev.fire
  split
  · exact ⟨d.host.msix, d.out, rfl⟩
  · split
    · exact ⟨_, d.out, rfl⟩
    · exact ⟨d.host.msix, _, rfl⟩

/-- A change of the host state sets the state and fires vector 1 (R394, R400). -/
theorem Dev.hostState_eq (d : Dev) (n : Nat) :
    ∃ m o, d.hostState n = { d with host := { d.host with msix := m, state := n }, out := o } := by
  unfold Dev.hostState
  split
  next h => exact ⟨d.host.msix, d.out, by rw [← h]⟩
  · exact Dev.fire_eq _ 1

/-- The limits held by hardware are two registers (R484). -/
theorem Dev.hwLimits_eq (d : Dev) : ∃ b, d.hwLimits = { d with bank := b } := by
  unfold Dev.hwLimits
  split
  · exact ⟨d.bank, rfl⟩
  · exact ⟨_, rfl⟩

/-- A record reaches the host interface by its event queue alone (R399). -/
theorem Dev.record_host (d : Dev) (e : Ev) : ∃ q, (d.record e).host = { d.host with evt := q } := by
  unfold Dev.record
  extract_lets n d1 m d2
  split
  · exact ⟨_, rfl⟩
  · split
    · exact ⟨_, rfl⟩
    · split <;> exact ⟨_, rfl⟩

@[simp] theorem Dev.record_ring (d : Dev) (e : Ev) (k : Nat) : (d.record e).ring k = d.ring k := by
  obtain ⟨q, hq⟩ := d.record_host e
  simp only [Dev.ring, hq]

@[simp] theorem Dev.record_ctx (d : Dev) (e : Ev) (c : Nat) : (d.record e).ctx c = d.ctx c := by
  simp only [Dev.ctx, Dev.record_ctxs]

/-- Settles O4: the reset builds the device from the parts that stay, and what follows it reaches only the registers of the
hardware limits, the interrupts and the host state. -/
theorem deviceResetLeaves : Obligations.DeviceResetLeaves := by
  intro d
  unfold Dev.deviceReset
  extract_lets f _ _ d1
  obtain ⟨b, hb⟩ := d1.hwLimits_eq
  obtain ⟨m, o, hs⟩ := ({ d1 with bank := b } : Dev).hostState_eq 0
  rw [hb, hs]
  exact ⟨rfl, rfl, rfl, rfl, rfl, rfl, rfl, rfl, rfl, rfl, rfl, rfl, rfl⟩

/-! ## Orphans (R407) -/

/-- Orphaning contexts changes nothing but contexts. -/
theorem Dev.foldl_orphanCtx_eq (l : List Nat) (d : Dev) : ∃ c, l.foldl Dev.orphanCtx d = { d with ctxs := c } := by
  induction l generalizing d with
  | nil => exact ⟨d.ctxs, rfl⟩
  | cons k l ih =>
    obtain ⟨c, hc⟩ := ih (d.orphanCtx k)
    rw [List.foldl_cons, hc]
    unfold Dev.orphanCtx
    split <;> exact ⟨_, rfl⟩

/-- A context without a session. -/
def Ctx.orphan (x : Ctx) : Ctx := { x with orphaned := true, owner := none }

@[simp] theorem Ctx.orphan_isOpen (x : Ctx) : x.orphan.isOpen = x.isOpen := rfl
@[simp] theorem Ctx.orphan_orphan (x : Ctx) : x.orphan.orphan = x.orphan := rfl

theorem Dev.ctx_orphanCtx (d : Dev) (c k : Nat) :
    (d.orphanCtx c).ctx k = if k = c ∧ (d.ctx k).isOpen = true then (d.ctx k).orphan else d.ctx k := by
  unfold Dev.orphanCtx
  by_cases hc : k = c
  · subst hc
    by_cases ho : (d.ctx k).isOpen = true
    · rw [if_pos ho, if_pos ⟨rfl, ho⟩]
      exact Dev.ctx_setCtx d k _
    · rw [if_neg ho, if_neg (by simp [ho])]
  · simp only [hc, false_and, if_false]
    split
    · exact Dev.ctx_setCtx_ne d _ (Ne.symm hc)
    · rfl

/-- An open context among those orphaned is an orphan of no session; the others stay. -/
theorem Dev.ctx_foldl_orphanCtx (l : List Nat) (d : Dev) (k : Nat) :
    (l.foldl Dev.orphanCtx d).ctx k = if k ∈ l ∧ (d.ctx k).isOpen = true then (d.ctx k).orphan else d.ctx k := by
  induction l generalizing d with
  | nil => simp
  | cons c l ih =>
    rw [List.foldl_cons, ih, Dev.ctx_orphanCtx]
    by_cases hc : k = c ∧ (d.ctx k).isOpen = true
    · obtain ⟨rfl, ho⟩ := hc
      simp [ho]
    · rw [if_neg hc]
      by_cases ho : (d.ctx k).isOpen = true
      · simp_all
      · simp [ho]

/-- Where a context is orphaned, the end of a session leaves the grace as it runs. -/
theorem Dev.settleHost_of_anyOrphan {d : Dev} (h : d.anyOrphan = true) :
    ∃ m o n, d.settleHost = { d with host := { d.host with msix := m, state := n }, out := o } := by
  unfold Dev.settleHost
  rw [if_pos h]
  split
  · exact ⟨d.host.msix, d.out, d.host.state, rfl⟩
  · obtain ⟨m, o, hm⟩ := d.hostState_eq 7
    exact ⟨m, o, 7, hm⟩

theorem upto_succ {α : Type} (n : Nat) (f : Nat → α → α) (x : α) : upto (n + 1) f x = f n (upto n f x) := by
  simp [upto, List.range_succ]

/-- Rewriting every ring set up to a bound changes nothing but ring sets. -/
theorem Dev.upto_setRing_eq (f : Ring → Ring) (n : Nat) (d : Dev) : ∃ m,
    upto n (fun k d => d.setRing k (f (d.ring k))) d = { d with host := { d.host with rings := m } } := by
  induction n with
  | zero => exact ⟨d.host.rings, rfl⟩
  | succ n ih =>
    obtain ⟨m, hm⟩ := ih
    rw [upto_succ, hm]
    exact ⟨_, rfl⟩

theorem Dev.ring_upto_setRing (f : Ring → Ring) (n k : Nat) (d : Dev) :
    (upto n (fun k d => d.setRing k (f (d.ring k))) d).ring k = if k < n then f (d.ring k) else d.ring k := by
  induction n with
  | zero => rfl
  | succ n ih =>
    rw [upto_succ]
    obtain hk | rfl | hk := lt_trichotomy k n
    · rw [Dev.ring_setRing_ne _ _ hk.ne', ih, if_pos hk, if_pos (by omega)]
    · rw [Dev.ring_setRing, ih, if_neg (by omega), if_pos (by omega)]
    · rw [Dev.ring_setRing_ne _ _ hk.ne, ih, if_neg (by omega), if_neg (by omega)]

/-- A ring set whose session is lost with the host: its commands count as taken (R407). -/
def Ring.lost (r : Ring) : Ring := { r with enabled := false, session := false, cmdHead := r.cmdTail.toNat, queue := [] }

/-- What the loss of the host makes of the ring sets and the contexts, before the grace starts. -/
def Dev.orphaned (d : Dev) : Dev := upto 8 (fun c d => d.orphanCtx c) (upto 4 (fun k d => d.setRing k (d.ring k).lost) d)

theorem Dev.orphaned_eq (d : Dev) : ∃ r c, d.orphaned = { d with host := { d.host with rings := r }, ctxs := c } := by
  obtain ⟨m, hm⟩ := Dev.upto_setRing_eq Ring.lost 4 d
  unfold Dev.orphaned
  rw [hm]
  obtain ⟨c, hc⟩ := Dev.foldl_orphanCtx_eq (List.range 8) { d with host := { d.host with rings := m } }
  exact ⟨m, c, hc⟩

theorem Dev.ring_orphaned (d : Dev) {k : Nat} (hk : k < 4) : d.orphaned.ring k = (d.ring k).lost := by
  obtain ⟨c, hc⟩ := Dev.foldl_orphanCtx_eq (List.range 8) (upto 4 (fun k d => d.setRing k (d.ring k).lost) d)
  unfold Dev.orphaned
  rw [upto, hc]
  exact (Dev.ring_upto_setRing Ring.lost 4 k d).trans (if_pos hk)

theorem Dev.ctx_orphaned (d : Dev) {c : Nat} (hc : c < 8) (ho : (d.ctx c).isOpen = true) : d.orphaned.ctx c = (d.ctx c).orphan := by
  obtain ⟨m, hm⟩ := Dev.upto_setRing_eq Ring.lost 4 d
  unfold Dev.orphaned
  rw [hm]
  exact (Dev.ctx_foldl_orphanCtx _ _ c).trans (if_pos ⟨List.mem_range.2 hc, ho⟩)

/-- The start of the grace reaches the host interface and what leaves the device (R407). -/
theorem Dev.startGrace_eq (d : Dev) (cause : Nat) : ∃ m o,
    d.startGrace cause = { d with
      host := { d.host with orphanCause := cause, orphanUs := d.host.grace * 1000000, msix := m }, out := o } :=
  Dev.fire_eq _ 1

section
variable (d : Dev) (n : Nat)

@[simp] theorem Dev.startGrace_ctxs : (d.startGrace n).ctxs = d.ctxs := by obtain ⟨m, o, h⟩ := d.startGrace_eq n; rw [h]
@[simp] theorem Dev.startGrace_mem : (d.startGrace n).mem = d.mem := by obtain ⟨m, o, h⟩ := d.startGrace_eq n; rw [h]
@[simp] theorem Dev.startGrace_allocs : (d.startGrace n).allocs = d.allocs := by obtain ⟨m, o, h⟩ := d.startGrace_eq n; rw [h]
@[simp] theorem Dev.startGrace_fab : (d.startGrace n).fab = d.fab := by obtain ⟨m, o, h⟩ := d.startGrace_eq n; rw [h]
@[simp] theorem Dev.startGrace_insts : (d.startGrace n).insts = d.insts := by obtain ⟨m, o, h⟩ := d.startGrace_eq n; rw [h]
@[simp] theorem Dev.startGrace_rings : (d.startGrace n).host.rings = d.host.rings := by obtain ⟨m, o, h⟩ := d.startGrace_eq n; rw [h]
@[simp] theorem Dev.startGrace_cause : (d.startGrace n).host.orphanCause = n := by obtain ⟨m, o, h⟩ := d.startGrace_eq n; rw [h]
@[simp] theorem Dev.startGrace_us : (d.startGrace n).host.orphanUs = d.host.grace * 1000000 := by
  obtain ⟨m, o, h⟩ := d.startGrace_eq n; rw [h]

@[simp] theorem Dev.hostState_ctxs : (d.hostState n).ctxs = d.ctxs := by obtain ⟨m, o, h⟩ := d.hostState_eq n; rw [h]
@[simp] theorem Dev.hostState_mem : (d.hostState n).mem = d.mem := by obtain ⟨m, o, h⟩ := d.hostState_eq n; rw [h]
@[simp] theorem Dev.hostState_allocs : (d.hostState n).allocs = d.allocs := by obtain ⟨m, o, h⟩ := d.hostState_eq n; rw [h]
@[simp] theorem Dev.hostState_fab : (d.hostState n).fab = d.fab := by obtain ⟨m, o, h⟩ := d.hostState_eq n; rw [h]
@[simp] theorem Dev.hostState_insts : (d.hostState n).insts = d.insts := by obtain ⟨m, o, h⟩ := d.hostState_eq n; rw [h]
@[simp] theorem Dev.hostState_rings : (d.hostState n).host.rings = d.host.rings := by obtain ⟨m, o, h⟩ := d.hostState_eq n; rw [h]
@[simp] theorem Dev.hostState_state : (d.hostState n).host.state = n := by obtain ⟨m, o, h⟩ := d.hostState_eq n; rw [h]
@[simp] theorem Dev.hostState_cause : (d.hostState n).host.orphanCause = d.host.orphanCause := by
  obtain ⟨m, o, h⟩ := d.hostState_eq n; rw [h]
@[simp] theorem Dev.hostState_us : (d.hostState n).host.orphanUs = d.host.orphanUs := by
  obtain ⟨m, o, h⟩ := d.hostState_eq n; rw [h]

@[simp] theorem Dev.stick_host : (d.stick n).host = d.host := rfl
@[simp] theorem Dev.stick_ctxs : (d.stick n).ctxs = d.ctxs := rfl
@[simp] theorem Dev.stick_mem : (d.stick n).mem = d.mem := rfl
@[simp] theorem Dev.stick_allocs : (d.stick n).allocs = d.allocs := rfl
@[simp] theorem Dev.stick_fab : (d.stick n).fab = d.fab := rfl
@[simp] theorem Dev.stick_insts : (d.stick n).insts = d.insts := rfl

end

/-- Settles O37: the rings lose their sessions, the open contexts their owner, and the rest is the grace's start. -/
theorem orphanAll : Obligations.OrphanAll := by
  intro d cause h5 h7 e
  obtain ⟨r, cs, ho⟩ := d.orphaned_eq
  have hring (k : Nat) (hk : k < 4) := d.ring_orphaned hk
  have hctx (c : Nat) (hc : c < 8) := d.ctx_orphaned hc
  have he : e = d.orphanAll cause := rfl
  clear_value e
  unfold Dev.orphanAll at he
  rw [if_neg (by omega)] at he
  extract_lets d1 d2 _ d3 at he
  have h2 : d2 = d.orphaned := rfl
  rw [← h2] at hring hctx ho
  clear_value d2
  have hc3 : d3.ctxs = d2.ctxs := rfl
  have hr3 : d3.host.rings = d2.host.rings := rfl
  have hg3 : d3.host.grace = d.host.grace := by rw [show d3.host.grace = d2.host.grace from rfl, ho]
  have hm3 : d3.mem = d.mem := by rw [show d3.mem = d2.mem from rfl, ho]
  have ha3 : d3.allocs = d.allocs := by rw [show d3.allocs = d2.allocs from rfl, ho]
  have hf3 : d3.fab = d.fab := by rw [show d3.fab = d2.fab from rfl, ho]
  have hi3 : d3.insts = d.insts := by rw [show d3.insts = d2.insts from rfl, ho]
  clear_value d3
  obtain ⟨q, hq⟩ := (((d3.startGrace cause).hostState 7).stick Sticky.orphaned).record_host { type := Rt.host, status := St.orphaned }
  rw [← he] at hq
  refine ⟨?_, ?_, ?_, fun k hk => ?_, fun c hc8 hopen => ?_, ?_, ?_, ?_, ?_⟩
  · simp [hq]
  · simp [hq]
  · simp [hq, hg3]
  · have : e.ring k = (d.ring k).lost := by simp only [Dev.ring, hq]; simp [hr3]; exact hring k hk
    rw [this]
    exact ⟨rfl, rfl⟩
  · have : e.ctx c = (d.ctx c).orphan := by simp [Dev.ctx, he, hc3]; exact hctx c hc8 hopen
    rw [this]
    exact ⟨rfl, rfl⟩
  · simp [he, hm3]
  · simp [he, ha3]
  · simp [he, hf3]
  · simp [he, hi3]

/-! ## The session commands -/

/-- The end of a session while orphans wait: the ring set's session ends, and the grace runs on. -/
theorem Dev.endSession_of_anyOrphan {d : Dev} {set : Nat} (ho : d.anyOrphan = true) :
    (d.endSession set).ctxs = d.ctxs ∧ ((d.endSession set).ring set).session = false
      ∧ (d.endSession set).host.orphanCause = d.host.orphanCause := by
  obtain ⟨m, o, n, h⟩ := Dev.settleHost_of_anyOrphan (d := d.setRing set { d.ring set with session := false }) ho
  refine ⟨?_, ?_, ?_⟩ <;> rw [Dev.endSession, h]
  · rfl
  · change (Dev.ring (Dev.setRing _ _ _) _).session = false
    rw [Dev.ring_setRing]
  · rfl

theorem Dev.mem_sessionCtxs {d : Dev} {set c : Nat} (h : c ∈ d.sessionCtxs set) : c < 8 ∧ (d.ctx c).isOpen = true := by
  simp only [Dev.sessionCtxs, List.mem_filter, List.mem_range, Bool.and_eq_true] at h
  exact ⟨h.1, h.2.1⟩

/-- sess.bye with HANDOVER of a ring set that owns contexts: they become orphans, and the grace starts with cause 5 (R402, R407). -/
theorem Dev.sessBye_handover {d : Dev} {set : Nat} (hn : d.sessionCtxs set ≠ []) :
    ∃ e : Dev, d.sessBye set 1 = e.done [(d.sessionCtxs set).length]
      ∧ (∀ c, c ∈ d.sessionCtxs set → e.ctx c = (d.ctx c).orphan) ∧ (e.ring set).session = false ∧ e.host.orphanCause = 5 := by
  unfold Dev.sessBye
  extract_lets l d1 _ d2
  rw [if_neg (by decide), if_pos rfl, if_neg (by simpa using hn)]
  have hc (c : Nat) (hl : c ∈ l) : d1.ctx c = (d.ctx c).orphan :=
    (Dev.ctx_foldl_orphanCtx l d c).trans (if_pos ⟨hl, (Dev.mem_sessionCtxs hl).2⟩)
  clear_value d1
  have h2 : d2.ctxs = d1.ctxs := rfl
  clear_value d2
  have ho : (d2.startGrace 5).anyOrphan = true := by
    obtain ⟨c, hl⟩ := List.exists_mem_of_ne_nil l hn
    obtain ⟨h8, hopen⟩ := Dev.mem_sessionCtxs hl
    refine List.any_eq_true.2 ⟨c, List.mem_range.2 h8, ?_⟩
    have hx : (d2.startGrace 5).ctx c = (d.ctx c).orphan := by
      rw [← hc c hl]
      simp only [Dev.ctx, Dev.startGrace_ctxs, h2]
    rw [hx]
    simpa [Ctx.orphan] using hopen
  obtain ⟨h1, h3, h4⟩ := Dev.endSession_of_anyOrphan (set := set) ho
  obtain ⟨q, hq⟩ := (((d2.startGrace 5).endSession set).stick Sticky.orphaned).record_host { type := Rt.host, status := St.orphaned }
  refine ⟨_, rfl, fun c hl => ?_, ?_, ?_⟩
  · rw [Dev.record_ctx, ← hc c hl]
    simp only [Dev.ctx, Dev.stick_ctxs, h1, Dev.startGrace_ctxs, h2]
  · rw [Dev.record_ring]
    exact h3
  · rw [hq]
    exact h4.trans (Dev.startGrace_cause d2 5)

/-- sess.hello of a ring set without a session, which knows version 1 (R401). -/
theorem Dev.sessHello_done {d : Dev} {set vmin vmax grace : Nat} (hs : (d.ring set).session = false) (h1 : vmin ≤ 1) (h2 : 1 ≤ vmax)
    (hg : grace = 0 ∨ (5 ≤ grace ∧ grace ≤ 600)) :
    let d1 := d.setRing set { d.ring set with session := true }
    let d2 : Dev := { d1 with host := { d1.host with grace := if grace = 0 then d1.host.grace else grace } }
    d.sessHello set vmin vmax grace = (d2.hostState 6).done [1, set, d.host.fwVersion.toNat] := by
  have hv : ¬ (1 < vmin ∨ vmax < 1) := by omega
  have hg' : ¬ (grace ≠ 0 ∧ (grace < 5 ∨ 600 < grace)) := by omega
  exact (if_neg hv).trans ((if_neg (by simp [hs])).trans (if_neg hg'))

/-- Settles O3: each command passes its checks and its action ends on the branch that the hypotheses name. -/
theorem sessionCommands : Obligations.SessionCommands := by
  refine ⟨?hello, ?bye, ?adopt, ?reset, ?spdm, ?handover⟩
  case hello =>
    intro s h vmin vmax grace hc hx hs hv1 hv2 hg d d1 d2
    change execSessHello .. = _
    have hf : d.entryFail h { hello := true } = none := by
      obtain ⟨-, hr, hi⟩ := hc
      cases hi' : h.idem <;> simp_all [Dev.entryFail, Dev.ctxFail]
    have hsd : (d.ring h.set).session = false := by simpa [d] using hs
    exact onDev_eq (s.dev.command_eq h hc.1 hf (Dev.sessHello_done hsd hv1 hv2 hg))
  case bye =>
    intro s h hd
    change execSessBye .. = _
    refine onDev_eq (Dev.command_inSession hd.1 rfl ?_)
    simp [Dev.sessBye, Dev.sessionCtxs_of_ownsCtx hd.2, Dev.done]
  case adopt =>
    intro s h hc hs hx ho hor hcl d d1
    change execSessAdopt .. = _
    have hf : (s.dev.take h).entryFail h { ctx := .adopt } = none := by
      obtain ⟨-, hr, hi⟩ := hc
      cases hi' : h.idem <;> simp_all [Dev.entryFail, Dev.ctxFail]
    refine onDev_eq (s.dev.command_eq h hc.1 hf ?_)
    simp [Dev.sessAdopt, Dev.done, d1, d]
  case reset =>
    intro s h force hd hb hf
    change execSessReset .. = _
    have hk : decide (1 < 1 ∨ 1 < force) = false := by simpa using hf
    refine onDev_eq (s.dev.command_silent hd.takes ?_ ?_)
    · rw [hk]
      exact s.dev.entryFail_session h false hd
    · have hb' : (s.dev.take h).anyBound = false := hb
      unfold Dev.sessReset
      rw [if_neg (by decide), if_pos (by simp [hb'])]
  case spdm =>
    intro s h req n rsp room hd h4 hn d m a d1
    change execSessSpdm .. = _
    have hn' : ¬ (n < 4 ∨ 4096 < n) := by omega
    by_cases ha : a.length ≤ room ∧ a.length ≤ 4096
    · rw [if_pos ha]
      refine onDev_eq (Dev.command_inSession hd rfl ?_)
      have ha' : ¬ (room < a.length ∨ 4096 < a.length) := by omega
      simp only [Dev.sessSpdm, if_neg hn']
      exact if_neg ha'
    · rw [if_neg ha]
      refine onDev_eq (Dev.command_inSession hd rfl ?_)
      have ha' : room < a.length ∨ 4096 < a.length := by omega
      simp only [Dev.sessSpdm, if_neg hn']
      exact if_pos ha'
  case handover =>
    intro s h hd ho
    change ∃ d : Dev, execSessBye .. = _ ∧ _
    obtain ⟨e, he, hc, hr, hx⟩ := Dev.sessBye_handover (d := s.dev.take h) (Dev.sessionCtxs_ne_nil ho)
    refine ⟨e, onDev_eq (Dev.command_inSession hd rfl he), fun c hl => ?_, hr, hx⟩
    rw [hc c hl]
    exact ⟨rfl, rfl⟩

end Sys2Proof.Machine
end

section
/-! SUPPORT. Memory and key-value resources that a context holds: what an assignment, an allocation and a release change, and the
statements about contexts and memory. -/

open Sys2Proof Sys2Proof.Machine

namespace Sys2Proof.Machine

/-! ## Assignment of tracker slots and pools (R493) -/

/-- An assignment resets the group's registers and names the owner. -/
theorem Dev.assignOne_eq (d : Dev) (c kind half n : Nat) :
    ∃ b s p, d.assignOne c kind half n = { d with bank := b, slots := s, pools := p } := by
  unfold Dev.assignOne
  extract_lets gid _ fresh
  split
  · split
    · exact ⟨d.bank, d.slots, d.pools, rfl⟩
    · exact ⟨_, _, d.pools, rfl⟩
  · split
    · exact ⟨d.bank, d.slots, d.pools, rfl⟩
    · exact ⟨_, d.slots, _, rfl⟩

theorem Dev.foldl_assignOne_eq (l : List Nat) (d : Dev) (c kind half : Nat) :
    ∃ b s p, l.foldl (fun d n => d.assignOne c kind half n) d = { d with bank := b, slots := s, pools := p } := by
  induction l generalizing d with
  | nil => exact ⟨d.bank, d.slots, d.pools, rfl⟩
  | cons n l ih =>
    obtain ⟨b, s, p, h⟩ := d.assignOne_eq c kind half n
    rw [List.foldl_cons, h]
    exact ih _

theorem Dev.foldl_assignOne_allocs (l : List Nat) (d : Dev) (c kind half : Nat) :
    (l.foldl (fun d n => d.assignOne c kind half n) d).allocs = d.allocs := by
  obtain ⟨b, s, p, h⟩ := Dev.foldl_assignOne_eq l d c kind half
  rw [h]

@[simp] theorem Dev.slot_setSlot (d : Dev) (k : Nat) (x : Slot) : (d.setSlot k x).slot k = x := SMap.get_put_self _ _ _ _
theorem Dev.slot_setSlot_ne (d : Dev) {k j : Nat} (x : Slot) (h : k ≠ j) : (d.setSlot k x).slot j = d.slot j :=
  SMap.get_put_ne _ _ _ h
@[simp] theorem Dev.pool_setPool (d : Dev) (k : Nat) (x : Pool) : (d.setPool k x).pool k = x := SMap.get_put_self _ _ _ _
theorem Dev.pool_setPool_ne (d : Dev) {k j : Nat} (x : Pool) (h : k ≠ j) : (d.setPool k x).pool j = d.pool j :=
  SMap.get_put_ne _ _ _ h

theorem Dev.ownerOf_assignOne {d : Dev} {c kind half n m : Nat} : (d.assignOne c kind half n).ownerOf kind half m
    = if m = n then some c else d.ownerOf kind half m := by
  by_cases hk : kind = 0
  · subst hk
    simp only [Dev.ownerOf, if_true, Dev.assignOne]
    by_cases ho : (d.slot (slotKey half n)).owner = some c
    · by_cases hm : m = n
      · simp [hm, ho]
      · simp [hm, ho]
    · rw [if_neg ho]
      by_cases hm : m = n
      · rw [if_pos hm, hm]
        rw [Dev.slot_setSlot]
      · rw [if_neg hm]
        rw [Dev.slot_setSlot_ne _ _ (by unfold slotKey; omega)]
        rfl
  · simp only [Dev.ownerOf, if_neg hk, Dev.assignOne]
    by_cases ho : (d.pool (poolKey half n)).owner = some c
    · by_cases hm : m = n
      · simp [hm, ho]
      · simp [hm, ho]
    · rw [if_neg ho]
      by_cases hm : m = n
      · rw [if_pos hm, hm]
        rw [Dev.pool_setPool]
      · rw [if_neg hm]
        rw [Dev.pool_setPool_ne _ _ (by unfold poolKey; omega)]
        rfl

/-- What was assigned belongs to the context; the rest keeps its owner. -/
theorem Dev.ownerOf_foldl_assignOne (l : List Nat) (d : Dev) (c kind half m : Nat) :
    (l.foldl (fun d n => d.assignOne c kind half n) d).ownerOf kind half m
      = if m ∈ l then some c else d.ownerOf kind half m := by
  induction l generalizing d with
  | nil => rfl
  | cons n l ih =>
    rw [List.foldl_cons, ih, Dev.ownerOf_assignOne]
    by_cases hl : m ∈ l <;> by_cases hn : m = n <;> simp [hl, hn]

/-! ## Extents -/

/-- Marking extents changes nothing but extents. -/
theorem Dev.foldl_setExtent_eq {α : Type} (l : List α) (k : Dev → α → Nat) (x : Dev → α → Extent) (d : Dev) :
    ∃ m, l.foldl (fun d a => d.setExtent (k d a) (x d a)) d = { d with extents := m } := by
  induction l generalizing d with
  | nil => exact ⟨d.extents, rfl⟩
  | cons a l ih =>
    obtain ⟨m, h⟩ := ih (d.setExtent (k d a) (x d a))
    exact ⟨m, h⟩

/-- A released allocation leaves the list; its extents are forgotten. -/
theorem Dev.dropAlloc_eq (d : Dev) (a : Alloc) :
    ∃ m q, d.dropAlloc a = { d with allocs := d.allocs.filter (· ≠ a), extents := m, deep := q } := by
  obtain ⟨m, h⟩ := Dev.foldl_setExtent_eq a.exts (fun _ e => e) (fun _ _ => {}) { d with
    allocs := d.allocs.filter (· ≠ a)
    deep := d.deep.filter (fun q => !((q.kind = 1 || q.kind = 3 || q.kind = 6) && a.exts.contains q.target)) }
  exact ⟨m, _, h⟩

/-- Freeing allocations that no admitted task holds takes exactly these from the list. -/
theorem Dev.foldl_memFree_eq (l : List Alloc) (d : Dev) (hl : ∀ a, a ∈ l → a.exts.any d.heldExt = false) :
    ∃ s m q, l.foldl Dev.memFree d = { d with allocs := s, extents := m, deep := q } ∧ ∀ a, a ∈ s ↔ a ∈ d.allocs ∧ a ∉ l := by
  induction l generalizing d with
  | nil => exact ⟨d.allocs, d.extents, d.deep, rfl, by simp⟩
  | cons a l ih =>
    obtain ⟨m, q, h⟩ := d.dropAlloc_eq a
    have hf : d.memFree a = d.dropAlloc a := if_neg (by simp [hl a List.mem_cons_self])
    rw [List.foldl_cons, hf, h]
    obtain ⟨s, m', q', h', hs⟩ := ih { d with allocs := d.allocs.filter (· ≠ a), extents := m, deep := q }
      fun b hb => hl b (List.mem_cons_of_mem a hb)
    refine ⟨s, m', q', h', fun b => ?_⟩
    rw [hs]
    simp only [List.mem_filter, List.mem_cons, decide_eq_true_eq, not_or]
    tauto

/-! ## An allocation where there is room (R237, R238) -/

/-- Where enough extents of a half are free, none is evicted. -/
theorem Dev.evictHalves_of_free {d : Dev} {half n : Nat} (m : Mover) (h : n ≤ d.freeHbm half) :
    Dev.evictHalves m [(half, n)] d = (d, .ok) := by
  have hx : Dev.evictFor m half n (hbmExtents + 1) d = (d, .ok) := by
    unfold Dev.evictFor
    rw [if_pos h]
  by_cases hn : n = 0 <;> simp [Dev.evictHalves, hn, hx]

/-- A choice among some is one of them. -/
theorem Dev.at'_pick_mem (d : Dev) {l : List Nat} (h : l ≠ []) : at' l (d.pick l.length) 0 ∈ l := by
  have hp : d.pick l.length < l.length := Nat.mod_lt _ (List.length_pos_iff.2 h)
  simp [at', List.getElem?_eq_getElem hp]

/-- An allocation in one half with room and quota: its base is one of the free runs, and it lies there (R237, R238). -/
theorem Dev.memAlloc_of_room {d : Dev} {c bytes half hint : Nat} {parity : Bool} (m : Mover) (hb : 0 < bytes) (hh : half < 2)
    (ht : hint = 2 ∨ hint = 3) (ho : d.halfOn half = true)
    (hq : d.hbmUsed c half + ceilDiv bytes (2 ^ 21) ≤ at' (d.ctx c).hbmQuota half 0)
    (hr : ceilDiv bytes (2 ^ 21) ≤ d.freeHbm half) (hf : d.freeBases false [half] (ceilDiv bytes (2 ^ 21)) ≠ []) :
    ∃ (i : Nat) (x : SMap Extent), i ∈ d.freeBases false [half] (ceilDiv bytes (2 ^ 21))
      ∧ d.memAlloc m c bytes half hint parity = .ends St.ok (half * 2 ^ 47 + i * 2 ^ 21) { d.drawn with
        allocs := d.allocs ++ [{ ctx := c, base := half * 2 ^ 47 + i * 2 ^ 21, extents := ceilDiv bytes (2 ^ 21), hint := hint,
                                 parity := parity, both := false }]
        extents := x } := by
  have h2 : half ≠ 2 := by omega
  have hi := d.at'_pick_mem hf
  have he := Dev.evictHalves_of_free m hr
  have hl : (if half = 2 then [0, 1] else [half]) = [half] := if_neg h2
  have hr : Dev.evictHalves m (([half] : List Nat).map fun h => (h, ceilDiv bytes (2 ^ 21))) d = (d, .ok) := he
  fun_cases Dev.memAlloc with
  | case1 hn => omega
  | case2 _ hn => omega
  | case3 _ _ hn => omega
  | case4 halves _ _ _ hn =>
    simp only [halves, hl, List.any_cons, List.any_nil, ho] at hn
    cases hn
  | case5 | case6 | case7 => omega
  | case8 n halves _ _ _ _ _ hn =>
    simp only [halves, hl, List.any_cons, List.any_nil, n, Bool.or_false, decide_eq_true_eq] at hn
    omega
  | case9 n halves _ _ _ _ _ _ r hx =>
    simp only [r, halves, hl, n, hr] at hx
    cases hx
  | case10 n halves _ _ _ _ _ _ r hx =>
    simp only [r, halves, hl, n, hr] at hx
    exact absurd hx hf
  | case11 n halves _ _ _ _ _ _ r _ hx =>
    simp only [r, halves, hl, n, hr] at hx
    cases hx
  | case12 n halves _ _ _ _ _ _ r hx =>
    simp only [r, halves, hl, n, hr] at hx
    cases hx
  | case13 n halves _ _ _ _ _ _ r _ _ i new d1 d2 => 
    have hr0 : r = (d, .ok) := by simp only [r, halves, hl, n, hr]
    have hn : ceilDiv bytes (2 ^ 21) = n := rfl
    have hi' : i ∈ d.freeBases false [half] n := by
      simp only [i, hr0, halves, hl]
      exact hi
    have hnew : new = [{ ctx := c, base := half * 2 ^ 47 + i * 2 ^ 21, extents := n, hint := hint, parity := parity, both := false }] := by
      simp only [new, halves, hl, List.map_cons, List.map_nil, decide_eq_false h2]
    have hd1 : d1 = { d.drawn with allocs := d.allocs ++ new } := by simp only [d1, hr0]
    have hd2 : d2 = new.foldl (fun d a => a.exts.foldl (fun d e => d.setExtent e { last := d.bell }) d) d1 := rfl
    rw [hn]
    clear_value d2 d1 new i
    rw [hnew] at hd1
    rw [hnew, List.foldl_cons, List.foldl_nil] at hd2
    obtain ⟨x, hx⟩ := Dev.foldl_setExtent_eq (Alloc.exts {
        ctx := c, base := half * 2 ^ 47 + i * 2 ^ 21, extents := n, hint := hint, parity := parity, both := false })
      (fun _ e => e) (fun d _ => { last := d.bell }) d1
    refine ⟨i, x, hi', ?_⟩
    rw [if_neg h2, hd2, hx, hd1]

/-- An allocation that ends well is answered with its base. -/
theorem MemRes.reply_ends (v : Nat) (d : Dev) (ws : Nat → List Nat) : (MemRes.ends St.ok v d).reply ws = d.done (ws v) := rfl

/-- Settles O6: where there is room nothing is evicted, and the base is drawn from the free runs. -/
theorem allocGivesExtents : Obligations.AllocGivesExtents := by
  intro s h bytes half hint flags hd hb hh ht hf ho n hq hr hfree
  obtain ⟨i, x, hi, hm⟩ := Dev.memAlloc_of_room (d := s.dev.take h) (c := h.ctx) (parity := bit flags 0)
    (.cmd h.ctx s.dev.host.nextId) hb hh ht ho hq hr hfree
  refine ⟨i, { (s.dev.take h).drawn with
    allocs := s.dev.allocs ++ [{ ctx := h.ctx, base := half * 2 ^ 47 + i * 2 ^ 21, extents := n, hint := hint,
                                 parity := bit flags 0, both := false }]
    extents := x }, hi, ?_, rfl, rfl, rfl, rfl⟩
  change execMemAlloc .. = _
  refine onDev_eq (Dev.command_inContext hd ?_ ?_)
  · have hbad : ¬ (2 < half ∨ 1 < flags) := by omega
    rw [decide_eq_false hbad]
  · have hn : (s.dev.take h).host.nextId = s.dev.host.nextId := rfl
    change Dev.memAllocCmd (s.dev.take h) h.ctx bytes half hint flags _ 0 = _
    unfold Dev.memAllocCmd
    rw [if_neg (by decide), hn, hm, MemRes.reply_ends]
    rfl

/-! ## The other memory commands -/

/-- Where a context's use meets the quota, nothing is evicted (R493). -/
theorem Dev.memQuota_of_use {d : Dev} {c half hbm deep : Nat} (m : Mover) (hp : d.pinnedExts c half ≤ hbm)
    (hr : d.residentExts c half ≤ hbm) (hd : d.deepUsed c ≤ deep) : d.memQuota m c [half] hbm deep
      = .ends St.ok 0 (d.updCtx c fun x => { x with hbmQuota := setAt x.hbmQuota half hbm, deepQuota := deep }) := by
  have hs : Dev.shrinkTo m c half hbm deep (d.residentExts c half + 1) d = (d, .ok) := by
    unfold Dev.shrinkTo
    rw [if_pos hr]
  have hc : ¬ (decide (hbm < d.pinnedExts c half) || decide (deep < d.deepUsed c)) = true := by simp [hp, hd]
  unfold Dev.memQuota
  simp only [List.any_cons, List.any_nil, Bool.or_false, if_neg hc, List.foldl_cons, List.foldl_nil, hs, if_true]

/-- A quota below what is pinned or lies deep is refused (R493). -/
theorem Dev.memQuota_exceeded {d : Dev} {c half hbm deep : Nat} (m : Mover)
    (h : hbm < d.pinnedExts c half ∨ deep < (d.ctxExtents c true 0).length) :
    d.memQuota m c [half] hbm deep = .ends St.quotaExceeded 0 d := by
  have hd : (d.ctxExtents c true 0).length ≤ d.deepUsed c := Nat.le_add_right _ _
  refine if_pos ?_
  simp only [List.any_cons, List.any_nil, Bool.or_false, Bool.or_eq_true, decide_eq_true_eq]
  omega

/-- Free slots or pools of a half that is on are assigned one by one (R493). -/
theorem Dev.memAssign_free {d : Dev} {c kind half first count : Nat} (hk : kind ≤ 1) (hh : half < 2) (hc : 0 < count)
    (ht : first + count ≤ (if kind = 0 then 4096 else 256)) (ho : d.halfOn half = true)
    (hf : ∀ n, first ≤ n → n < first + count → d.ownerOf kind half n = none) :
    d.memAssign c kind 0 half first count
      = (St.ok, ((List.range count).map (first + ·)).foldl (fun d n => d.assignOne c kind half n) d) := by
  have hb : ¬ (1 < kind ∨ 1 < 0 ∨ 2 < half) := by omega
  have hn (n : Nat) (hm : n ∈ (List.range count).map (first + ·)) : d.ownerOf kind half n = none := by
    obtain ⟨i, hi, rfl⟩ := List.mem_map.1 hm
    exact hf _ (Nat.le_add_right _ _) (Nat.add_lt_add_left (List.mem_range.1 hi) _)
  unfold Dev.memAssign
  rw [if_neg hb, if_neg (show half ≠ 2 by omega)]
  simp only [List.any_cons, List.any_nil, ho, hc.ne', not_lt.2 ht, Bool.not_true, Bool.or_false, Bool.false_or, decide_false,
    if_true, List.foldl_cons, List.foldl_nil]
  refine if_neg fun hany => ?_
  obtain ⟨n, hm, hx⟩ := List.any_eq_true.1 hany
  rw [hn n hm] at hx
  cases hx

/-- Settles O7: each command's guard is decided by the hypotheses, and its effect is one of the moves above. -/
theorem memoryCommands : Obligations.MemoryCommands := by
  refine ⟨?free, ?hint, ?query, ?assign, ?exceeded, ?quota⟩
  case free =>
    intro s h dpa hd hne hheld
    obtain ⟨l, m, q, he, hl⟩ := Dev.foldl_memFree_eq (s.dev.allocsAt h.ctx dpa) (s.dev.take h) hheld
    refine ⟨{ s.dev.take h with allocs := l, extents := m, deep := q }, ?_, hl, rfl⟩
    change execMemFree .. = _
    refine onDev_eq (Dev.command_inContext hd rfl ?_)
    have ht : (s.dev.take h).allocsAt h.ctx dpa = s.dev.allocsAt h.ctx dpa := rfl
    unfold Dev.memFreeCmd
    rw [ht]
    split
    next hnil => exact absurd hnil hne
    next => rw [he]; rfl
  case hint =>
    intro s h dpa hd hne htier
    change execMemHint .. = _
    refine onDev_eq (Dev.command_inContext hd rfl ?_)
    have ht : (s.dev.take h).allocsAt h.ctx dpa = s.dev.allocsAt h.ctx dpa := rfl
    unfold Dev.memHintCmd
    rw [ht]
    split
    next hnil => exact absurd hnil hne
    next a l hl =>
      have ha : tierOf a.base ≠ 8 := by rw [htier a (hl ▸ List.mem_cons_self)]; decide
      rw [if_neg ha, if_neg (by decide), if_pos rfl, hl]
      rfl
  case query =>
    intro s h c hd hm
    refine ⟨((s.dev.ctxExtents c false 0 ++ s.dev.ctxExtents c false 1).filter (fun e => (s.dev.extent e.2).evicted)).length, ?_⟩
    change execMemQuery .. = _
    refine onDev_eq (Dev.command_inSession hd rfl ?_)
    have hm' : (s.dev.take h).mayQuota h.set c = true := hm
    exact if_neg (by simp [hm'])
  case assign =>
    intro s h kind half first count hd hk hh hc htop ho howner
    have hmem (n : Nat) (h1 : first ≤ n) (h2 : n < first + count) : n ∈ (List.range count).map (first + ·) :=
      List.mem_map.2 ⟨n - first, List.mem_range.2 (by omega), by omega⟩
    have hown (n : Nat) (h1 : first ≤ n) (h2 : n < first + count) := Dev.ownerOf_foldl_assignOne ((List.range count).map (first + ·))
      (s.dev.take h) h.ctx kind half n
    obtain ⟨b, sl, p, he⟩ := Dev.foldl_assignOne_eq ((List.range count).map (first + ·)) (s.dev.take h) h.ctx kind half
    refine ⟨((List.range count).map (first + ·)).foldl (fun d n => d.assignOne h.ctx kind half n) (s.dev.take h), ?_,
      fun n h1 h2 => (hown n h1 h2).trans (if_pos (hmem n h1 h2)), ?_, ?_⟩
    · change execMemAssign .. = _
      have hb : ¬ (1 < kind ∨ 1 < 0 ∨ 2 < half) := by omega
      refine onDev_eq (Dev.command_inContext hd (by rw [decide_eq_false hb]) ?_)
      unfold Dev.memAssignCmd
      rw [Dev.memAssign_free (d := s.dev.take h) hk hh hc htop ho howner]
      rfl
    · rw [he]; rfl
    · rw [he]; rfl
  case exceeded =>
    intro s h c half hbm deep hd hm hh hx
    change execMemQuota .. = _
    have hb : ¬ 2 < half := by omega
    refine onDev_eq (Dev.command_inSession hd (by rw [decide_eq_false hb]) ?_)
    have hm' : (s.dev.take h).mayQuota h.set c = true := hm
    change Dev.memQuotaCmd (s.dev.take h) h.set c half hbm deep _ 0 = _
    unfold Dev.memQuotaCmd
    rw [if_neg (by simp [hm']), if_neg (by decide), if_neg (show half ≠ 2 by omega), Dev.memQuota_exceeded (d := s.dev.take h) _ hx]
    rfl
  case quota =>
    intro s h c half hbm deep hd hm hh hp _ hr hu
    refine ⟨(s.dev.take h).updCtx c fun x => { x with hbmQuota := setAt x.hbmQuota half hbm, deepQuota := deep }, ?_, ?_, ?_, rfl, rfl⟩
    · change execMemQuota .. = _
      have hb : ¬ 2 < half := by omega
      refine onDev_eq (Dev.command_inSession hd (by rw [decide_eq_false hb]) ?_)
      have hm' : (s.dev.take h).mayQuota h.set c = true := hm
      change Dev.memQuotaCmd (s.dev.take h) h.set c half hbm deep _ 0 = _
      unfold Dev.memQuotaCmd
      rw [if_neg (by simp [hm']), if_neg (by decide), if_neg (show half ≠ 2 by omega), Dev.memQuota_of_use (d := s.dev.take h) _ hp hr hu,
        MemRes.reply_ends]
      rfl
    · rw [Dev.updCtx, Dev.ctx_setCtx]; rfl
    · rw [Dev.updCtx, Dev.ctx_setCtx]

/-! ## The context commands -/

/-- The first context that is not open. -/
theorem Dev.find?_closed {d : Dev} {c : Nat} (hc : c < 8) (ho : (d.ctx c).isOpen = false) (hl : ∀ k, k < c → (d.ctx k).isOpen = true) :
    (List.range 8).find? (fun c => !(d.ctx c).isOpen) = some c := by
  rw [List.find?_range_eq_some]
  exact ⟨by simp [ho], List.mem_range.2 hc, fun k hk => by simp [hl k hk]⟩

/-- The allocations of a snapshot are added to those of the context; what follows takes extents, quotas, slots and pools (R402). -/
theorem Dev.restoreAllocs_done {d : Dev} {c bytes : Nat} {rd : Reader} (hn : (d.ctx c).older = none) (hr : snapReadable rd bytes = true)
    (hc : (snapAllocs rd c).any ((d.closeCtx c).setCtx c
      { d.ctx c with graphs := [], poisonCount := 0, repairs := [], restored := true }).restoreClash = false)
    (ht : ∀ k half, k < 2 → half < 2 → d.restoreTaken rd c k half = false) :
    ∃ e : Dev, d.restoreAllocs c rd bytes = e.done [(snapAllocs rd c).length] ∧ e.allocs = (d.closeCtx c).allocs ++ snapAllocs rd c := by
  have h0 : ¬ (d.ctx c).older.isSome = true := by simp [hn]
  have hr' : ¬ (!snapReadable rd bytes) = true := by simp [hr]
  have ht' : ¬ ([0, 1].any fun h => d.restoreTaken rd c 0 h || d.restoreTaken rd c 1 h) = true := by simp [ht]
  unfold Dev.restoreAllocs
  rw [if_neg h0, if_neg hr']
  extract_lets x d0 l d1 d2 o d3 d4
  have hg : ¬ ((l.any d0.restoreClash || [0, 1].any fun h => d.restoreTaken rd c 0 h || d.restoreTaken rd c 1 h) = true) := by
    rw [Bool.or_eq_true, not_or]
    exact ⟨by simp [l, d0, x, hc], ht'⟩
  rw [if_neg hg]
  have h1 : d1.allocs = (d.closeCtx c).allocs ++ l := rfl
  clear_value d1
  have h2 : d2.allocs = d1.allocs := by
    obtain ⟨m, hm⟩ := Dev.foldl_setExtent_eq (l.flatMap Alloc.exts) (fun _ e => e) (fun d _ => { last := d.bell }) d1
    simp only [d2, hm]
  clear_value d2
  have h3 : d3.allocs = d2.allocs := by
    unfold d3
    split <;> rfl
  clear_value d3
  have h4 : d4.allocs = d3.allocs := by
    refine foldl_fixes Dev.allocs (fun e h => ?_) [0, 1] d3
    rw [Dev.foldl_assignOne_allocs, Dev.foldl_assignOne_allocs]
  exact ⟨d4, rfl, by rw [h4, h3, h2, h1]⟩

/-- Settles O5: the context that opens is the first that is not, and the others answer what their hypotheses say. -/
theorem contextCommands : Obligations.ContextCommands := by
  refine ⟨?opens, ?closes, ?snapshot, ?restore, ?query⟩
  case opens =>
    intro s h c hd hc ho hl d t
    change execCtxOpen .. = _
    refine onDev_eq (Dev.command_inSession hd rfl ?_)
    have hf : (List.range 8).find? (fun c => !((s.dev.take h).ctx c).isOpen) = some c := Dev.find?_closed hc ho hl
    unfold Dev.ctxOpen
    rw [hf]
    rfl
  case closes =>
    intro s h hd hn d hm
    change execCtxClose .. = _
    refine onDev_eq (Dev.command_inContext hd rfl ?_)
    have hn' : ¬ ((s.dev.take h).ctx h.ctx).older.isSome = true := by rw [Dev.take_ctx, hn]; exact Bool.false_ne_true
    exact (if_neg hn').trans (if_pos hm)
  case snapshot =>
    intro s h buf room hd hb d b
    change execCtxSnapshot .. = _
    exact onDev_eq (Dev.command_inContext hd rfl (if_pos hb))
  case restore =>
    intro s h buf bytes hd hn d rd d0 hr hc ht
    obtain ⟨e, he, ha⟩ := Dev.restoreAllocs_done (d := d) hn hr hc ht
    refine ⟨e, ?_, ha⟩
    change execCtxRestore .. = _
    refine onDev_eq (Dev.command_inContext hd rfl ?_)
    unfold Dev.ctxRestore
    rw [if_pos rfl]
    exact he
  case query =>
    intro s h hd d
    change execCtxQuery .. = _
    exact onDev_eq (Dev.command_inContext hd rfl rfl)

end Sys2Proof.Machine
end

section
/-! SUPPORT. Graphs, steps and key-value sequences: what the release of a table and the end of a step leave alone, and the
statements about their commands. -/

open Sys2Proof Sys2Proof.Machine

namespace Sys2Proof.Machine

/-! ## Graphs

The checks of a graph read nothing of the host interface. -/

section
variable (d : Dev) (x : HostIf) (c : Nat) (g : GraphHdr)

theorem Dev.precedes_host (b n : Nat) (front : List Nat) : ({ d with host := x } : Dev).precedes g b n front = d.precedes g b n front := by
  induction n generalizing front with
  | zero => rfl
  | succ n ih =>
    unfold Dev.precedes
    simp only [ih]
    rfl

theorem Dev.recordFail_host (task : Nat) : ({ d with host := x } : Dev).recordFail c g task = d.recordFail c g task := by
  unfold Dev.recordFail
  simp only [Dev.precedes_host]
  rfl

theorem Dev.recordsFail_host : ({ d with host := x } : Dev).recordsFail c g = d.recordsFail c g := by
  unfold Dev.recordsFail
  simp only [Dev.recordFail_host]
  rfl

theorem Dev.graphFail_host (image : Nat) : ({ d with host := x } : Dev).graphFail c image = d.graphFail c image := by
  have hr : ({ d with host := x } : Dev).readGraph image = d.readGraph image := rfl
  have hh : ({ d with host := x } : Dev).headerLimit c image = d.headerLimit c image := rfl
  have hl : ({ d with host := x } : Dev).limitBad c image = d.limitBad c image := rfl
  have hi : ({ d with host := x } : Dev).imageReserved image = d.imageReserved image := rfl
  have hg : ({ d with host := x } : Dev).graphInvalid c = d.graphInvalid c := rfl
  have hc : ({ d with host := x } : Dev).cyclic = d.cyclic := rfl
  have hb : ({ d with host := x } : Dev).hintsBad = d.hintsBad := rfl
  have hd : ({ d with host := x } : Dev).ladderBad c = d.ladderBad c := rfl
  have hf : ({ d with host := x } : Dev).formsBad c = d.formsBad c := rfl
  unfold Dev.graphFail
  simp only [hr, hh, hl, hi, hg, hc, hb, hd, hf, Dev.recordsFail_host]

end

@[simp] theorem Dev.take_graphFail (d : Dev) (h : Hdr) (c image : Nat) : (d.take h).graphFail c image = d.graphFail c image :=
  d.graphFail_host _ c image

/-- Settles O8: the checks are decided first, and the rest is the context's list of graphs. -/
theorem graphCommands : Obligations.GraphCommands := by
  refine ⟨?load, ?refused, ?unload, ?busy⟩
  case load =>
    intro s h image hd hf gid
    change execGraphLoad .. = _
    refine onDev_eq (Dev.command_inContext hd rfl ?_)
    unfold Dev.graphLoad
    rw [Dev.take_graphFail, hf]
    rfl
  case refused =>
    intro s h image st hd hf
    change execGraphLoad .. = _
    refine onDev_eq (Dev.command_inContext hd rfl ?_)
    unfold Dev.graphLoad
    rw [Dev.take_graphFail, hf]
    rfl
  case unload =>
    intro s h gid hd hs hh
    change execGraphUnload .. = _
    refine onDev_eq (Dev.command_inContext hd rfl ?_)
    have hn : ¬ (((s.dev.take h).ctx h.ctx).graph? gid).isNone = true := by
      rw [Dev.take_ctx, Option.isNone_iff_eq_none]; exact Option.isSome_iff_ne_none.1 hs
    have hh' : ¬ (s.dev.take h).graphHeld h.ctx gid = true := by
      have : (s.dev.take h).graphHeld h.ctx gid = false := hh
      rw [this]; exact Bool.false_ne_true
    exact (if_neg hn).trans (if_neg hh')
  case busy =>
    intro s h gid hd hs hh
    change execGraphUnload .. = _
    refine onDev_eq (Dev.command_inContext hd rfl ?_)
    have hn : ¬ (((s.dev.take h).ctx h.ctx).graph? gid).isNone = true := by
      rw [Dev.take_ctx, Option.isNone_iff_eq_none]; exact Option.isSome_iff_ne_none.1 hs
    exact (if_neg hn).trans (if_pos hh)

/-! ## Key-value sequences -/

/-- What the commands on a sequence's table leave alone: contexts, allocations and the list of sequences. -/
def Dev.holding (d : Dev) : SMap Ctx × List Alloc × List Nat := (d.ctxs, d.allocs, d.seqs)

theorem Dev.foldl_deepGive_holding (half p : Nat) (l : List Nat) (d : Dev) :
    (l.foldl (fun d i => d.deepGive half p i) d).holding = d.holding :=
  foldl_fixes Dev.holding (f := fun d i => d.deepGive half p i) (fun _ _ => rfl) l d

theorem Dev.unshareTable_holding (d : Dev) (half p table entries : Nat) :
    (d.unshareTable half p table entries).holding = d.holding :=
  foldl_fixes Dev.holding (f := fun d f => d.shareDown half p f) (fun _ _ => rfl) _ d

theorem Dev.record_holding (d : Dev) (e : Ev) : (d.record e).holding = d.holding := by
  rw [Dev.record_eq]
  rfl

theorem Dev.freeTable_holding (d : Dev) (r : RetiredTable) : (d.freeTable r).holding = d.holding := by
  unfold Dev.freeTable
  extract_lets d1 d2
  have h1 : d1.holding = d.holding :=
    (Dev.foldl_deepGive_holding r.half r.pool r.deep _).trans (d.unshareTable_holding _ _ _ _)
  have h2 : d2.holding = d.holding := (d1.record_holding _).trans h1
  split
  · unfold Dev.ring!
    split <;> exact h2
  · exact h2

theorem Dev.retire_holding (d : Dev) (r : RetiredTable) : (d.retire r).1.holding = d.holding := by
  unfold Dev.retire
  split
  · exact d.freeTable_holding r
  · rfl

/-! ## The end of a step -/

theorem Dev.inContext.idem {d : Dev} {h : Hdr} (hd : d.inContext h false) : d.inContext h true :=
  ⟨⟨hd.1.1, hd.1.2.1, fun _ => rfl⟩, hd.2⟩

section
variable (d : Dev) (c : Nat) (newer : Bool)

theorem Dev.store_holding (a : Nat) (l : List Byte) : (d.store a l).holding = d.holding := rfl

theorem Dev.putSeq_holding (a : Nat) (r : SeqRec) : (d.putSeq a r).holding = d.holding := d.store_holding a _

theorem Dev.seqFallBack_holding (a : Nat) : (d.seqFallBack a).holding = d.holding := by
  unfold Dev.seqFallBack
  extract_lets
  split <;> rfl

theorem Dev.kvUnlock_holding (x : Inst) : (d.kvUnlock x).holding = d.holding := by
  refine foldl_fixes Dev.holding (f := fun d a => d.setLock a false) (fun e a => ?_) x.kvLocks d
  unfold Dev.setLock
  extract_lets
  split <;> rfl

theorem Dev.dropSnaps_holding (i : Inst) : (d.dropSnaps i).holding = d.holding := by
  unfold Dev.dropSnaps
  extract_lets d1 me upd
  have h1 : d1.holding = d.holding := by
    refine foldl_fixes Dev.holding (fun e s => ?_) i.kv d
    extract_lets
    split <;> rfl
  exact (foldl_fixes Dev.holding (f := fun d r => d.freeTable r) (fun e r => e.freeTable_holding r) _ _).trans h1

theorem Dev.ctxs_of_holding {d e : Dev} (h : e.holding = d.holding) : e.ctxs = d.ctxs := congrArg (·.1) h

theorem Dev.dropAlloc_ctxs (a : Alloc) : (d.dropAlloc a).ctxs = d.ctxs := by
  obtain ⟨m, q, h⟩ := d.dropAlloc_eq a
  rw [h]

theorem Dev.dropSpill_ctxs (r : StepRun) : (d.dropSpill r).ctxs = d.ctxs :=
  foldl_fixes Dev.ctxs (f := fun d a => d.dropAlloc a) (fun e a => e.dropAlloc_ctxs a) _ d

theorem Dev.reapFreeing_ctxs : d.reapFreeing.ctxs = d.ctxs :=
  foldl_fixes Dev.ctxs (f := fun d a => d.dropAlloc a) (fun e a => e.dropAlloc_ctxs a) _ d

theorem Dev.screenDrop_ctxs : (d.screenDrop c).ctxs = d.ctxs := by
  refine foldl_fixes Dev.ctxs (fun e k => ?_) (d.slotsOf c) d
  rfl

/-- A change of the older step leaves the newer one. -/
theorem Dev.updStep_newer (f : StepRun → StepRun) : ((d.updStep c false f).ctx c).newer = (d.ctx c).newer := by
  unfold Dev.updStep Dev.updCtx
  rw [Dev.ctx_setCtx]
  dsimp only
  split <;> rfl

theorem Dev.ctx_newer_of_holding {d e : Dev} {c : Nat} (h : e.holding = d.holding) : (e.ctx c).newer = (d.ctx c).newer := by
  unfold Dev.ctx
  rw [Dev.ctxs_of_holding h]

theorem Dev.ctx_newer_of_ctxs {d e : Dev} {c : Nat} (h : e.ctxs = d.ctxs) : (e.ctx c).newer = (d.ctx c).newer := by
  unfold Dev.ctx
  rw [h]

theorem Dev.kvAbandon_newer : ((d.kvAbandon c false).ctx c).newer = (d.ctx c).newer := by
  unfold Dev.kvAbandon
  split
  next r _ =>
    exact (Dev.ctx_newer_of_holding (foldl_fixes Dev.holding (f := fun d a => d.seqFallBack a)
      (fun e a => e.seqFallBack_holding a) r.appended _)).trans (d.updStep_newer c _)
  · rfl

theorem Dev.dropWork_newer : ((d.dropWork c false).ctx c).newer = (d.ctx c).newer := by
  unfold Dev.dropWork
  extract_lets mine d1 d2 pins _ _ d3 d4 d5 d6
  have h1 : d1.holding = d.holding := foldl_fixes Dev.holding (f := Dev.dropSnaps) (fun e i => e.dropSnaps_holding i) mine d
  clear_value d1
  have h2 : d2.holding = d1.holding := foldl_fixes Dev.holding (f := Dev.kvUnlock) (fun e i => e.kvUnlock_holding i) mine d1
  clear_value d2
  have h3 : d3.ctxs = d2.ctxs := rfl
  clear_value d3
  have h4 : (d4.ctx c).newer = (d3.ctx c).newer := by
    unfold d4 Dev.updCtx
    rw [Dev.ctx_setCtx]
    rfl
  clear_value d4
  have h5 : (d5.ctx c).newer = (d4.ctx c).newer := d4.updStep_newer c _
  clear_value d5
  have h6 : d6.ctxs = d5.ctxs := by
    refine foldl_fixes Dev.ctxs (fun e k => ?_) _ d5
    rfl
  clear_value d6
  rw [Dev.ctx_newer_of_ctxs d6.reapFreeing_ctxs, Dev.ctx_newer_of_ctxs h6, h5, h4, Dev.ctx_newer_of_ctxs h3,
    Dev.ctx_newer_of_holding h2, Dev.ctx_newer_of_holding h1]

theorem Dev.dropNewer_newer : ((d.dropNewer c).ctx c).newer = none := by
  unfold Dev.dropNewer
  split
  · unfold Dev.updCtx
    rw [Dev.ctx_setCtx]
  next h => exact h

/-- A step that ends with a status leaves no step behind, and is remembered with it (R290). -/
theorem Dev.endStep_older {r : StepRun} {st : Status} (h : (d.ctx c).older = some r) :
    ((d.endStep c false st).ctx c).older = none ∧ ((d.endStep c false st).ctx c).newer = none
      ∧ ((d.endStep c false st).ctx c).lastEnded.head? = some (r.p.step, st) := by
  generalize he : d.endStep c false st = e
  unfold Dev.endStep at he
  rw [if_neg Bool.false_ne_true, h] at he
  dsimp -zeta only at he
  extract_lets d1 d2 at he
  have h1 : (d1.ctx c).newer = none := by
    unfold d1
    rw [Dev.ctx_newer_of_ctxs (Dev.screenDrop_ctxs _ c), Dev.ctx_newer_of_ctxs (Dev.dropSpill_ctxs _ r), Dev.dropWork_newer,
      Dev.kvAbandon_newer, Dev.dropNewer_newer]
  clear_value d1
  have h2 : (d2.ctx c).newer = none := by
    unfold d2 Dev.updCtx
    rw [Dev.ctx_setCtx]
    exact h1
  clear_value d2
  unfold Dev.scrubBoundary Dev.leaveStep Dev.updCtx at he
  rw [← he]
  simp only [Dev.ctx_setCtx, Dev.record_ctx]
  exact ⟨trivial, h2, rfl⟩

end

/-- An abort of a step that has ended answers the status it ended with. -/
theorem Dev.stepAbortAgain_ended {d : Dev} {c step : Nat} {st : Status} (ho : (d.ctx c).older = none) (hn : (d.ctx c).newer = none)
    (hl : (d.ctx c).lastEnded.head? = some (step, st)) : d.stepAbortAgain c step = d.done [st.toNat] := by
  obtain ⟨l, hl⟩ : ∃ l, (d.ctx c).lastEnded = (step, st) :: l := by
    cases hx : (d.ctx c).lastEnded with
    | nil => rw [hx] at hl; cases hl
    | cons p l => rw [hx] at hl; cases hl; exact ⟨l, rfl⟩
  have hf : ((d.ctx c).lastEnded.find? fun e => decide (e.1 = step)) = some (step, st) := by simp [hl]
  unfold Dev.stepAbortAgain
  have ha : ¬ ((d.ctx c).anyStep fun r => decide (r.p.step = step)) = true := by simp [Ctx.anyStep, ho, hn]
  rw [if_neg ha, hf]

/-- Settles O9: a submit passes the checks in their order, an abort of a loaded step ends it at once. -/
theorem stepCommands : Obligations.StepCommands := by
  refine ⟨?submit, ?abort, ?query⟩
  case submit =>
    intro s h p g hd hn hr hb hg hs hx hsch hm hm' ho hw hst r
    change execStepSubmit .. = _
    have hbad : ¬ (2 < p.nanPolicy ∨ (7 < p.replayMax ∧ p.replayMax ≠ 0xFF) ∨ 2 ^ 48 ≤ p.startBell) := by omega
    refine onDev_eq (Dev.command_inContext hd.idem (by rw [decide_eq_false hbad]) ?_)
    have hs' : ¬ (s.dev.take h).sameStep h.ctx p = true := by
      rw [show (s.dev.take h).sameStep h.ctx p = false from hs]; exact Bool.false_ne_true
    have hg' : (s.dev.take h).stepGraph h.ctx p.graph = some g := hg
    have hq : (s.dev.take h).stepParams g p = p := by
      unfold Dev.stepParams
      rw [if_neg (by omega)]
    unfold Dev.stepSubmit
    rw [if_neg hs', Dev.take_ctx, if_neg hx, hg']
    dsimp only
    rw [hq, if_neg (show ¬ 3 < p.schedule by omega), if_neg (show ¬ (p.mbCount = 0 ∨ g.mbMax < p.mbCount) by omega),
      if_neg (show ¬ (p.schedule = 1 ∧ _) from fun hc => by omega)]
    rw [if_neg (by rw [hw, ho, hst]; simp)]
    unfold Dev.updCtx Dev.done
    rw [Dev.take_ctx]
    dsimp only
    rw [if_neg (by rw [ho]; exact Bool.false_ne_true)]
    rfl
  case abort =>
    intro s h r hd ho hr
    change execStepAbort .. = _
    refine onDev_eq (Dev.command_inContext hd.idem rfl ?_)
    have ho' : ((s.dev.take h).ctx h.ctx).older = some r := ho
    obtain ⟨h1, h2, h3⟩ := Dev.endStep_older (s.dev.take h) h.ctx (st := St.stepAborted) ho'
    unfold Dev.stepAbort
    dsimp only
    rw [ho']
    dsimp only
    rw [if_pos rfl, if_pos hr, Dev.stepAbortAgain_ended h1 h2 h3]
    rfl
  case query =>
    intro s h step hd ho
    change execStepQuery .. = _
    refine onDev_eq (Dev.command_inContext hd rfl ?_)
    unfold Dev.stepQuery
    rw [Dev.take_ctx, ho]
    rfl

end Sys2Proof.Machine
end

section
/-! SUPPORT. The commands and the ports that act on key-value sequences, and the statements about them. -/

open Sys2Proof Sys2Proof.Machine

namespace Sys2Proof.Machine

/-- What a context holds after a sequence's record is written and the list replaced. -/
def Dev.withSeqs (d : Dev) (l : List Nat) : Dev := { d with seqs := l }

theorem Dev.putSeq_withSeqs_holding (d : Dev) (a : Nat) (r : SeqRec) (l : List Nat) :
    ((d.putSeq a r).withSeqs l).holding = (d.ctxs, d.allocs, l) := by
  have h := d.putSeq_holding a r
  generalize d.putSeq a r = e at h ⊢
  exact congrArg (fun x => (x.1, x.2.1, l)) h

/-- A released sequence leaves the list; contexts and allocations stay (R229). -/
theorem Dev.kvRelease_done {d : Dev} {a : Nat} (hl : (d.seqRec a).provLen = (d.seqRec a).committedLen) :
    ∃ (e : Dev) (free : Bool), d.kvRelease a (d.seqRec a).gen = (St.ok, free, e)
      ∧ e.holding = (d.ctxs, d.allocs, d.seqs.filter (· ≠ a)) := by
  have hn : ¬ ((d.seqRec a).gen ≠ (d.seqRec a).gen ∨ (d.seqRec a).provLen ≠ (d.seqRec a).committedLen) :=
    fun h => h.elim (fun h => h rfl) (fun h => h hl)
  unfold Dev.kvRelease
  split
  next half p hp =>
    rw [if_neg hn]
    extract_lets hold d1 _ d2 res
    have h1 : d1.holding = d.holding := Dev.foldl_deepGive_holding half p _ d
    have h2 : d2.holding = (d1.ctxs, d1.allocs, d1.seqs.filter (· ≠ a)) := Dev.putSeq_withSeqs_holding d1 a _ _
    refine ⟨res.1, res.2, rfl, (Dev.retire_holding d2 _).trans ?_⟩
    rw [h2, show d1.ctxs = d.ctxs from congrArg (·.1) h1, show d1.allocs = d.allocs from congrArg (·.2.1) h1,
      show d1.seqs = d.seqs from congrArg (·.2.2) h1]

/-! A command on a sequence of the context's own, of which nothing else waits, does what the change of the table does. -/

section
variable {d : Dev} {c a pt entries gen ix e since : Nat}

theorem Dev.kvSwapCmd_eq (hm : d.seqMine c a = true) (hw : d.seqWaits a since true = false) (ho : d.ctxOwns c pt = true) :
    d.kvSwapCmd c a pt entries gen since = let r := d.kvSwap a pt entries gen none
      if r.1 = St.ok then r.2.2.done [(r.2.2.seqRec a).gen, flag r.2.1 0] else d.refuse r.1 := by
  unfold Dev.kvSwapCmd
  rw [hm, hw, ho]
  rfl

theorem Dev.kvSetCmd_eq (hm : d.seqMine c a = true) (hw : d.seqWaits a since false = false) :
    d.kvSetCmd c a ix e gen since = let r := d.kvSet a ix e gen
      if r.1 = St.ok then r.2.done [(r.2.seqRec a).gen] else d.refuse r.1 := by
  unfold Dev.kvSetCmd
  rw [hm, hw]
  rfl

theorem Dev.kvReleaseCmd_eq (hm : d.seqMine c a = true) (hw : d.seqWaits a since true = false) :
    d.kvReleaseCmd c a gen since = let r := d.kvRelease a gen
      if r.1 = St.ok then r.2.2.done [flag r.2.1 0] else d.refuse r.1 := by
  unfold Dev.kvReleaseCmd
  rw [hm, hw]
  rfl

/-! A generation that is not the record's changes nothing. -/

theorem Dev.kvSwap_stale (hg : gen ≠ (d.seqRec a).gen) (port : Option Nat) :
    d.kvSwap a pt entries gen port = (St.ptGeneration, false, d) := by
  unfold Dev.kvSwap
  split
  exact if_pos (.inl hg)

theorem Dev.kvSet_stale (hg : gen ≠ (d.seqRec a).gen) : d.kvSet a ix e gen = (St.ptGeneration, d) := by
  unfold Dev.kvSet
  split
  exact if_pos (.inl hg)

theorem Dev.kvRelease_stale (hg : gen ≠ (d.seqRec a).gen) : d.kvRelease a gen = (St.ptGeneration, false, d) := by
  unfold Dev.kvRelease
  split
  exact if_pos (.inl hg)

end

/-- Settles O10: the guards are decided by the hypotheses, and a generation that is not the record's is the first thing that each
change of a table looks at. -/
theorem kvCommands : Obligations.KvCommands := by
  refine ⟨?create, ?swap, ?sets, ?release, ?query, ?stale⟩
  case create =>
    intro s h a pt stats entries len pool hq flags hd hf hs hg hb hc hl r d
    change execKvCreate .. = _
    have hbad : ¬ (flags ≠ 0 ∧ flags ≠ 2) := by omega
    refine onDev_eq (Dev.command_inContext hd (by rw [decide_eq_false hbad]) ?_)
    have hs' : ¬ (s.dev.take h).seqs.contains a = true := by
      rw [show (s.dev.take h).seqs = s.dev.seqs from rfl, hs]; exact Bool.false_ne_true
    have hg' : (s.dev.take h).createGuard h.ctx a = none := by
      unfold Dev.createGuard
      rw [show (s.dev.take h).guard? a 64 = none from hg]
      rfl
    have hb' : ¬ (s.dev.take h).createBad h.ctx a pt stats pool hq = true := by
      rw [show (s.dev.take h).createBad h.ctx a pt stats pool hq = false from hb]; exact Bool.false_ne_true
    have hc' : (s.dev.take h).checkTable (halfOf a) pool pt entries none = 0 := hc
    unfold Dev.kvCreateCmd
    rw [if_neg hs', hg']
    dsimp only
    rw [if_neg hb', hc', if_neg (show ¬ 16 * entries < len by omega)]
    rfl
  case swap =>
    intro s h a pt entries gen hd hm hw ho r hr
    change execKvSwap .. = _
    refine onDev_eq (Dev.command_inContext hd rfl ?_)
    exact (Dev.kvSwapCmd_eq (d := s.dev.take h) hm hw ho).trans (if_pos hr)
  case sets =>
    intro s h a ix gen e hd hm hw r hr
    change execKvSet .. = _
    refine onDev_eq (Dev.command_inContext hd rfl ?_)
    exact (Dev.kvSetCmd_eq (d := s.dev.take h) hm hw).trans (if_pos hr)
  case release =>
    intro s h a hd hm hw hl
    obtain ⟨e, free, he, hh⟩ := Dev.kvRelease_done (d := s.dev.take h) (a := a) hl
    refine ⟨e, free, ?_, congrArg (·.2.2) hh, congrArg (·.2.1) hh, congrArg (·.1) hh⟩
    change execKvRelease .. = _
    refine onDev_eq (Dev.command_inContext hd rfl ?_)
    refine (Dev.kvReleaseCmd_eq (d := s.dev.take h) hm hw).trans ?_
    have hr : (s.dev.take h).seqRec a = s.dev.seqRec a := rfl
    rw [hr] at he
    rw [he]
    rfl
  case query =>
    intro s h a hd hm r
    change execKvQuery .. = _
    refine onDev_eq (Dev.command_inContext hd rfl ?_)
    have hm' : (s.dev.take h).seqMine h.ctx a = true := hm
    exact if_neg (by rw [hm']; exact Bool.false_ne_true)
  case stale =>
    intro s h a pt entries ix gen e hd hm hw hw' ho hg
    refine ⟨?_, ?_, ?_⟩
    · change execKvSwap .. = _
      refine onDev_eq (Dev.command_inContext hd rfl ((Dev.kvSwapCmd_eq (d := s.dev.take h) hm hw ho).trans ?_))
      rw [Dev.kvSwap_stale (d := s.dev.take h) hg none]
      rfl
    · change execKvSet .. = _
      refine onDev_eq (Dev.command_inContext hd rfl ((Dev.kvSetCmd_eq (d := s.dev.take h) hm hw').trans ?_))
      rw [Dev.kvSet_stale (d := s.dev.take h) hg]
      rfl
    · change execKvRelease .. = _
      refine onDev_eq (Dev.command_inContext hd rfl ((Dev.kvReleaseCmd_eq (d := s.dev.take h) hm hw).trans ?_))
      rw [Dev.kvRelease_stale (d := s.dev.take h) hg]
      rfl

end Sys2Proof.Machine
end

section
/-! SUPPORT. The ports, the accesses and the doorbells of the hub cores, and the statements about them. -/

open Sys2Proof Sys2Proof.Machine

namespace Sys2Proof.Machine

/-! ## The KV port and the draw port -/

theorem Dev.kvPortStart_of_idle {d : Dev} {half core c : Nat} (op : Nat) (hh : d.halfOn half = true) (hc : core < 48)
    (hb : (d.hub (hubKey half core)).kvBusy = false) (hx : d.hubCtx half core = some c) :
    d.kvPortStart half core op = { d.setHub (hubKey half core) { d.hub (hubKey half core) with kvDone := false } with
      nextOrder := d.nextOrder + 1 }.kvPortRun half core op d.nextOrder := by
  unfold Dev.kvPortStart
  dsimp only
  rw [hh, hb, hx, decide_eq_false (Nat.not_le.mpr hc)]
  rfl

/-- An operation that has acted latches what it left for its completion. -/
theorem kvPortOpDoneEff_of_acted {d : Dev} {half core : Nat} {st : Status} {free : Bool} {gen : Nat}
    (hw : (d.hub (hubKey half core)).kvWait = 0) (hn : (d.hub (hubKey half core)).kvNext = some (st, free, gen)) :
    kvPortOpDoneEff half core d = d.setHub (hubKey half core) { d.hub (hubKey half core) with
      kvBusy := false, kvDone := true, kvOldFree := free, kvStatus := st, kvResult := word gen, kvNext := none } := by
  unfold kvPortOpDoneEff
  dsimp only
  rw [if_pos hw, hn]

/-- Settles O11: an idle port takes the operation, one that has acted completes, and a draw latches its words. -/
theorem hubPorts : Obligations.HubPorts := by
  unfold Obligations.HubPorts
  refine ⟨?ops, ?done, ?go, ?draw⟩
  case ops =>
    intro s half core c hh hc hb hx d
    constructor
    · change execKvPortSwap .. = _
      exact onDev_eq (Dev.kvPortStart_of_idle 1 hh hc hb hx)
    · change execKvPortSet .. = _
      exact onDev_eq (Dev.kvPortStart_of_idle 2 hh hc hb hx)
  case done =>
    intro s half core st free gen hw hn
    change execKvPortOpDone .. = _
    exact onDev_eq (congrArg Dev.settle (kvPortOpDoneEff_of_acted hw hn))
  case go =>
    intro s half core c hh hc hb hx w
    change execTlyPortGo .. = _
    refine onDev_eq ?_
    unfold tlyPortGoEff
    dsimp only
    rw [hh, hb, hx, decide_eq_false (Nat.not_le.mpr hc)]
    rfl
  case draw =>
    intro s half core hb x bad
    change execTallyDrawDone .. = _
    refine onDev_eq ?_
    unfold tallyDrawDoneEff
    dsimp only
    rw [hb]
    rfl

/-! ## Accesses of a hub core -/

theorem Dev.hub_setHub (d : Dev) (k : Nat) (x : HubCore) : (d.setHub k x).hub k = x := SMap.get_put_self _ _ _ _

theorem Dev.extent_setExtent (d : Dev) (k : Nat) (x : Extent) : (d.setExtent k x).extent k = x := SMap.get_put_self _ _ _ _

theorem Dev.guardRecord_hub (d : Dev) (g : Nat × Status) (unit a : Nat) (ctx : Option Nat) (k : Nat) :
    (d.guardRecord g unit a ctx).hub k = d.hub k := by
  unfold Dev.guardRecord
  rw [Dev.record_eq]
  rfl

theorem Dev.makeRoom_of_free {d : Dev} {half : Nat} (ok : Bool) (h : 1 ≤ d.freeHbm half) : d.makeRoom half ok = (d, true) := if_pos h

/-- The device while an extent comes back for a hub core: the request has gone out and its answer is at hand. -/
def Dev.fetching (d : Dev) (e : Nat) : Dev :=
  let d1 := d.fetchExts .device 6 [e]
  { d1 with deep := d1.deep.filter (fun q => q.id ≠ d.nextDeep) }

theorem Dev.extent_fetching (d : Dev) (e : Nat) : (d.fetching e).extent e = { d.extent e with moving := 2 } :=
  d.extent_setExtent e _

theorem Dev.fetching_holds (d : Dev) (e : Nat) :
    (d.fetching e).mem = d.mem ∧ (d.fetching e).allocs = d.allocs ∧ (d.fetching e).ctxs = d.ctxs := ⟨rfl, rfl, rfl⟩

/-- A fetch that ends brings the extent back and moves nothing else. -/
theorem Dev.fetched_leaves (d : Dev) (e k : Nat) :
    let x := (d.fetching e).fetchExt e [] false
    (x.extent e).evicted = false ∧ (x.extent e).moving = 0 ∧ x.hub k = d.hub k ∧ x.mem = d.mem ∧ x.allocs = d.allocs
      ∧ x.ctxs = d.ctxs := by
  intro x
  have hx : x = (d.fetching e).setExtent e { (d.fetching e).extent e with evicted := false, moving := 0, deepExt := 0 } := rfl
  have he : x.extent e = { (d.fetching e).extent e with evicted := false, moving := 0, deepExt := 0 } := by
    rw [hx, Dev.extent_setExtent]
  obtain ⟨hm, ha, hc⟩ := d.fetching_holds e
  refine ⟨by rw [he], by rw [he], ?_, ?_, ?_, ?_⟩
  · rw [hx]; rfl
  · rw [hx]; exact hm
  · rw [hx]; exact ha
  · rw [hx]; exact hc

/-- A fetch that fails leaves the extent evicted and moves nothing. -/
theorem Dev.unfetched_leaves (d : Dev) (e k : Nat) :
    let x := (d.fetching e).fetchExtFail e
    (x.extent e).evicted = (d.extent e).evicted ∧ (x.extent e).moving = 0 ∧ x.hub k = d.hub k ∧ x.mem = d.mem
      ∧ x.allocs = d.allocs ∧ x.ctxs = d.ctxs := by
  intro x
  have hx : x = (d.fetching e).setExtent e { (d.fetching e).extent e with moving := 0 } :=
    if_pos (by rw [Dev.extent_fetching])
  have he : x.extent e = { d.extent e with moving := 0 } := by
    rw [hx, Dev.extent_setExtent, Dev.extent_fetching]
  obtain ⟨hm, ha, hc⟩ := d.fetching_holds e
  refine ⟨by rw [he], by rw [he], ?_, ?_, ?_, ?_⟩
  · rw [hx]; rfl
  · rw [hx]; exact hm
  · rw [hx]; exact ha
  · rw [hx]; exact hc

/-- An access to an evicted extent of the core's own context ends with the fetch. -/
theorem hubEvictedAccessEff_of_owned {d : Dev} {half core dpa kind c : Nat} (ok : Bool) (hh : d.halfOn half = true) (hc : core < 48)
    (hd : halfOf dpa = half) (hk : kind ≤ 2) (he : d.extEvicted dpa = true) (hm : (d.extent (dpa / 2 ^ 21)).moving ≠ 2)
    (hx : d.hubCtx half core = some c) (ho : d.ctxOwns c dpa = true) (hf : 1 ≤ d.freeHbm half) :
    hubEvictedAccessEff half core dpa kind ok d =
      if ok then (d.fetching (dpa / 2 ^ 21)).fetchExt (dpa / 2 ^ 21) [] false
      else ((d.fetching (dpa / 2 ^ 21)).fetchExtFail (dpa / 2 ^ 21)).hubTrap half core (faultOf kind) dpa := by
  unfold hubEvictedAccessEff
  dsimp only
  rw [hh, he, hx, decide_eq_false (Nat.not_le.mpr hc), decide_eq_false (not_not.mpr hd), decide_eq_false (Nat.not_lt.mpr hk)]
  dsimp only
  rw [if_neg hm, ho, Dev.makeRoom_of_free ok hf]
  rfl

/-- Settles O12: a refused access traps the core, a guarded store is dropped, and an evicted extent is fetched. -/
theorem hubAccesses : Obligations.HubAccesses := by
  unfold Obligations.HubAccesses
  refine ⟨fun s half core dpa kind hh hc hm hg => ?_, fun s half core dpa data g hh hc hd hg => ?_,
    fun s half core dpa kind c ok hh hc hd hk he hm hx ho hf => ?_⟩
  · change execHubAccessFault .. = _
    refine onDev_eq ?_
    unfold hubAccessFaultEff
    rw [hh, hm, decide_eq_false (Nat.not_le.mpr hc)]
    have hn : (if kind = 2 then s.dev.guard? dpa 1 else none) = none := by
      by_cases hk : kind = 2
      · rw [if_pos hk, hg hk]
      · rw [if_neg hk]
    rw [hn]
    rfl
  · have hn : data.isEmpty = false := List.isEmpty_eq_false_iff.mpr hd
    let d1 := s.dev.guardRecord g (hubUnitIx half 0 core) dpa (s.dev.hubCtx half core)
    refine ⟨d1.hubTrap half core faultStore dpa, ?_, Dev.record_mem .., Dev.record_ctxs .., Dev.record_seqs .., ?_⟩
    · change execGuardedStore .. = _
      refine onDev_eq ?_
      unfold guardedStoreEff
      dsimp only
      rw [hh, hn, decide_eq_false (Nat.not_le.mpr hc), hg]
      rfl
    · refine (Dev.hub_setHub d1 _ _).trans ?_
      rw [Dev.guardRecord_hub]
  · refine ⟨_, (show execHubEvictedAccess .. = _ from
      onDev_eq (hubEvictedAccessEff_of_owned ok hh hc hd hk he hm hx ho hf)), ?_⟩
    have he' : (s.dev.extent (dpa / 2 ^ 21)).evicted = true := by
      unfold Dev.extEvicted at he
      simp only [Bool.and_eq_true] at he
      exact he.2
    cases ok with
    | true => exact s.dev.fetched_leaves _ _
    | false =>
      obtain ⟨hev, hmv, hhub, hmem, hall, hctx⟩ := s.dev.unfetched_leaves (dpa / 2 ^ 21) (hubKey half core)
      rw [if_neg Bool.false_ne_true, if_neg Bool.false_ne_true]
      generalize (s.dev.fetching (dpa / 2 ^ 21)).fetchExtFail (dpa / 2 ^ 21) = x at hev hmv hhub hmem hall hctx
      refine ⟨hev.trans he', hmv, ?_, hmem, hall, hctx⟩
      refine (Dev.hub_setHub _ _ _).trans ?_
      rw [hhub]

/-! ## The doorbell registers and the dispatch -/

section
variable {d : Dev} {half core : Nat} {v : Word}

/-- A hub core's write of a source of its own half that it owns does what the register does. -/
theorem Dev.dbcWrite_of_owner (act : Nat → Dev → Dev) (off : Nat) (hh : d.halfOn half = true) (hv : v.toNat < 4096)
    (hm : d.mayRing (.hub half core) half v.toNat = true) :
    d.dbcWrite (.hub half core) half v act off = act v.toNat d := by
  unfold Dev.dbcWrite
  dsimp only
  rw [hh, if_neg (by simp), if_neg (Nat.not_le.mpr hv), if_pos hm]

theorem Dev.dbcWrite_refused (act : Nat → Dev → Dev) (off : Nat) (hh : d.halfOn half = true) (hv : v.toNat < 4096)
    (hm : d.mayRing (.hub half core) half v.toNat = false) :
    d.dbcWrite (.hub half core) half v act off = d.dbcRefuse half := by
  unfold Dev.dbcWrite
  dsimp only
  rw [hh, hm, if_neg (by simp), if_neg (Nat.not_le.mpr hv)]
  rfl

theorem Dev.ring!_eq {n : Nat} (hh : d.halfOn half = true) (hn : n < 4096) :
    d.ring! half n = d.setSource (srcKey half n) { d.source (srcKey half n) with pending := true } := by
  unfold Dev.ring!
  rw [if_pos (by simp [hh, hn])]
end

/-- Settles O13: an owner's writes act on the source, a foreign one is counted, and an end of the top handler pops it. -/
theorem doorbellRegisters : Obligations.DoorbellRegisters := by
  unfold Obligations.DoorbellRegisters
  refine ⟨?owner, ?clear, ?foreign, ?eoi⟩
  case owner =>
    intro s half core v hh hv hm k x
    refine ⟨?_, ?_, ?_, ?_⟩
    · change execDbcDoorbell .. = _
      refine onDev_eq (?_ : dbcDoorbellEff .. = _)
      unfold dbcDoorbellEff
      exact (Dev.dbcWrite_of_owner _ _ hh hv hm).trans (Dev.ring!_eq hh hv)
    · change execDbcPendSet .. = _
      refine onDev_eq (?_ : dbcPendSetEff .. = _)
      unfold dbcPendSetEff
      exact (Dev.dbcWrite_of_owner _ _ hh hv hm).trans (Dev.ring!_eq hh hv)
    · change execDbcMaskSet .. = _
      refine onDev_eq (?_ : dbcMaskSetEff .. = _)
      unfold dbcMaskSetEff
      exact Dev.dbcWrite_of_owner _ _ hh hv hm
    · change execDbcMaskClr .. = _
      refine onDev_eq (?_ : dbcMaskClrEff .. = _)
      unfold dbcMaskClrEff
      exact Dev.dbcWrite_of_owner _ _ hh hv hm
  case clear =>
    intro s half core v hh hv hm hw
    change execDbcPendClr .. = _
    refine onDev_eq (?_ : dbcPendClrEff .. = _)
    unfold dbcPendClrEff
    refine (Dev.dbcWrite_of_owner _ _ hh hv hm).trans ?_
    dsimp only
    rw [hw]
    rfl
  case foreign =>
    intro s half core v hh hv hm
    change execDbcDoorbell .. = _
    refine onDev_eq (?_ : dbcDoorbellEff .. = _)
    unfold dbcDoorbellEff
    exact Dev.dbcWrite_refused _ _ hh hv hm
  case eoi =>
    intro s half t v p rest hh ht hv hs
    change execDbcEoi .. = _
    refine onDev_eq ?_
    unfold dbcEoiEff
    rw [if_neg (by simp [hh]; omega)]
    unfold Dev.eoi
    dsimp only
    rw [hs]
    exact if_pos rfl

/-- A filter of a list without repetition that keeps one element keeps it once. -/
theorem filterMap_eq_singleton {α β : Type} {f : α → Option β} {l : List α} {t : α} {b : β} (hn : l.Nodup) (ht : t ∈ l)
    (hf : f t = some b) (ho : ∀ u ∈ l, u ≠ t → f u = none) : l.filterMap f = [b] := by
  induction l with
  | nil => cases ht
  | cons a l ih =>
    obtain ⟨ha, hl⟩ := List.nodup_cons.mp hn
    by_cases hat : a = t
    · have hnone : l.filterMap f = [] :=
        List.filterMap_eq_nil_iff.mpr fun u hu => ho u (List.mem_cons_of_mem _ hu) fun h => ha (hat ▸ h ▸ hu)
      rw [List.filterMap_cons_some (hat ▸ hf), hnone]
    · rw [List.filterMap_cons_none (ho a List.mem_cons_self hat)]
      exact ih hl ((List.mem_cons.mp ht).resolve_left fun h => hat h.symm) fun u hu => ho u (List.mem_cons_of_mem _ hu)

/-- Settles O14: a source selected by one target is presented to it, and a core's completion lets go of its task. -/
theorem dispatchPresents : Obligations.DispatchPresents := by
  unfold Obligations.DispatchPresents
  refine ⟨?dispatch, ?done⟩
  case dispatch =>
    intro s half t src hh ht hu hs ho hw k d
    change execDoorbellDispatch .. = _
    refine onDev_eq ((if_pos hh).trans ?_)
    have hp : (List.range 52).filterMap (fun t =>
        if s.dev.targetUp half t then (s.dev.select half t).map (fun s => (s, t)) else none) = [(src, t)] := by
      refine filterMap_eq_singleton List.nodup_range (List.mem_range.mpr ht) (by simp [hu, hs]) fun u hl hne => ?_
      split
      next hup => rw [ho u (List.mem_range.mp hl) hne hup]; rfl
      next => rfl
    unfold Dev.dispatch
    rw [hp]
    change s.dev.present half src t = _
    unfold Dev.present
    dsimp only
    split
    next => rfl
    next j l hl => exact absurd (hl.symm.trans hw) (List.cons_ne_nil _ _)
  case done =>
    intro s half core tok i hc hi hr
    change execHubDoneWrite .. = _
    refine onDev_eq ?_
    unfold hubDoneWriteEff
    dsimp only
    rw [hc]
    dsimp only
    rw [show (s.dev.setHub (hubKey half core) { s.dev.hub (hubKey half core) with holds := none }).insts = s.dev.insts from rfl, hi]
    dsimp only
    rw [show (s.dev.setHub (hubKey half core) { s.dev.hub (hubKey half core) with holds := none }).attemptRuns i.ctx i.newer = true from hr]
    rfl

end Sys2Proof.Machine
end

section
/-! SUPPORT. Joining, leaving and the bell of the fabric, and the statements about them. -/

open Sys2Proof Sys2Proof.Machine

namespace Sys2Proof.Machine

/-! ## The fabric commands -/

/-- What the links of a device do not reach: memory, the contexts and the bell. -/
def Dev.behindLinks (d : Dev) : Memory × SMap Ctx × Nat × Nat := (d.mem, d.ctxs, d.bell, d.fab.phys)

/-- The device in training with a fabric. -/
def Dev.training (d : Dev) (p : JoinParams) : Dev :=
  let d1 := d.planePorts.foldl (fun d q => d.setPort q { d.port q with state := 1 }) d
  { d1 with fab := { d1.fab with
    state := 1, fabric := p.fabric, phys := p.phys, dims := p.dims, period := p.period, tk1 := p.tk1, tk2 := p.tk2 } }

theorem Dev.fabJoin_of_detached {d : Dev} {p : JoinParams} {cls : Nat} (hs : d.fab.state = 0) (hp : p.ok = true)
    (hc : d.classIs cls = true) : d.fabJoin p cls = Dev.wait (d.training p) 0 := by
  unfold Dev.fabJoin
  dsimp only
  rw [if_neg (not_not.mpr hs), hp, hc]
  rfl

theorem Dev.fabJoin_again {d : Dev} {cls : Nat} (hs : 3 ≤ d.fab.state) : d.fabJoin d.fab.params cls = d.done d.bellWords := by
  unfold Dev.fabJoin
  dsimp only
  rw [if_pos (by omega), if_pos rfl, if_pos hs]

theorem Dev.training_behindLinks (d : Dev) (p : JoinParams) : (d.training p).mem = d.mem ∧ (d.training p).ctxs = d.ctxs := by
  have h := foldl_fixes Dev.behindLinks (f := fun d q => d.setPort q { d.port q with state := 1 }) (fun _ _ => rfl) d.planePorts d
  exact ⟨congrArg (·.1) h, congrArg (·.2.1) h⟩

theorem Dev.not_bound_of_boundCtxs {d : Dev} (h : d.boundCtxs = []) {c : Nat} (hc : c < 8) : (d.ctx c).bound = false := by
  simpa using (List.filter_eq_nil_iff.mp h) c (List.mem_range.mpr hc)

/-- A device that serves no job has none to leave. -/
theorem Dev.leaveAll_of_unbound {d : Dev} (h : d.boundCtxs = []) : d.leaveAll = d := by
  have hf : ∀ l : List Nat, (∀ c ∈ l, c < 8) → l.foldl (fun d c => d.leaveJob c) d = d := by
    intro l hl
    induction l with
    | nil => rfl
    | cons c l ih =>
      have hb : ¬ ((d.ctx c).bound && !(d.ctx c).leaving) = true := by
        simp [Dev.not_bound_of_boundCtxs h (hl c List.mem_cons_self)]
      rw [List.foldl_cons, show d.leaveJob c = d from if_neg hb]
      exact ih fun a ha => hl a (List.mem_cons_of_mem _ ha)
  have hn : (List.range 8).filter (fun c => (d.ctx c).bound) = [] := h
  unfold Dev.leaveAll
  rw [hf _ fun c hc => List.mem_range.mp hc]
  unfold Dev.settleLeaving
  rw [hn]
  exact if_neg (by simp)

theorem Dev.fabLeave_of_unbound {d : Dev} (hs : d.fab.state ≠ 0) (h : d.boundCtxs = []) : d.fabLeave = d.detach.done [0] := by
  unfold Dev.fabLeave
  rw [if_neg hs, Dev.leaveAll_of_unbound h]
  dsimp only
  rw [h]
  rfl

/-- Settles O15: each command passes its checks and acts. -/
theorem fabricCommands : Obligations.FabricCommands := by
  unfold Obligations.FabricCommands
  refine ⟨?join, ?again, ?leave, ?bind, ?group, ?query⟩
  case join =>
    intro s h fabric phys dx dy dz dw period tk1 tk2 cls hd hs p hp hc
    obtain ⟨hm, hx⟩ := (s.dev.take h).training_behindLinks p
    refine ⟨((s.dev.take h).training p).enqueue h (.fabJoin h fabric phys dx dy dz dw period tk1 tk2 cls) 0,
      ?_, rfl, rfl, hm, hx, _, List.mem_append_right _ (List.mem_singleton_self _), rfl, rfl⟩
    change execFabJoin .. = _
    have hj : (s.dev.take h).fabJoin p cls = Dev.wait ((s.dev.take h).training p) 0 := Dev.fabJoin_of_detached hs hp hc
    have hf : (s.dev.take h).entryFail h { idem := decide (s.dev.fab.state ≠ 0) && decide (s.dev.fab.params = p) } = none := by
      rw [decide_eq_false (not_not.mpr hs)]
      exact s.dev.entryFail_session h false hd
    unfold execFabJoin
    extract_lets
    refine onDev_eq ?_
    exact s.dev.command_waits (x := (s.dev.take h).training p) hd.takes hf hj
  case again =>
    intro s h cls dx dy dz dw hd hs hx
    change execFabJoin .. = _
    unfold execFabJoin
    extract_lets p
    have hp : p = s.dev.fab.params := by
      unfold Fabric.params
      rw [hx]
    clear_value p
    subst hp
    refine onDev_eq (Dev.command_inSession hd ?_ (Dev.fabJoin_again (d := s.dev.take h) hs))
    rw [decide_eq_true rfl, decide_eq_true (by omega)]
    rfl
  case leave =>
    intro s h hd hs hb
    change execFabLeave .. = _
    exact onDev_eq (Dev.command_inSession hd rfl (Dev.fabLeave_of_unbound (d := s.dev.take h) hs hb))
  case bind =>
    intro s h job l group0 count t hd hl hs hf hb hv ht hn hr hm hc d
    change execFabBind .. = _
    refine onDev_eq (Dev.command_inContext hd (by rw [decide_eq_false (by omega)]) ?_)
    have h1 : ¬ (((s.dev.take h).fab.state ≠ 3 ∧ (s.dev.take h).fab.state ≠ 5) ∨ ((s.dev.take h).ctx h.ctx).bound = true
        ∨ (s.dev.take h).health.failed = true) := by
      rintro (⟨h3, h5⟩ | hb' | hf')
      · exact hs.elim h3 h5
      · exact Bool.false_ne_true (hb.symm.trans hb')
      · exact Bool.false_ne_true (hf.symm.trans hf')
    have h2 : ¬ (t.length ≠ count ∨ ¬ rising t = true ∨ t.any (fun m => decide (16384 ≤ m)) = true ∨ ¬ t.contains l = true) := by
      rintro (h | h | h | h)
      · exact h hn
      · exact h hr
      · obtain ⟨m, hmt, h⟩ := List.any_eq_true.mp h
        exact absurd (hm m hmt) (Nat.not_lt.mpr (of_decide_eq_true h))
      · exact h (List.contains_iff_mem.mpr hc)
    have hv' : (s.dev.take h).dpaValid group0 = true := hv
    have ht' : (s.dev.take h).groupTable group0 = some t := ht
    unfold Dev.fabBind
    dsimp only
    rw [if_neg h1, hv', ht']
    dsimp only
    rw [if_neg h2]
    rfl
  case group =>
    intro s h group table t hd hs hg hn hv ht
    change execFabGroup .. = _
    refine onDev_eq (Dev.command_inContext hd rfl ?_)
    have hn' : (s.dev.take h).groupNamed h.ctx group = false := hn
    have hv' : (s.dev.take h).dpaValid table = true := hv
    have ht' : (s.dev.take h).groupTable table = some t := ht
    unfold Dev.fabGroup
    rw [if_neg (show ¬ (s.dev.take h).fab.state = 0 from hs), if_neg hg, hn', hv', ht']
    rfl
  case query =>
    intro s h hd
    change execFabQuery .. = _
    exact onDev_eq (Dev.command_inSession hd rfl rfl)

/-! ## Joining -/

/-- Settles O16: training and the bell lock move the state, the time limits end the join, and heartbeats keep the watch. -/
theorem joinEvents : Obligations.JoinEvents := by
  unfold Obligations.JoinEvents
  refine ⟨?train, ?trainLimit, ?lock, ?lockLimit, ?leave, ?beat, ?silent⟩
  case train =>
    intro s hs hc
    have hb : ∀ (g : Dev → Port → Nat → Port) (l : List Nat),
        (l.foldl (fun d p => (d.setPort p (g d (d.port p) p)).drawn) s.dev).behindLinks = s.dev.behindLinks :=
      fun g l => foldl_fixes Dev.behindLinks (f := fun d p => (d.setPort p (g d (d.port p) p)).drawn) (fun _ _ => rfl) l s.dev
    refine ⟨trainingCompleteEff s.dev, rfl, ?_⟩
    unfold trainingCompleteEff
    rw [if_neg (by simp [hs, hc])]
    extract_lets d1
    have h1 : d1.behindLinks = s.dev.behindLinks := hb (fun d x p => { x with
      state := 2, hbOk := true, peer := if isTorus p then d.implied p else x.peer
      peerHalf := if isTorus p then portHalf p else x.peerHalf, delay := Config.delay d.free % 2 ^ 32 }) _
    exact ⟨rfl, congrArg (·.2.2.2) h1, congrArg (·.1) h1, congrArg (·.2.1) h1, congrArg (·.2.2.1) h1⟩
  case trainLimit =>
    intro s hs
    change execTrainingTimeout .. = _
    exact onDev_eq (congrArg Dev.settle (if_pos hs))
  case lock =>
    intro s hs
    change execBellLock .. = _
    exact onDev_eq (congrArg Dev.settle (if_pos hs))
  case lockLimit =>
    intro s hs
    change execBellLockTimeout .. = _
    exact onDev_eq (congrArg Dev.settle (if_pos hs))
  case leave =>
    intro s hs
    change execLeaveTimeout .. = _
    exact onDev_eq (congrArg Dev.settle (if_pos hs))
  case beat =>
    intro s port w ph hu hh h0 h3 hs hb d
    change execHeartbeat .. = _
    refine onDev_eq ?_
    unfold heartbeatEff
    dsimp only
    rw [hu, hh, decide_eq_false h0, decide_eq_false h3, if_neg (by simp), if_neg (fun h => hs h.1),
      if_neg (fun h => absurd h.1 (by omega))]
  case silent =>
    intro s phys p hp ht hs hpeer
    have hn : ¬ ((List.range 48).filter (fun p => isTorus p && decide ((s.dev.port p).state = 2)
        && decide ((s.dev.port p).peer = phys))).isEmpty = true := by
      intro h
      have hm : p ∈ (List.range 48).filter (fun p => isTorus p && decide ((s.dev.port p).state = 2)
          && decide ((s.dev.port p).peer = phys)) :=
        List.mem_filter.mpr ⟨List.mem_range.mpr hp, by simp [ht, hs, hpeer]⟩
      rw [List.isEmpty_iff.mp h] at hm
      cases hm
    have hb : ∀ l : List Nat, (l.foldl (fun d p => d.setPort p { d.port p with hbOk := false }) s.dev).fab.silent = s.dev.fab.silent
        ∧ (l.foldl (fun d p => d.setPort p { d.port p with hbOk := false }) s.dev).behindLinks = s.dev.behindLinks := fun l =>
      ⟨foldl_fixes (fun d : Dev => d.fab.silent) (f := fun d p => d.setPort p { d.port p with hbOk := false }) (fun _ _ => rfl) l s.dev,
        foldl_fixes Dev.behindLinks (f := fun d p => d.setPort p { d.port p with hbOk := false }) (fun _ _ => rfl) l s.dev⟩
    refine ⟨_, (show execFabUnresponsive .. = _ from onDev_eq (if_neg hn)), ?_, ?_, ?_⟩
    · exact congrArg (insertNat · phys) (hb _).1
    · exact congrArg (·.1) (hb _).2
    · exact congrArg (·.2.1) (hb _).2

/-! ## The bell -/

/-- Sending a beat only emits it. -/
theorem Dev.sendBell_eq (d : Dev) (half tk hops : Nat) : ∃ o, d.sendBell half tk hops = { d with out := o } := by
  unfold Dev.sendBell
  have h : ∀ (l : List Nat) (e : Dev), ∃ o, l.foldl (fun d p => d.emit (.orderedSet p 0 [d.bell, hops, tk])) e = { e with out := o } := by
    intro l
    induction l with
    | nil => exact fun e => ⟨e.out, rfl⟩
    | cons p l ih =>
      intro e
      obtain ⟨o, ho⟩ := ih (e.emit (.orderedSet p 0 [e.bell, hops, tk]))
      exact ⟨o, ho⟩
  exact h _ d

/-- The device once it has taken a beat of its parent. -/
def Dev.beaten (d : Dev) (num hops : Nat) : Dev :=
  let d1 : Dev := if d.fab.state = 2 then { d with bell := num % 2 ^ 48 } else d
  Dev.drawn { d1 with fab := { d1.fab with
    beat := true, missing := 0, holdover := false, hops := (hops + 1) % 256, phase := Config.phase d.free % 2 ^ 32
    timekeeper := false, secondary := false } }

theorem Dev.beaten_bell (d : Dev) (num hops : Nat) : (d.beaten num hops).bell = (if d.fab.state = 2 then num % 2 ^ 48 else d.bell) := by
  unfold Dev.beaten
  split <;> rfl

theorem Dev.beaten_holds (d : Dev) (num hops : Nat) : (d.beaten num hops).mem = d.mem ∧ (d.beaten num hops).ctxs = d.ctxs := by
  unfold Dev.beaten
  split <;> exact ⟨rfl, rfl⟩

/-- Settles O17: the beats of the parent are taken and passed on, and its silence leads to the holdover and the secondary. -/
theorem bellEvents : Obligations.BellEvents := by
  unfold Obligations.BellEvents
  refine ⟨?beat, ?holdover, ?secondary, ?lost⟩
  case beat =>
    intro s port num hops tk q k plus hp hs h16 hu hk hpl ht
    have hlow : port % 24 = port := Nat.mod_eq_of_lt (by omega)
    have hto : isTorus port = true := by unfold isTorus; simp [h16]
    have hhalf : portHalf port = 0 := if_pos (by omega)
    have he : bellEff port num hops tk true s.dev = (s.dev.beaten num hops).sendBell 0 tk ((hops + 1) % 256) := by
      unfold bellEff
      rw [hp]
      dsimp only
      rw [hu, hto, hlow, hk, hpl, if_neg (by simp; omega), hhalf, if_neg Nat.zero_ne_one]
      rfl
    obtain ⟨o, ho⟩ := (s.dev.beaten num hops).sendBell_eq 0 tk ((hops + 1) % 256)
    obtain ⟨hm, hc⟩ := s.dev.beaten_holds num hops
    exact ⟨_, (show execBell .. = _ from onDev_eq (he.trans ho)), s.dev.beaten_bell num hops, rfl, rfl, rfl, rfl, hm, hc⟩
  case holdover =>
    intro s hl hh ht hs
    refine ⟨bellHoldoverEff s.dev, rfl, ?_⟩
    unfold bellHoldoverEff
    dsimp only
    rw [if_neg (by rw [hl, hh, ht, hs]; exact Bool.false_ne_true), Dev.record_fab, Dev.record_mem, Dev.record_bell]
    have h : ∀ d : Dev, let e := upto 2 (fun h d => if d.halfOn h then d.rcAdd (hubDie h) 0x0A000018 1 else d) d
        (e.fab, e.mem, e.bell) = (d.fab, d.mem, d.bell) := fun d =>
      foldl_fixes (fun d : Dev => (d.fab, d.mem, d.bell)) (f := fun d h => if d.halfOn h then d.rcAdd (hubDie h) 0x0A000018 1 else d)
        (fun d h => by split <;> rfl) (List.range 2) d
    have h' := h { s.dev with fab := { s.dev.fab with holdover := true } }
    exact ⟨congrArg (·.1) h', congrArg (·.2.1) h', congrArg (·.2.2) h'⟩
  case secondary =>
    intro s hl hp ht hs hm
    change execSecondaryTimekeeper .. = _
    refine onDev_eq (if_neg ?_)
    simp only [hl, hp, ht, hs]
    simp
    omega
  case lost =>
    intro s hl hh hm hs
    change execBellLost .. = _
    refine onDev_eq ((if_neg ?_).trans (if_pos (Or.inl hs)))
    simp only [hl, hh]
    simp
    omega

end Sys2Proof.Machine
end

section
/-! SUPPORT. The relief of a member: its commands, its notices and the steps on the spare and on the lead. -/

open Sys2Proof Sys2Proof.Machine

namespace Sys2Proof.Machine

theorem Dev.ctx_updCtx (d : Dev) (c : Nat) (f : Ctx → Ctx) : (d.updCtx c f).ctx c = f (d.ctx c) := d.ctx_setCtx c _

/-! ## The relief commands -/

/-- An armed context owns the units of its streams, which nothing else of it depends on. -/
theorem Dev.ownUnits_relief (d : Dev) (c : Nat) :
    ∃ us, ((d.ownUnits c).ctx c).relief = { (d.ctx c).relief with units := us } :=
  ⟨(List.range 6).map (fun i => unitsUp (d.ctx c).relief.n (d.streamUnits c (i / 3) (i % 3)).length),
    congrArg Ctx.relief (d.ctx_updCtx c (fun x => { x with relief := { x.relief with units := _ } }))⟩

/-- relief.start of a member that this device leads. -/
theorem Dev.reliefStart_of_lead {d : Dev} {c l : Nat} (hb : (d.ctx c).bound = true) (hj : (d.jobOf c).contains l = true)
    (hl : l ≠ (d.ctx c).logical) (hs : (d.ctx c).relief.state ≠ 5) (hd : d.leads c l = true)
    (hr : ((d.startRelief l).ctx c).relief.state ≠ 5) :
    d.reliefStart c l = (d.startRelief l).wait ((d.physOf l).getD 0) := by
  unfold Dev.reliefStart
  rw [if_neg (by rw [hb, hj, decide_eq_false hl]; exact Bool.false_ne_true), if_neg hs]
  dsimp only
  rw [if_pos hd, if_neg hr]

/-- relief.arm where the tables are well formed and both snapshot areas are given. -/
theorem Dev.reliefArm_of_areas {d d1 d2 : Dev} {c ring spares n id a b : Nat} (hs : (d.ctx c).relief.state = 0)
    (hr : d.dpaValid ring = true) (hp : d.dpaValid spares = true)
    (hok : ¬ (d.ld ring 1 < 3 ∨ 8 < d.ld ring 1 ∨ d.ld (ring + 2) 6 ≠ 0 ∨ d.ld (spares + 2) 6 ≠ 0
      ∨ ¬ ((List.range (d.ld ring 1)).map (fun i => d.ld (ring + 8 + 2 * i) 2)).Nodup
      ∨ ((List.range (d.ld spares 2)).map (fun i => d.ld (spares + 8 + 2 * i) 2)).any (fun p => decide (16384 ≤ p)) = true
      ∨ ((List.range (d.ld ring 1)).map (fun i => d.ld (ring + 8 + 2 * i) 2))[d.ld (ring + 1) 1]? ≠ some (d.ctx c).logical
      ∨ ¬ (d.ctx c).bound = true
      ∨ ((List.range (d.ld ring 1)).map (fun i => d.ld (ring + 8 + 2 * i) 2)).any (fun l => !(d.jobOf c).contains l) = true))
    (h1 : d.memAlloc (.cmd c id) c (n * 2 ^ 21) 0 2 true = .ends St.ok a d1)
    (h2 : d1.memAlloc (.cmd c id) c (n * 2 ^ 21) 0 2 true = .ends St.ok b d2) :
    d.reliefArm c ring spares n id 0 = (Dev.ownUnits (d2.updRelief c (fun _ => {
      state := 1, n := d.ld ring 1, position := d.ld (ring + 1) 1
      ring := (List.range (d.ld ring 1)).map (fun i => d.ld (ring + 8 + 2 * i) 2)
      spares := (List.range (d.ld spares 2)).map (fun i => d.ld (spares + 8 + 2 * i) 2)
      snap := [a, b], inRing := true, epoch := 0 })) c).done [] := by
  unfold Dev.reliefArm
  extract_lets x k position ids count sp area
  have h1' : area d = .ends St.ok a d1 := h1
  have h2' : area d1 = .ends St.ok b d2 := h2
  clear_value area
  rw [if_neg (not_not.mpr hs), if_neg (by rw [hr, hp]; exact Bool.false_ne_true), if_neg hok, if_neg (not_not.mpr rfl), h1']
  refine (if_neg (not_not.mpr rfl)).trans ?_
  rw [h2']
  exact if_neg (not_not.mpr rfl)

/-- Settles O18: each command passes its checks and acts. -/
theorem reliefCommands : Obligations.ReliefCommands := by
  unfold Obligations.ReliefCommands
  refine ⟨?offer, ?withdraw, ?start, ?query, ?arm⟩
  case offer =>
    intro s h hd hs
    change execReliefSpare .. = _
    refine onDev_eq (Dev.command_inSession hd rfl ?_)
    unfold Dev.reliefSpare
    have hs' : (s.dev.take h).fab.state = 3 := hs
    dsimp only
    rw [if_neg (fun hn => hn.1 hs'), if_pos rfl, if_neg (by rw [hs']; decide)]
    rfl
  case withdraw =>
    intro s h hd hs hc
    change execReliefSpare .. = _
    refine onDev_eq (Dev.command_inSession hd rfl ?_)
    unfold Dev.reliefSpare
    have hs' : (s.dev.take h).fab.state = 4 := hs
    have hc' : ¬ (s.dev.take h).fab.claim.isSome = true := by
      rw [show (s.dev.take h).fab.claim = none from hc]
      exact Bool.false_ne_true
    dsimp only
    rw [if_neg (fun hn => hn.2 hs'), if_neg Nat.zero_ne_one, if_neg hc']
    rfl
  case start =>
    intro s h l hd hb hj hl hs hld d hr
    change execReliefStart .. = _
    exact onDev_eq (s.dev.command_waits hd.takes (s.dev.entryFail_context h false hd)
      (Dev.reliefStart_of_lead (d := s.dev.take h) hb hj hl hs hld hr))
  case query =>
    intro s h hd
    change execReliefQuery .. = _
    exact onDev_eq (Dev.command_inContext hd rfl rfl)
  case arm =>
    intro s h ring spares n a b d1 d2 hd d k ids sp hs hb hr hp h3 h8 hz hz' hn hsp hpos hmem h1 h2
    have hok : ¬ (d.ld ring 1 < 3 ∨ 8 < d.ld ring 1 ∨ d.ld (ring + 2) 6 ≠ 0 ∨ d.ld (spares + 2) 6 ≠ 0
        ∨ ¬ ids.Nodup ∨ sp.any (fun p => decide (16384 ≤ p)) = true
        ∨ ids[d.ld (ring + 1) 1]? ≠ some (d.ctx h.ctx).logical ∨ ¬ (d.ctx h.ctx).bound = true
        ∨ ids.any (fun l => !(d.jobOf h.ctx).contains l) = true) := by
      rintro (h | h | h | h | h | h | h | h | h)
      · exact absurd h3 (Nat.not_le.mpr h)
      · exact absurd h8 (Nat.not_le.mpr h)
      · exact h hz
      · exact h hz'
      · exact h hn
      · obtain ⟨p, hm, h⟩ := List.any_eq_true.mp h
        exact absurd (hsp p hm) (Nat.not_lt.mpr (of_decide_eq_true h))
      · exact h hpos
      · exact h hb
      · obtain ⟨l, hm, h⟩ := List.any_eq_true.mp h
        have hc : (d.jobOf _).contains l = true := List.contains_iff_mem.mpr (hmem l hm)
        rw [hc] at h
        exact Bool.false_ne_true h
    have ha := Dev.reliefArm_of_areas (d := d) hs hr hp hok h1 h2
    generalize hx : d2.updRelief h.ctx _ = x at ha
    obtain ⟨us, hu⟩ := x.ownUnits_relief h.ctx
    have hxc : (x.ctx h.ctx).relief = {
        state := 1, n := k, position := d.ld (ring + 1) 1, ring := ids, spares := sp, snap := [a, b], inRing := true, epoch := 0 } := by
      rw [← hx]
      exact congrArg Ctx.relief (d2.ctx_updCtx h.ctx _)
    rw [hxc] at hu
    refine ⟨x.ownUnits h.ctx, (show execReliefArm .. = _ from onDev_eq (Dev.command_inContext hd rfl ha)), ?_⟩
    rw [hu]
    refine ⟨rfl, rfl, rfl, rfl, rfl, ?_, ?_⟩
    · exact (congrArg Dev.mem hx).symm
    · exact (congrArg Dev.allocs hx).symm

/-! ## The notices -/

theorem Dev.noticeCtx_of_armed {d : Dev} {c l : Nat} (hst : (d.ctx c).relief.state = 2) (hsub : (d.ctx c).relief.subjects = [])
    (hw : (d.ctx c).relief.weak = []) (hl : (d.ctx c).logical ≠ l) (ho : (d.ctx c).older = none) (hr : d.mustRollBack c l = false) :
    d.noticeCtx c l = (d.updRelief c (fun r => { r with
        state := 3, subject := some l, spare := none, refused := [], lead := false, resume := 0, ready := [] })).reliefRecord c
        St.reliefStarted l := by
  have hhold : ∀ e : Dev, (e.ctx c).older = none → e.holdSteps c = e := by
    intro e he
    unfold Dev.holdSteps
    rw [he]
  unfold Dev.noticeCtx
  dsimp only
  rw [hst, hsub, hw, if_neg (by simp), if_neg (by simp), if_neg hl, if_neg (by decide), hr, if_neg Bool.false_ne_true]
  refine hhold _ ?_
  rw [Dev.reliefRecord, record_ctx]
  exact (congrArg Ctx.older (d.ctx_updCtx c _)).trans ho

/-- Settles O19: a notice reaches the armed context, starts a relief or is recorded. -/
theorem reliefNotices : Obligations.ReliefNotices := by
  unfold Obligations.ReliefNotices
  refine ⟨?notice, ?leave, ?digest⟩
  case notice =>
    intro s job l c hj hc hs hst hsub hw hl ho hn hr
    change execReliefNotice .. = _
    refine onDev_eq ?_
    unfold reliefNoticeEff
    rw [hj]
    simp only [List.foldl_cons, List.foldl_nil]
    rw [hc, hs]
    exact Dev.noticeCtx_of_armed hst hsub hw hl ho hr
  case leave =>
    intro s job l c hc hl
    change execLeaveNotice .. = _
    exact onDev_eq (if_pos (List.any_eq_true.mpr ⟨c, hc, hl⟩))
  case digest =>
    intro s src cseq ht
    change execDigestNotice .. = _
    refine onDev_eq ?_
    have hf : s.dev.fab.digestTimes.filter (fun t => decide (s.dev.opTime < t + 86400)) = [] :=
      List.filter_eq_nil_iff.mpr fun t hm => by simpa using ht t hm
    unfold digestNoticeEff
    rw [hf]
    rfl

/-! ## The steps of a relief -/

theorem Dev.tellJob_eq (d : Dev) (kind c : Nat) (data : List Nat) : ∃ o, d.tellJob kind c data = { d with out := o } := by
  have h : ∀ (l : List Nat) (e : Dev), ∃ o, l.foldl (fun d l => d.emit (.notice kind c l data)) e = { e with out := o } := by
    intro l
    induction l with
    | nil => exact fun e => ⟨e.out, rfl⟩
    | cons p l ih =>
      intro e
      obtain ⟨o, ho⟩ := ih (e.emit (.notice kind c p data))
      exact ⟨o, ho⟩
  exact h _ d

/-- What the upkeep of parity leaves as it is, but for the rows that it sends and holds. -/
def Dev.besideRows (d : Dev) (c : Nat) : Memory × List Alloc × Fabric × Nat × Nat × Bool × Bool :=
  let r := (d.ctx c).relief
  (d.mem, d.allocs, d.fab, r.state, r.epoch, r.prot, r.firstUpkeep)

theorem Dev.holdRow_besideRows (d : Dev) (c : Nat) (w : ParityRow) : (d.holdRow c w).besideRows c = d.besideRows c := by
  unfold Dev.holdRow
  dsimp only
  split
  · unfold Dev.besideRows
    rw [Dev.ctx_updCtx]
    rfl
  · rfl

theorem Dev.sendRows_besideRows (d : Dev) (c half s : Nat) (pick : Nat → Bool) :
    (d.sendRows c half s pick).besideRows c = d.besideRows c := by
  unfold Dev.sendRows
  exact foldl_fixes (fun d : Dev => d.besideRows c) (f := fun d j => d.emit (.parityTerm c (d.rowTerm c half s j))) (fun _ _ => rfl) _ d

theorem Dev.upkeep_besideRows (d : Dev) (c step : Nat) (counts : List Nat) (rows : List ParityRow) :
    (d.upkeep c step counts rows).besideRows c
      = (d.mem, d.allocs, d.fab, (d.ctx c).relief.state, step, (d.ctx c).relief.prot, (d.ctx c).relief.firstUpkeep) := by
  unfold Dev.upkeep
  extract_lets n us d1 r todo d2
  have h1 : d1.besideRows c = (d.mem, d.allocs, d.fab, (d.ctx c).relief.state, step, (d.ctx c).relief.prot,
      (d.ctx c).relief.firstUpkeep) := by
    change (d.updCtx c _).besideRows c = _
    unfold Dev.besideRows
    rw [Dev.ctx_updCtx]
    rfl
  have h2 : d2.besideRows c = d1.besideRows c :=
    foldl_fixes (fun d : Dev => d.besideRows c)
      (f := fun d (p : Nat × Nat) => d.sendRows c p.1 p.2 (fun j => holderOf r.n j ≠ r.position))
      (fun d p => d.sendRows_besideRows c p.1 p.2 _) _ d1
  exact (foldl_fixes (fun d : Dev => d.besideRows c) (fun d w => d.holdRow_besideRows c w) rows d2).trans (h2.trans h1)

/-- Settles O20: each step of the spare and of the lead, from the state that its message finds. -/
theorem spareEvents : Obligations.SpareEvents := by
  unfold Obligations.SpareEvents
  refine ⟨?claim, ?silence, ?answer, ?ready, ?lead, ?rebuilt, ?upkeep⟩
  case claim =>
    intro s lead job l hs hc hf
    change execSpareClaim .. = _
    exact onDev_eq (if_pos ⟨hs, by rw [hc]; rfl, by rw [hf]; exact Bool.false_ne_true⟩)
  case silence =>
    intro s c p hc hl hs hn
    change execSpareClaimTimeout .. = _
    refine onDev_eq (congrArg Dev.settle ?_)
    unfold spareClaimTimeoutEff
    dsimp only
    rw [hc]
    exact if_pos ⟨hl, hs, by rw [hn]; rfl⟩
  case answer =>
    intro s c p l hsub hl hs hc hn bell
    change execSpareClaimAnswer .. = _
    refine onDev_eq (congrArg Dev.settle ?_)
    unfold spareClaimAnswerEff
    dsimp only
    rw [hsub]
    dsimp only
    rw [if_neg (by simp [hl, hs, hc]), if_neg (by simp), if_neg (by simp [hn])]
  case ready =>
    intro s c l p hsub hsp hl hs hr hp
    have he : spareReadyEff c s.dev = ((((s.dev.drawn.tellJob 8 c [l, s.dev.bell + 2 + s.dev.pick 9]).emit
        (.notice 8 c p [l, s.dev.bell + 2 + s.dev.pick 9])).jobCtxs (s.dev.ctx c).job).foldl
        (fun d k => d.nameResume k l (s.dev.bell + 2 + s.dev.pick 9))
        ((s.dev.drawn.tellJob 8 c [l, s.dev.bell + 2 + s.dev.pick 9]).emit (.notice 8 c p [l, s.dev.bell + 2 + s.dev.pick 9]))) := by
      unfold spareReadyEff
      dsimp only
      rw [hsub, hsp]
      dsimp only
      rw [if_neg (by simp [hl, hs, hr, hp])]
    obtain ⟨o, ho⟩ := s.dev.drawn.tellJob_eq 8 c [l, s.dev.bell + 2 + s.dev.pick 9]
    refine ⟨s.dev.bell + 2 + s.dev.pick 9, _, Nat.le_add_right _ _, (show execSpareReady .. = _ from onDev_eq he), ?_⟩
    rw [ho]
    exact ⟨rfl, rfl, List.mem_cons_self⟩
  case lead =>
    intro s c l hsub hs hr
    change execReliefLeadTimeout .. = _
    refine onDev_eq ?_
    unfold reliefLeadTimeoutEff
    dsimp only
    rw [hsub]
    dsimp only
    rw [if_neg (by simp [hs, hr]), if_pos rfl]
  case rebuilt =>
    intro s lead job l units rows snaps hc hs hp hne free hu hok r hr
    change execReliefRebuildDone .. = _
    refine onDev_eq ?_
    unfold reliefRebuildDoneEff
    rw [hc]
    dsimp only
    rw [if_neg (by simp [hs, hp])]
    have h1 : ¬ (units.any (·.poison) || !free.unitsOk units (snaps.headD 0)) = true := by
      rw [hu, hok]
      exact Bool.false_ne_true
    have h2 : ¬ (r.1 ≠ St.ok ∨ snaps.isEmpty = true) := by
      rintro (h | h)
      · exact h hr
      · exact hne (List.isEmpty_iff.mp h)
    exact (if_neg h1).trans (if_neg h2)
  case upkeep =>
    intro s c step counts rows hr hu hs
    let d1 := (s.dev.upkeep c step counts rows).updRelief c (fun r => { r with
      upkeep := false, waits := false, firstUpkeep := true, prot := r.prot || (s.dev.ctx c).relief.firstUpkeep })
    have he : parityUpkeepDoneEff c step true counts rows s.dev = d1 := by
      unfold parityUpkeepDoneEff
      dsimp only
      rw [if_neg (by simp [hr, hu]), if_neg (by simp), if_neg (by simp [hs]), if_neg (by simp [hs])]
    have hb := s.dev.upkeep_besideRows c step counts rows
    have hx : (d1.ctx c).relief = { ((s.dev.upkeep c step counts rows).ctx c).relief with
        upkeep := false, waits := false, firstUpkeep := true
        prot := ((s.dev.upkeep c step counts rows).ctx c).relief.prot || (s.dev.ctx c).relief.firstUpkeep } :=
      congrArg Ctx.relief ((s.dev.upkeep c step counts rows).ctx_updCtx c _)
    simp only [Dev.besideRows, Prod.mk.injEq] at hb
    obtain ⟨hm, ha, hf, hst, hep, hpr, -⟩ := hb
    refine ⟨d1, (show execParityUpkeepDone .. = _ from onDev_eq he), ?_, ?_, ?_, ?_, hm, ha, hf⟩
    · rw [hx]; exact hep
    · rw [hx]
    · rw [hx]; exact hst.trans hs
    · rw [hx]; exact congrArg (· || _) hpr

end Sys2Proof.Machine
end

section
/-! SUPPORT. Health: the commands, the pit log, the canaries and the service of cores. -/

open Sys2Proof Sys2Proof.Machine

namespace Sys2Proof.Machine

theorem Dev.hltRead_of_unit {d : Dev} {unit : Nat} (buf : Nat) (hu : unit ≠ 0xFFFF) (hk : unitKnown unit = true) :
    d.hltRead unit buf = (d.storeHost buf ((d.hist unit).bytes unit)).done [1] :=
  (if_neg hu).trans (if_neg (by rw [hk]; exact Bool.false_ne_true))

theorem Dev.hltCanary_of_known {d : Dev} {unit u : Nat} (hu : canaryUnit unit = some u) (hd : d.dieOn (unitDie u) = true) :
    d.hltCanary unit = (d.addCanary u false).wait 0 := by
  unfold Dev.hltCanary
  rw [hu]
  exact if_neg (by rw [hd]; exact Bool.false_ne_true)

theorem Dev.hltCanary_of_unknown {d : Dev} {unit : Nat} (hu : canaryUnit unit = none) : d.hltCanary unit = d.refuse St.unitInvalid := by
  unfold Dev.hltCanary
  rw [hu]

/-- Settles O21: each command passes its checks and answers or waits. -/
theorem healthCommands : Obligations.HealthCommands := by
  unfold Obligations.HealthCommands
  refine ⟨?read, ?log, ?clear, ?stale, ?canary, ?unknown, ?sticky, ?query⟩
  case read =>
    intro s h unit buf hd hu hk
    change execHltRead .. = _
    exact onDev_eq (Dev.command_inSession hd rfl (Dev.hltRead_of_unit buf hu hk))
  case log =>
    intro s h first count buf hd l
    change execLogRead .. = _
    exact onDev_eq (Dev.command_inSession hd rfl rfl)
  case clear =>
    intro s h hd
    change execLogClear .. = _
    exact onDev_eq (Dev.command_inSession hd rfl (if_pos rfl))
  case stale =>
    intro s h e hd he
    change execLogClear .. = _
    exact onDev_eq (Dev.command_inSession hd rfl (if_neg he))
  case canary =>
    intro s h unit u hd hu hon d
    change execHltCanary .. = _
    exact onDev_eq (s.dev.command_waits hd.takes (s.dev.entryFail_session h false hd)
      (Dev.hltCanary_of_known (d := s.dev.take h) hu hon))
  case unknown =>
    intro s h unit hd hu
    change execHltCanary .. = _
    exact onDev_eq (Dev.command_inSession hd rfl (Dev.hltCanary_of_unknown hu))
  case sticky =>
    intro s h index clear hd hi
    change execHltSticky .. = _
    exact onDev_eq (Dev.command_inSession hd (by rw [decide_eq_false (Nat.not_lt.mpr hi)]) rfl)
  case query =>
    intro s h hd d
    change execHltQuery .. = _
    exact onDev_eq (Dev.command_inSession hd rfl rfl)

/-! ## The pit log -/

/-- Settles O22: by what the log takes at each length. -/
theorem recordAppends : Obligations.RecordAppends := by
  unfold Obligations.RecordAppends
  refine ⟨fun l r h => if_pos ?_, fun l r hl hh hs ht hr => if_neg ?_, fun l r h => if_neg ?_⟩
  · simp [PitLog.takes]
    omega
  · simp [PitLog.takes, hs, ht, hr]
    omega
  · simp [PitLog.takes]
    omega

/-! ## Canaries -/

theorem canaryStartEff_of_uncore {d : Dev} {unit u : Nat} (hu : canaryUnit unit = some u) (hc : isCoreUnit u = false)
    (hs : unitSub u ≠ 0) (hd : d.canaryDue u = true) (hn : d.canary? u = none) (ht : d.canTest u = true) :
    canaryStartEff unit d = (d.addCanary u false).canaryRuns u := by
  unfold canaryStartEff
  rw [hu]
  dsimp only
  rw [hd, hn, hc, ht]
  exact if_neg hs

/-- Settles O23: by the state of the canary that each event finds. -/
theorem canaryEvents : Obligations.CanaryEvents := by
  unfold Obligations.CanaryEvents
  refine ⟨?start, ?ends, ?handoff, ?deferred, ?due, ?release, ?keep⟩
  case start =>
    intro s unit u hu hc hs hd hn ht
    change execCanaryStart .. = _
    exact onDev_eq (congrArg Dev.settle (canaryStartEff_of_uncore hu hc hs hd hn ht))
  case ends =>
    intro s unit u q pass hu hq hs
    constructor
    · change execCanaryResult .. = _
      refine onDev_eq ?_
      unfold canaryResultEff
      rw [hu, Option.bind_some, hq]
      exact if_pos hs
    · change execCanaryRunTimeout .. = _
      refine onDev_eq ?_
      unfold canaryRunTimeoutEff
      rw [hu, Option.bind_some, hq]
      exact if_pos hs
  case handoff =>
    intro s unit u q hu hq hs hc
    change execCanaryHandoffTimeout .. = _
    refine onDev_eq ?_
    unfold canaryHandoffTimeoutEff
    rw [hu, Option.bind_some, hq]
    exact if_pos (by rw [decide_eq_true hs, hc]; rfl)
  case deferred =>
    intro s unit u hu hd hn
    change execCanaryDeferred .. = _
    refine onDev_eq ?_
    unfold canaryDeferredEff
    rw [hu]
    dsimp only
    rw [hd, hn]
    rfl
  case due =>
    intro s unit u hu hc hs hb hl
    change execSuspectCanaryDue .. = _
    refine onDev_eq ?_
    unfold suspectCanaryDueEff
    rw [hu]
    dsimp only
    rw [hc, hs, hb, decide_eq_false (Nat.not_lt.mpr hl)]
    rfl
  case release =>
    intro s u hs ht
    change execSuspectRelease .. = _
    exact onDev_eq (if_neg (not_or.mpr ⟨not_not.mpr hs, Nat.not_lt.mpr ht⟩))
  case keep =>
    intro s u ht
    change execSuspectRelease .. = _
    exact onDev_eq (if_pos (Or.inr ht))

/-! ## The service of cores -/

/-- Settles O24: each service acts where its conditions hold. -/
theorem coreService : Obligations.CoreService := by
  unfold Obligations.CoreService
  refine ⟨?spare, ?map, ?poll⟩
  case spare =>
    intro s die cl slot n sp hd hc hs hon hn hsp hsus hb
    change execSpareHandoff .. = _
    refine onDev_eq ?_
    unfold spareHandoffEff
    rw [hn, hsp]
    dsimp only
    rw [hon, hsus, hb, decide_eq_true hd, decide_eq_true hc, decide_eq_true hs]
    rfl
  case map =>
    intro s die cl n sub hd hc hn hs hst hm hb
    change execCoreMapOut .. = _
    have hp : (List.range 7).any (fun s' => decide ((s.dev.hist (coreUnit die cl n s')).state = 2)) = true :=
      List.any_eq_true.mpr ⟨sub, List.mem_range.mpr hs, decide_eq_true hst⟩
    refine onDev_eq (if_neg ?_)
    rw [hp, hm, hb, decide_eq_false (Nat.not_le.mpr hd), decide_eq_false (Nat.not_le.mpr hc), decide_eq_false (Nat.not_le.mpr hn)]
    exact Bool.false_ne_true
  case poll =>
    intro s l hs hv hh
    change execHealthPoll .. = _
    refine onDev_eq (if_neg ?_)
    rintro (h | h | h)
    · exact absurd hs (Nat.not_le.mpr h)
    · exact h hv
    · exact Bool.false_ne_true (hh.symm.trans h)

end Sys2Proof.Machine
end

section
/-! SUPPORT. The commands of configuration and power, and the statements about them. -/

open Sys2Proof Sys2Proof.Machine

namespace Sys2Proof.Machine

/-! ## The configuration commands -/

/-- Searching for a value is searching for the first element that has one. -/
theorem findSome?_eq_find?_bind {α β : Type} {f : α → Option β} {p : α → Bool} (hp : ∀ a, (f a).isSome = p a) (l : List α) :
    l.findSome? f = (l.find? p).bind f := by
  induction l with
  | nil => rfl
  | cons a l ih =>
    rw [List.findSome?_cons, List.find?_cons, ← hp a]
    cases hf : f a with
    | some b => simp [hf]
    | none => simpa [hf] using ih

/-- What staging and arming leave: memory and the contexts. -/
def Dev.besideBanks (d : Dev) : Memory × SMap Ctx := (d.mem, d.ctxs)

theorem Dev.entryPut_besideBanks (d : Dev) (e : CfgEntry) (v : Nat → Nat) : (d.entryPut e v).besideBanks = d.besideBanks := by
  unfold Dev.entryPut
  split
  · split <;> rfl
  · rfl

theorem Dev.applyEntry_besideBanks (d : Dev) (e : CfgEntry) : (d.applyEntry e).besideBanks = d.besideBanks := by
  unfold Dev.applyEntry
  exact d.entryPut_besideBanks e _

theorem Dev.arm_besideBanks (d : Dev) (gid half : Nat) (hub : Option Nat) : (d.arm gid half hub).besideBanks = d.besideBanks := by
  unfold Dev.arm
  extract_lets die cap offs clamped arm1 d1
  split
  · unfold Dev.besideBanks
    rw [Dev.record_mem, Dev.record_ctxs]
    rfl
  · rfl

theorem Dev.switchStaged_besideBanks (d : Dev) (code : Nat) : (d.switchStaged code).besideBanks = d.besideBanks :=
  (foldl_fixes Dev.besideBanks Dev.applyEntry_besideBanks _ _).trans
    (foldl_fixes Dev.besideBanks (f := fun (d : Dev) e => d.entryPut e (CfgEntry.onto { e with value := d.baseValue e }))
      (fun d e => d.entryPut_besideBanks e _) _ d)

theorem Dev.cfgCommit_of_half {d : Dev} {gid half : Nat} (hh : [0, 1].filter (d.groupIn gid) = [half]) (hm : d.mayArm gid half = true) :
    d.cfgCommit gid = (d.arm gid half none).wait 0 := by
  unfold Dev.cfgCommit
  rw [hh]
  dsimp only
  rw [if_neg (by simp), if_pos (by simp [hm])]
  rfl

/-- The groups that a switch of the job mode arms. -/
def Dev.switchGroups (d : Dev) (code : Nat) : List (Nat × Nat) :=
  ((0xC004, 0) :: (d.switchStaged code).namedGroups (overlayOf d.fw.cfgImage d.outgoing ++ overlayOf d.fw.cfgImage code)).dedup

/-- The device with a switch of the job mode staged and armed. -/
def Dev.switching (d : Dev) (code : Nat) : Dev :=
  let d2 := (d.switchGroups code).foldl (fun d g => d.arm g.1 g.2 (some markSilent)) (d.switchStaged code)
  { d2 with fw := { d2.fw with switchTo := some (code, none) } }

theorem Dev.switching_besideBanks (d : Dev) (code : Nat) : (d.switching code).besideBanks = d.besideBanks := by
  unfold Dev.switching
  generalize d.switchGroups code = l
  have h := foldl_fixes Dev.besideBanks (f := fun (d : Dev) (g : Nat × Nat) => d.arm g.1 g.2 (some markSilent))
    (fun d g => d.arm_besideBanks g.1 g.2 _) l (d.switchStaged code)
  exact h.trans (d.switchStaged_besideBanks code)

theorem Dev.cfgOverlay_of_mode {d : Dev} {code : Nat} (hc : isModeCode code = true)
    (ho : code = pretrain ∨ (overlay? d.fw.cfgImage code).isSome = true)
    (hl : (d.switchGroups code).all (fun g => (d.switchStaged code).mayArm g.1 g.2) = true) :
    d.cfgOverlay code = (d.switching code).wait 0 := by
  have hn : ¬ (!isModeCode code || (decide (code ≠ pretrain) && (overlay? d.fw.cfgImage code).isNone)) = true := by
    rw [hc]
    rcases ho with rfl | ho
    · simp
    · rw [Option.isSome_iff_ne_none] at ho
      simp [ho]
  unfold Dev.cfgOverlay Dev.switching
  rw [if_neg hn]
  extract_lets d1 named l d2
  have hl' : l = d.switchGroups code := rfl
  clear_value l
  subst hl'
  rw [if_pos hl]

/-- Settles O25: each command passes its checks and acts on the staged or the armed bank. -/
theorem configCommands : Obligations.ConfigCommands := by
  unfold Obligations.ConfigCommands
  refine ⟨?stage, ?bad, ?commit, ?noMode, ?mode, ?query⟩
  case stage =>
    intro s h list count hd l hl
    change execCfgStage .. = _
    refine onDev_eq (Dev.command_inFreeSession hd rfl ?_)
    have hn : l.findSome? (fun e => if (s.dev.take h).skips e then some St.cfgRegister else e.fail) = none := by
      refine List.findSome?_eq_none_iff.mpr fun e he => ?_
      obtain ⟨hs, hf⟩ := hl e he
      rw [show (s.dev.take h).skips e = false from hs, hf]
      rfl
    unfold Dev.cfgStage
    dsimp only
    rw [show readEntries (s.dev.take h).hostMem list count = l from rfl, hn]
    rfl
  case bad =>
    intro s h list count e st hd he hst
    change execCfgStage .. = _
    refine onDev_eq (Dev.command_inFreeSession hd rfl ?_)
    have hp : ∀ e : CfgEntry, (if (s.dev.take h).skips e then some St.cfgRegister else e.fail).isSome = (s.dev.skips e || e.fail.isSome) := by
      intro e
      rw [show (s.dev.take h).skips e = s.dev.skips e from rfl]
      cases s.dev.skips e <;> rfl
    have hf : (s.dev.skips e || e.fail.isSome) = true := by
      have := List.find?_some he
      exact this
    have hn : (readEntries (s.dev.take h).hostMem list count).findSome?
        (fun e => if (s.dev.take h).skips e then some St.cfgRegister else e.fail) = some st := by
      rw [findSome?_eq_find?_bind hp, show (s.dev.take h).hostMem = s.dev.hostMem from rfl, he, Option.bind_some,
        show (s.dev.take h).skips e = s.dev.skips e from rfl, hst]
      cases hs : s.dev.skips e with
      | true => rfl
      | false =>
        rw [hs, Bool.false_or] at hf
        obtain ⟨v, hv⟩ := Option.isSome_iff_exists.mp hf
        rw [hv]
        rfl
    unfold Dev.cfgStage
    dsimp only
    rw [hn]
    rfl
  case commit =>
    intro s h gid half hd hh hm d
    change execCfgCommitCmd .. = _
    exact onDev_eq (s.dev.command_waits hd.1.takes (s.dev.entryFail_free h false hd) (Dev.cfgCommit_of_half hh hm))
  case noMode =>
    intro s h code hd hc
    change execCfgOverlay .. = _
    refine onDev_eq (Dev.command_inFreeSession hd rfl (if_pos ?_))
    rw [hc]
    rfl
  case mode =>
    intro s h code hd hc ho d l hl
    have he := Dev.cfgOverlay_of_mode (d := s.dev.take h) hc ho hl
    have hb := (s.dev.take h).switching_besideBanks code
    refine ⟨((s.dev.take h).switching code).enqueue h (.cfgOverlay h code) 0, ?_, rfl, congrArg (·.1) hb, congrArg (·.2) hb, _,
      List.mem_append_right _ (List.mem_singleton_self _), rfl, rfl⟩
    change execCfgOverlay .. = _
    exact onDev_eq (s.dev.command_waits hd.1.takes (s.dev.entryFail_free h false hd) he)
  case query =>
    intro s h gid half hd hh hg differs p
    change execCfgQuery .. = _
    have hg' : (s.dev.take h).groupIn gid half = true := hg
    refine onDev_eq (Dev.command_inFreeSession hd (by rw [decide_eq_false (Nat.not_lt.mpr hh)]) (if_neg ?_))
    rw [hg']
    exact Bool.false_ne_true

/-! ## The power commands -/

section
variable {d : Dev} {v : Nat}

theorem Dev.pwrLimit_of_low (hv : v < ceilDiv (classPower d.classNo) 10) : d.pwrLimit 0 v = d.refuse St.pwrRange := by
  unfold Dev.pwrLimit
  rw [show d.limitOf 0 v = some (0x00020008, v, ceilDiv (classPower d.classNo) 10) from rfl]
  exact if_pos hv

/-- A limit of the module's power that is in range is staged, held to the ceiling, and armed. -/
theorem Dev.pwrLimit_of_range (hv : ceilDiv (classPower d.classNo) 10 ≤ v)
    (hm : (d.stagePut 16 0x00020008 (rwsReset 16 0x00020008) (min v (d.hwLimit 0x00020008))).mayArm 0xC005 0 = true) :
    d.pwrLimit 0 v =
      if d.hwLimit 0x00020008 < v then {
        dev := (((d.stagePut 16 0x00020008 (rwsReset 16 0x00020008) (min v (d.hwLimit 0x00020008))).arm 0xC005 0 none).stick
          Sticky.limitClamped).record { type := Rt.power, status := St.limitClamped, opcode := 0xC005 }
        status := St.limitClamped, words := [d.hwLimit 0x00020008] }
      else ((d.stagePut 16 0x00020008 (rwsReset 16 0x00020008) (min v (d.hwLimit 0x00020008))).arm 0xC005 0 none).done [v] := by
  unfold Dev.pwrLimit
  rw [show d.limitOf 0 v = some (0x00020008, v, ceilDiv (classPower d.classNo) 10) from rfl]
  dsimp only
  rw [if_neg (Nat.not_lt.mpr hv), hm]
  rfl
end

/-- Settles O26: by where the limit lies; the queries answer. -/
theorem powerCommands : Obligations.PowerCommands := by
  unfold Obligations.PowerCommands
  refine ⟨?within, ?above, ?below, ?query, ?telemetry⟩
  case within =>
    intro s h v hd hv hc d hm
    change execPwrLimit .. = _
    refine onDev_eq (Dev.command_inFreeSession hd (by rw [decide_eq_false (fun h => Nat.zero_ne_add_one 2 h.1)]) ?_)
    have hmin : min v ((s.dev.take h).hwLimit 0x00020008) = v := Nat.min_eq_left hc
    refine (Dev.pwrLimit_of_range (d := s.dev.take h) hv (by rw [hmin]; exact hm)).trans ((if_neg (Nat.not_lt.mpr hc)).trans ?_)
    rw [hmin]
    rfl
  case above =>
    intro s h v hd hv hc d hm
    change execPwrLimit .. = _
    refine onDev_eq (Dev.command_inFreeSession hd (by rw [decide_eq_false (fun h => Nat.zero_ne_add_one 2 h.1)]) ?_)
    have hmin : min v ((s.dev.take h).hwLimit 0x00020008) = (s.dev.take h).hwLimit 0x00020008 := Nat.min_eq_right (Nat.le_of_lt hc)
    refine (Dev.pwrLimit_of_range (d := s.dev.take h) hv (by rw [hmin]; exact hm)).trans ((if_pos hc).trans ?_)
    rw [hmin]
    rfl
  case below =>
    intro s h v hd hv
    change execPwrLimit .. = _
    exact onDev_eq (Dev.command_inFreeSession hd (by rw [decide_eq_false (fun h => Nat.zero_ne_add_one 2 h.1)])
      (Dev.pwrLimit_of_low (d := s.dev.take h) hv))
  case query =>
    intro s h hd d
    change execPwrQuery .. = _
    exact onDev_eq (Dev.command_inSession hd rfl rfl)
  case telemetry =>
    intro s h period buf hd hp
    change execPwrTelemetry .. = _
    exact onDev_eq (Dev.command_inFreeSession hd rfl (if_neg (by omega)))

end Sys2Proof.Machine
end

section
/-! SUPPORT. Power-up, power-down, throttling and telemetry, and the statements about them. -/

open Sys2Proof Sys2Proof.Machine

namespace Sys2Proof.Machine

/-! ## What the moves of the power state reach -/

@[simp] theorem Dev.record_pwr (d : Dev) (e : Ev) : (d.record e).pwr = d.pwr := by rw [Dev.record_eq]

theorem Dev.sendHeartbeats_eq (d : Dev) :
    ∃ o, d.sendHeartbeats = { d with out := o, fab := { d.fab with heartbeats := (d.fab.heartbeats + 1) % 65536 } } := by
  have h : ∀ (l : List Nat) (w : Nat) (e : Dev), ∃ o, l.foldl (fun d p => d.emit (.orderedSet p 1 [w])) e = { e with out := o } := by
    intro l w
    induction l with
    | nil => exact fun e => ⟨e.out, rfl⟩
    | cons p l ih =>
      intro e
      obtain ⟨o, ho⟩ := ih (e.emit (.orderedSet p 1 [w]))
      exact ⟨o, ho⟩
  unfold Dev.sendHeartbeats
  obtain ⟨o, ho⟩ := h (d.planePorts.filter (fun p => decide (1 ≤ (d.port p).state))) d.hbWord d
  exact ⟨o, by dsimp only; rw [ho]⟩

/-- A power-down is the record of the device that begins it. -/
theorem Dev.powerDown_eq (d : Dev) (st : Status) :
    ∃ e : Dev, d.powerDown st = e.record { type := Rt.power, status := st }
      ∧ e.pwr = { d.pwr with phase := 5, good := false, todo := [], held := false } ∧ e.fab.hbState = 3
      ∧ e.mem = d.mem ∧ e.ctxs = d.ctxs := by
  unfold Dev.powerDown
  extract_lets _ _ d1
  obtain ⟨o, ho⟩ := d1.sendHeartbeats_eq
  rw [ho]
  exact ⟨_, rfl, rfl, rfl, rfl, rfl⟩

/-- What the training of the ports leaves as it is. -/
def Dev.besidePorts (d : Dev) : Power × Memory × SMap Ctx := (d.pwr, d.mem, d.ctxs)

/-- Power is good after the last domain. -/
theorem Dev.powerGood_besidePorts (d : Dev) :
    d.powerGood.besidePorts = ({ d.pwr with phase := 4, good := true, todo := [] }, d.mem, d.ctxs) := by
  unfold Dev.powerGood
  extract_lets _ d1 train
  have ht : ∀ e p, (train p e).besidePorts = e.besidePorts := fun e p => by
    change (if _ then _ else _ : Dev).besidePorts = _
    split <;> rfl
  have hf : (upto 48 train d1).besidePorts = d1.besidePorts := foldl_fixes Dev.besidePorts (f := fun d p => train p d) ht _ d1
  generalize upto 48 train d1 = e at hf
  have hr : e.refreshHealth.besidePorts = e.besidePorts := by
    unfold Dev.refreshHealth
    extract_lets new old d1
    split
    · rfl
    · unfold Dev.besidePorts
      rw [Dev.record_pwr, Dev.record_mem, Dev.record_ctxs]
      split <;> rfl
  exact hr.trans (hf.trans rfl)

/-! ## Power-up and power-down -/

/-- The device with its class fixed. -/
theorem classSelectedEff_of_unfixed {d : Dev} {id rise : Nat} {fluid : Bool} (hp : d.pwr.phase = 1) (hi : id < 4)
    (hc : d.pwr.cls = none) (he : d.pwr.pwrEn = false) :
    (classSelectedEff id rise fluid d).pwr.phase = 2
      ∧ (classSelectedEff id rise fluid d).pwr.cls = some (fixClass id rise fluid)
      ∧ (classSelectedEff id rise fluid d).mem = d.mem ∧ (classSelectedEff id rise fluid d).ctxs = d.ctxs := by
  have hn : ¬ (d.pwr.phase ≠ 1 ∨ 4 ≤ id) := by omega
  unfold classSelectedEff
  rw [if_neg hn]
  extract_lets k dis _ d0 a d1 _ d2
  obtain ⟨b, hb⟩ := d0.hwLimits_eq
  have ha : a.pwr = d0.pwr ∧ a.mem = d.mem ∧ a.ctxs = d.ctxs := by
    change (if _ then _ else _ : Dev).pwr = _ ∧ (if _ then _ else _ : Dev).mem = _ ∧ (if _ then _ else _ : Dev).ctxs = _
    rw [hb]
    split
    · rw [Dev.record_pwr, Dev.record_mem, Dev.record_ctxs]
      exact ⟨rfl, rfl, rfl⟩
    · exact ⟨rfl, rfl, rfl⟩
  have h1 : d1.pwr = d0.pwr ∧ d1.mem = d.mem ∧ d1.ctxs = d.ctxs := by
    have hm : d1 = a.record { type := Rt.power, status := St.classSelected, opcode := k } := by
      change (match d.pwr.cls with | some _ => d | none => _ : Dev) = _
      rw [hc]
    rw [hm, Dev.record_pwr, Dev.record_mem, Dev.record_ctxs]
    exact ha
  obtain ⟨hp1, hm1, hc1⟩ := h1
  have h2 : d2.pwr.pwrEn = false := (congrArg Power.pwrEn hp1).trans he
  rw [if_neg (by rw [h2]; exact Bool.false_ne_true)]
  exact ⟨rfl, congrArg Power.cls hp1, hm1, hc1⟩

/-- A reset keeps the supply, what holds a power-up back, and the link. -/
theorem Dev.deviceReset_power (d : Dev) : d.deviceReset.pwr.supply = d.pwr.supply ∧ d.deviceReset.pwr.held = d.pwr.held
    ∧ d.deviceReset.pwr.thermHold = d.pwr.thermHold ∧ d.deviceReset.host.linkUp = d.host.linkUp := by
  unfold Dev.deviceReset
  extract_lets f _ _ d1
  obtain ⟨b, hb⟩ := d1.hwLimits_eq
  obtain ⟨m, o, hs⟩ := ({ d1 with bank := b } : Dev).hostState_eq 0
  rw [hb, hs]
  exact ⟨rfl, rfl, rfl, rfl⟩

/-- Settles O27: each event of the power state, from the phase that it finds. -/
theorem powerUp : Obligations.PowerUp := by
  unfold Obligations.PowerUp
  refine ⟨?supply, ?cls, ?next, ?last, ?limit, ?rise, ?fall, ?fault, ?trip, ?down, ?cool⟩
  case supply =>
    intro s hp
    exact ⟨_, (show execSupplyInRange .. = _ from onDev_eq (if_pos hp)), rfl, rfl, rfl, rfl, rfl, rfl, rfl, rfl⟩
  case cls =>
    intro s id rise fluid hp hi hc he
    exact ⟨_, rfl, classSelectedEff_of_unfixed hp hi hc he⟩
  case next =>
    intro s n m rest hp ht
    change execDomainInTolerance .. = _
    refine onDev_eq ?_
    unfold domainInToleranceEff
    rw [ht]
    dsimp only
    rw [if_pos (by simp [hp])]
    rfl
  case last =>
    intro s n hp ht
    have he : domainInToleranceEff n s.dev = s.dev.powerGood := by
      unfold domainInToleranceEff
      rw [ht]
      dsimp only
      rw [if_pos (by simp [hp])]
      rfl
    have hg := s.dev.powerGood_besidePorts
    exact ⟨_, (show execDomainInTolerance .. = _ from onDev_eq he), congrArg (·.1) hg, congrArg (·.2.1) hg, congrArg (·.2.2) hg⟩
  case limit =>
    intro s n rest hp ht
    have hn : ¬ (decide (s.dev.pwr.phase ≠ 3) || decide (s.dev.pwr.todo.head? ≠ some n)) = true := by
      rw [ht]
      simp [hp]
    refine ⟨_, (show execDomainToleranceTimeout .. = _ from onDev_eq (if_neg hn)), ?_⟩
    rw [Dev.record_pwr, Dev.record_mem]
    exact ⟨rfl, rfl, rfl, rfl⟩
  case rise =>
    intro s hp he
    change execPwrEnRise .. = _
    exact onDev_eq ((if_neg (by rw [he]; exact Bool.false_ne_true)).trans (if_pos hp))
  case fall =>
    intro s hp he
    obtain ⟨e, hd, hw, hb, hm, hc⟩ := Dev.powerDown_eq { s.dev with pwr := { s.dev.pwr with pwrEn := false, held := false } } St.powerDown
    refine ⟨e, ?_, hw, hb, hm, hc⟩
    change execPwrEnFall .. = _
    refine onDev_eq (Eq.trans ?_ hd)
    unfold pwrEnFallEff
    dsimp only
    rw [if_neg (by simp [he]), if_pos (by omega)]
  case fault =>
    intro s hp
    obtain ⟨e, hd, hw, hb, hm, hc⟩ := Dev.powerDown_eq
      (Dev.stick { s.dev with pwr := { s.dev.pwr with supply := false, held := false } } Sticky.powerFault) St.powerFault
    refine ⟨e, ?_, hw, hm, hc⟩
    change execPowerFault .. = _
    refine onDev_eq (Eq.trans ?_ hd)
    unfold powerFaultEff
    dsimp only
    rw [if_neg (by omega), if_neg (by omega)]
  case trip =>
    intro s hp
    obtain ⟨e, hd, hw, hb, hm, hc⟩ := Dev.powerDown_eq
      ((Dev.stick { s.dev with pwr := { s.dev.pwr with tripPin := true, thermHold := true } } Sticky.thermTrip).stick Sticky.failed)
      St.thermTrip
    refine ⟨e, ?_, hw, hm, hc⟩
    change execThermTrip .. = _
    refine onDev_eq (Eq.trans ?_ hd)
    unfold thermTripEff
    dsimp only
    rw [if_neg (by omega), if_neg (by omega)]
  case down =>
    intro s hp hs hh
    refine ⟨powerDownCompleteEff s.dev, rfl, ?_⟩
    unfold powerDownCompleteEff
    rw [if_neg (not_not.mpr hp)]
    extract_lets _ d1 p keep _ _ _ d2
    obtain ⟨hst, hcx, hlog, hhist⟩ : d1.host.state = 0 ∧ d1.ctxs = [] ∧ d1.log = s.dev.log ∧ d1.health.hist = s.dev.health.hist := by
      obtain ⟨hst, hcx, -, -, -, -, -, -, hlog, -, hhist, -, -⟩ :=
        deviceResetLeaves { s.dev with host := { s.dev.host with linkUp := false, width := 0 } }
      exact ⟨hst, hcx, hlog, hhist⟩
    obtain ⟨hsup, hheld, hhold, hlink⟩ : d1.pwr.supply = s.dev.pwr.supply ∧ d1.pwr.held = s.dev.pwr.held
        ∧ d1.pwr.thermHold = s.dev.pwr.thermHold ∧ d1.host.linkUp = false :=
      Dev.deviceReset_power { s.dev with host := { s.dev.host with linkUp := false, width := 0 } }
    have hph : d2.pwr.phase = 7 := if_pos (hsup.trans hs)
    have hc : (decide (d2.pwr.phase = 7) && p.held && !p.thermHold) = s.dev.pwr.held := by
      rw [hph, show p.held = s.dev.pwr.held from hheld, show p.thermHold = s.dev.pwr.thermHold from hhold]
      cases hheld' : s.dev.pwr.held with
      | false => rfl
      | true => rw [hh hheld']; rfl
    rw [hc]
    cases s.dev.pwr.held with
    | true => exact ⟨rfl, rfl, rfl, rfl, hcx, hst, hlink, hlog, hhist⟩
    | false => exact ⟨hph, rfl, rfl, rfl, hcx, hst, hlink, hlog, hhist⟩
  case cool =>
    intro s ht hh
    change execSensorsBelow85C .. = _
    refine onDev_eq ?_
    unfold sensorsBelow85CEff
    dsimp only
    rw [if_neg (by simp [ht]), if_neg (by simp [hh])]

/-! ## Throttling and telemetry -/

theorem length_leBytes (n v : Nat) : (leBytes n v).length = n := by
  induction n generalizing v with
  | zero => rfl
  | succ n ih => exact congrArg (· + 1) (ih _)

theorem Dev.length_sample (d : Dev) (energy hotW hotE : Nat) : (d.sample energy hotW hotE).length = 64 := by
  unfold Dev.sample
  simp only [List.length_append, length_leBytes, List.length_replicate]

theorem Dev.storeHost_hostMem (d : Dev) (a : Nat) (l : List Byte) : (d.storeHost a l).hostMem = d.hostMem.writeBytes a l := rfl

/-- A sample that is due goes into the host's ring. -/
theorem telemetrySampleEff_of_due {d : Dev} {input power hottest energy hotW hotE : Nat} (hp : d.pwr.phase = 4)
    (hn : ¬ (!d.pwr.telDue || decide (d.pwr.telPeriod = 0) || decide (at' d.fw.svc 8 0 ≠ 0) || d.fw.handing) = true)
    (hl : ¬ (!d.host.linkUp) = true) :
    ∃ (e : Dev) (b : List Byte), telemetrySampleEff input power hottest energy hotW hotE d = e ∧ b.length = 64
      ∧ e.hostMem = d.hostMem.writeBytes (d.pwr.telBuf + d.pwr.telIndex % 256 * 64) b
      ∧ e.pwr.telIndex = d.pwr.telIndex + 1 ∧ e.pwr.telDue = false ∧ e.pwr.power = word power ∧ e.mem = d.mem := by
  fun_cases telemetrySampleEff input power hottest energy hotW hotE d with
  | case1 h => exact absurd hp h
  | case2 _ d1 h => exact absurd h hn
  | case3 _ d1 _ d2 h => exact absurd h hl
  | case4 _ d1 _ d2 _ d3 =>
    have hm : d3.mem = d.mem := (rfl : d3.mem = d2.mem).trans ((rfl : d2.mem = d1.mem).trans rfl)
    have hh : d3.hostMem = d2.hostMem.writeBytes (d2.pwr.telBuf + d2.pwr.telIndex % 256 * 64) (d2.sample energy hotW hotE) :=
      d2.storeHost_hostMem (d2.pwr.telBuf + d2.pwr.telIndex % 256 * 64) (d2.sample energy hotW hotE)
    have hi : d3.pwr.telIndex = d.pwr.telIndex ∧ d3.pwr.telDue = false ∧ d3.pwr.power = word power := ⟨rfl, rfl, rfl⟩
    clear_value d3
    refine ⟨{ d3 with pwr := { d3.pwr with telIndex := d3.pwr.telIndex + 1 } }, d2.sample energy hotW hotE, rfl,
      d2.length_sample _ _ _, hh, congrArg (· + 1) hi.1, hi.2.1, hi.2.2, hm⟩

/-- Settles O28: a cause in force moves its clock by a step, and a sample that is due is stored. -/
theorem throttleAndTelemetry : Obligations.ThrottleAndTelemetry := by
  unfold Obligations.ThrottleAndTelemetry
  refine ⟨?throttle, ?sample⟩
  case throttle =>
    intro s cause half domain t hp hc hh hd ht
    have hn : ¬ (decide (s.dev.pwr.phase ≠ 4) || decide (4 ≤ cause) || decide (2 ≤ half) || decide (30 ≤ domain)) = true := by
      simp
      omega
    constructor
    · change execThrottleStep .. = _
      refine onDev_eq ((if_neg hn).trans ?_)
      dsimp only
      rw [ht]
      rfl
    · change execThrottleStep .. = _
      refine onDev_eq ((if_neg hn).trans ?_)
      dsimp only
      rw [ht]
      rfl
  case sample =>
    intro s input power hottest energy hotW hotE hp hd ht hv hh hl
    have hn : ¬ (!s.dev.pwr.telDue || decide (s.dev.pwr.telPeriod = 0) || decide (at' s.dev.fw.svc 8 0 ≠ 0) || s.dev.fw.handing) = true := by
      rw [hd, hv, hh, decide_eq_false ht]
      decide
    have hn' : ¬ (!s.dev.host.linkUp) = true := by
      rw [hl]
      decide
    obtain ⟨e, b, he, hb⟩ := telemetrySampleEff_of_due (input := input) (power := power) (hottest := hottest) (energy := energy)
      (hotW := hotW) (hotE := hotE) hp hn hn'
    exact ⟨e, b, (show execTelemetrySample .. = _ from onDev_eq he), hb⟩

end Sys2Proof.Machine
end

section
/-! SUPPORT. The host interface: loading, the rings, the window and the link, and the statements about them. -/

open Sys2Proof Sys2Proof.Machine

namespace Sys2Proof.Machine

/-! ## Loading -/

theorem bit_eq_testBit (v i : Nat) : bit v i = v.testBit i := Nat.testBit_eq_decide_div_mod_eq.symm

/-- Setting a bit of a word sets that bit alone. -/
theorem bit_or_pow (w : Word) {k : Nat} (hk : k < 32) (j : Nat) :
    bit (w ||| word (2 ^ k)).toNat j = (bit w.toNat j || j == k) := by
  have hw : (word (2 ^ k)).toNat = 2 ^ k := Nat.mod_eq_of_lt (Nat.pow_lt_pow_right (by decide) hk)
  rw [bit_eq_testBit, bit_eq_testBit, BitVec.toNat_or, hw, Nat.testBit_or, Nat.testBit_two_pow]
  by_cases h : k = j
  · simp [h]
  · simp [h, Ne.symm h]

/-- Settles O29: by the host state that each bit finds, and what a change of the state fires. -/
theorem loadingStates : Obligations.LoadingStates := by
  unfold Obligations.LoadingStates
  refine ⟨?bits, fun d k hk => ⟨_, rfl, fun j _ => bit_or_pow _ (by omega) j⟩, ?vector⟩
  case bits =>
    intro s hl
    have hup : ¬ (!s.dev.host.linkUp) = true := by rw [hl]; exact Bool.false_ne_true
    refine ⟨fun h => ?_, fun h => ⟨?_, ?_⟩, fun h0 h4 => ?_, fun h => ⟨?_, ?_⟩⟩
    · change execLoadStart .. = _
      exact onDev_eq ((if_neg hup).trans (if_pos (by rcases h with h | h <;> simp [h])))
    · change execLoadGo .. = _
      exact onDev_eq ((if_neg hup).trans (if_pos h))
    · change execLoadAbort .. = _
      exact onDev_eq ((if_neg hup).trans (if_pos h))
    · change execLoadStart .. = _
      exact onDev_eq ((if_neg hup).trans (if_neg (by simp [h0, h4])))
    · change execLoadGo .. = _
      exact onDev_eq ((if_neg hup).trans (if_neg h))
    · change execLoadAbort .. = _
      exact onDev_eq ((if_neg hup).trans (if_neg h))
  case vector =>
    intro d n hn hl hm
    refine (if_neg hn).trans ((if_neg ?_).trans (if_neg ?_))
    · rw [hl]; exact Bool.false_ne_true
    · rw [hm]; exact Bool.false_ne_true

/-- A record reaches the firmware by its subscriptions alone. -/
theorem Dev.record_fw (d : Dev) (e : Ev) : ∃ q, (d.record e).fw = { d.fw with subs := q } := by
  unfold Dev.record
  extract_lets n d1 m d2
  split
  · exact ⟨_, rfl⟩
  · split
    · exact ⟨_, rfl⟩
    · split <;> exact ⟨_, rfl⟩

/-- What a refused load leaves: the state and the result that say so. -/
theorem Dev.rejectLoad_leaves (d : Dev) (code : Nat) (st : Status) :
    (d.rejectLoad code st).host.state = 4 ∧ (d.rejectLoad code st).host.bootResult = code
      ∧ (d.rejectLoad code st).host.cfgStatus = st ∧ (d.rejectLoad code st).bank = d.bank ∧ (d.rejectLoad code st).mem = d.mem
      ∧ (d.rejectLoad code st).ctxs = d.ctxs := by
  unfold Dev.rejectLoad
  extract_lets d1 _ d2
  have h2 : (if code < 8 then d2.stick Sticky.imageRejected else d2).host = d2.host
      ∧ (if code < 8 then d2.stick Sticky.imageRejected else d2).bank = d.bank
      ∧ (if code < 8 then d2.stick Sticky.imageRejected else d2).mem = d.mem
      ∧ (if code < 8 then d2.stick Sticky.imageRejected else d2).ctxs = d.ctxs := by
    split <;> exact ⟨rfl, rfl, rfl, rfl⟩
  generalize (if code < 8 then d2.stick Sticky.imageRejected else d2) = e at h2
  obtain ⟨hh, hb, hm, hc⟩ := h2
  obtain ⟨q, hq⟩ := e.record_host { type := Rt.security, status := St.imageRejected }
  obtain ⟨m, o, hs⟩ := (e.record { type := Rt.security, status := St.imageRejected }).hostState_eq 4
  rw [hs]
  simp only [Dev.record_bank, Dev.record_mem, Dev.record_ctxs, hq, hh]
  exact ⟨trivial, rfl, rfl, hb, hm, hc⟩

/-- A refresh of the health summary reaches the log, the host's queue and the subscriptions by its record alone. -/
theorem Dev.refreshHealth_leaves (d : Dev) :
    d.refreshHealth.host.state = d.host.state ∧ d.refreshHealth.fw.mode = d.fw.mode ∧ d.refreshHealth.fw.cfgImage = d.fw.cfgImage
      ∧ d.refreshHealth.bank = d.bank ∧ d.refreshHealth.mem = d.mem := by
  unfold Dev.refreshHealth
  extract_lets new old _ d1
  split
  · exact ⟨rfl, rfl, rfl, rfl, rfl⟩
  · have h1 : (if old = 0 then d1.stick Sticky.degraded else d1).host = d.host
        ∧ (if old = 0 then d1.stick Sticky.degraded else d1).fw = d.fw
        ∧ (if old = 0 then d1.stick Sticky.degraded else d1).bank = d.bank
        ∧ (if old = 0 then d1.stick Sticky.degraded else d1).mem = d.mem := by
      split <;> exact ⟨rfl, rfl, rfl, rfl⟩
    generalize (if old = 0 then d1.stick Sticky.degraded else d1) = e at h1
    obtain ⟨hh, hf, hb, hm⟩ := h1
    obtain ⟨q, hq⟩ := e.record_host { type := Rt.health, status := St.deviceDegraded }
    obtain ⟨u, hu⟩ := e.record_fw { type := Rt.health, status := St.deviceDegraded }
    simp only [Dev.record_bank, Dev.record_mem, hq, hu, hh, hf]
    exact ⟨trivial, trivial, trivial, hb, hm⟩

theorem CfgEntry.fail_ne_ok (e : CfgEntry) : e.fail ≠ some St.ok := by
  unfold CfgEntry.fail
  split
  · decide
  · split <;> simp [St.ok, St.reservedNonzero]

/-- A configuration that loads puts the device into its pretraining mode. -/
theorem Dev.loadConfig_of_ok {d : Dev} {m : Memory} {len : Nat} (h : (d.loadConfig m len).1 = St.ok) :
    (d.loadConfig m len).2.fw.mode = pretrain ∧ (d.loadConfig m len).2.fw.cfgImage = m := by
  revert h
  unfold Dev.loadConfig
  extract_lets every
  split
  · exact fun h => absurd h (show St.cfgImage ≠ St.ok by decide)
  · split
    next st hs =>
      intro h
      obtain ⟨e, -, he⟩ := List.exists_of_findSome?_eq_some hs
      exact absurd (he.trans (congrArg some h)) e.fail_ne_ok
    next =>
      split
      · exact fun h => absurd h (show St.stageConflict ≠ St.ok by decide)
      · exact fun _ => ⟨rfl, rfl⟩

theorem Dev.loadConfig_of_malformed {d : Dev} {m : Memory} {len : Nat} (h : imageWellFormed m len = false) :
    d.loadConfig m len = (St.cfgImage, d) := by
  unfold Dev.loadConfig
  exact if_pos (by rw [h]; rfl)

/-- Settles O30: by the verdict of the checks and of the configuration's load. -/
theorem imageVerified : Obligations.ImageVerified := by
  unfold Obligations.ImageVerified
  refine ⟨?verdict, ?late, ?magic, ?loads, ?refused⟩
  case verdict =>
    intro s revoked keyHash minSvn hs
    refine ⟨imageVerifyDoneEff revoked keyHash minSvn s.dev, rfl, ?_⟩
    unfold imageVerifyDoneEff
    rw [if_neg (not_not.mpr hs)]
    generalize s.dev.imageCheck revoked keyHash minSvn = code
    dsimp only
    by_cases hc : code = 0
    · rw [if_neg (not_not.mpr hc), if_pos hc]
      obtain ⟨m, o, he⟩ := Dev.hostState_eq { s.dev.startFw minSvn with
        host := { (s.dev.startFw minSvn).host with bootResult := 0, cfgStatus := 0 } } 3
      rw [he]
      exact ⟨rfl, hc.symm, rfl, rfl⟩
    · rw [if_pos hc, if_neg hc]
      obtain ⟨hst, hb, -, -, hm, hx⟩ := s.dev.rejectLoad_leaves code 0
      exact ⟨hst, hb, hm, hx⟩
  case late =>
    intro s hs
    obtain ⟨hst, hb, -, -, hm, -⟩ := s.dev.rejectLoad_leaves 9 0
    exact ⟨_, (show execStartTimeout .. = _ from onDev_eq (if_neg (not_not.mpr hs))), hst, hb, hm⟩
  case magic =>
    intro d revoked keyHash minSvn h
    unfold Dev.imageCheck
    exact if_pos (Or.inl h)
  case loads =>
    intro s hs ha r hr
    have hn : ¬ (decide (s.dev.host.state ≠ 3) || !s.dev.fw.complexes.any (·.active)) = true := by
      rw [ha, decide_eq_false (not_not.mpr hs)]
      exact Bool.false_ne_true
    obtain ⟨hmode, himg⟩ : r.2.fw.mode = pretrain
        ∧ r.2.fw.cfgImage = s.dev.host.staging.window cfgAt s.dev.host.cfgBytes.toNat := Dev.loadConfig_of_ok hr
    refine ⟨baseConfigLoadEff s.dev, rfl, ?_⟩
    unfold baseConfigLoadEff
    rw [if_neg hn]
    extract_lets len svn r' _ _ _ d1
    rw [if_neg (not_not.mpr (show r'.1 = St.ok from hr))]
    have h1 : d1.fw.mode = r.2.fw.mode ∧ d1.fw.cfgImage = r.2.fw.cfgImage ∧ d1.bank = r.2.bank ∧ d1.mem = r.2.mem :=
      ⟨rfl, rfl, rfl, rfl⟩
    clear_value d1 r
    obtain ⟨m, o, he⟩ := d1.hostState_eq 5
    rw [he]
    obtain ⟨hst, hm, hc, hb, hmem⟩ := Dev.refreshHealth_leaves { d1 with host := { d1.host with msix := m, state := 5 }, out := o }
    exact ⟨hst, hm.trans (h1.1.trans hmode), hc.trans (h1.2.1.trans himg), hb.trans h1.2.2.1, hmem.trans h1.2.2.2⟩
  case refused =>
    intro s hs ha hw
    have hn : ¬ (decide (s.dev.host.state ≠ 3) || !s.dev.fw.complexes.any (·.active)) = true := by
      rw [ha, decide_eq_false (not_not.mpr hs)]
      exact Bool.false_ne_true
    have he : baseConfigLoadEff s.dev = s.dev.rejectLoad 8 St.cfgImage := by
      unfold baseConfigLoadEff
      rw [if_neg hn]
      dsimp only
      rw [Dev.loadConfig_of_malformed hw]
      exact if_pos (show St.cfgImage ≠ St.ok by decide)
    obtain ⟨hst, hb, hc, hbank, hm, -⟩ := s.dev.rejectLoad_leaves 8 St.cfgImage
    exact ⟨_, (show execBaseConfigLoad .. = _ from onDev_eq he), hst, hb, hc, hbank, hm⟩

end Sys2Proof.Machine
end

section
/-! SUPPORT. The rings, the answers, the window and the link of the host interface, and the statements about them. -/

open Sys2Proof Sys2Proof.Machine

namespace Sys2Proof.Machine

/-! ## The rings -/

/-- A write of a ring set's register. -/
theorem Dev.bar0Write_ring {d : Dev} {k o : Nat} (v : Word) (hk : k < 4) (ho : o < 64) (ho4 : o % 4 = 0)
    (hl : d.host.linkUp = true) : d.bar0Write (0x100 + 64 * k + o) v = d.ringWrite k o v := by
  have hd : (0x100 + 64 * k + o - 0x100) / 64 = k ∧ (0x100 + 64 * k + o) % 64 = o ∧ (0x100 + 64 * k + o) % 4 = 0 := by omega
  unfold Dev.bar0Write
  dsimp only
  rw [hl, decide_eq_false (not_not.mpr hd.2.2), if_neg (by decide), if_pos (by omega), hd.1, hd.2.1]

theorem Dev.bar0Write_evt {d : Dev} (v : Word) (hl : d.host.linkUp = true) : d.bar0Write 0x21C v = d.evtCtl v := by
  unfold Dev.bar0Write
  dsimp only
  rw [hl]
  rfl

/-- The device with the completion at the head of a ring set's queue written into its ring. -/
def Dev.posted (d : Dev) (k : Nat) (c : Completion) (rest : List Completion) : Dev :=
  let r := d.ring k
  let tail := (r.cplTail + 1) % r.size
  (d.storeHost (r.cplBase.toNat + 32 * r.cplTail) (c.bytes r.phase)).setRing k { r with
    queue := rest, cplTail := tail, phase := if tail = 0 then !r.phase else r.phase, cplOut := r.cplOut + 1 }

theorem Dev.posted_eq (d : Dev) (k : Nat) (c : Completion) (rest : List Completion) :
    ∃ rs hm, d.posted k c rest = { d with host := { d.host with rings := rs }, hostMem := hm } := ⟨_, _, rfl⟩

theorem Dev.flushRing_nil {d : Dev} {k n : Nat} (h : (d.ring k).queue = []) : Dev.flushRing k n d = d := by
  cases n with
  | zero => rfl
  | succ n =>
    unfold Dev.flushRing
    dsimp only
    rw [h]

theorem Dev.flushRing_stays {d : Dev} {k n : Nat} (h : (!(d.ring k).enabled || decide ((d.ring k).size ≤ (d.ring k).cplOut)) = true) :
    Dev.flushRing k n d = d := by
  cases n with
  | zero => rfl
  | succ n =>
    unfold Dev.flushRing
    dsimp only
    split
    · rfl
    · exact if_pos h

theorem Dev.flushRing_cons {d : Dev} {k n : Nat} {c : Completion} {rest : List Completion} (hq : (d.ring k).queue = c :: rest)
    (h : ¬ (!(d.ring k).enabled || decide ((d.ring k).size ≤ (d.ring k).cplOut)) = true) :
    Dev.flushRing k (n + 1) d = Dev.flushRing k n ((d.posted k c rest).fire (2 + k)) := by
  rw [Dev.flushRing]
  dsimp only
  rw [hq]
  exact if_neg h

/-- Completions leave through the rings, the interrupts and host memory alone (R399). -/
theorem Dev.flushRing_eq (k n : Nat) (d : Dev) : ∃ rs m o hm,
    Dev.flushRing k n d = { d with host := { d.host with rings := rs, msix := m }, out := o, hostMem := hm } := by
  induction n generalizing d with
  | zero => exact ⟨d.host.rings, d.host.msix, d.out, d.hostMem, rfl⟩
  | succ n ih =>
    by_cases h : (!(d.ring k).enabled || decide ((d.ring k).size ≤ (d.ring k).cplOut)) = true
    · exact ⟨d.host.rings, d.host.msix, d.out, d.hostMem, Dev.flushRing_stays h⟩
    · cases hq : (d.ring k).queue with
      | nil => exact ⟨d.host.rings, d.host.msix, d.out, d.hostMem, Dev.flushRing_nil hq⟩
      | cons c rest =>
        obtain ⟨rs, hm, hp⟩ := d.posted_eq k c rest
        obtain ⟨m, o, hf⟩ := ({ d with host := { d.host with rings := rs }, hostMem := hm } : Dev).fire_eq (2 + k)
        obtain ⟨rs', m', o', hm', he⟩ :=
          ih { d with host := { d.host with rings := rs, msix := m }, out := o, hostMem := hm }
        refine ⟨rs', m', o', hm', (Dev.flushRing_cons hq h).trans ?_⟩
        rw [hp, hf]
        exact he

theorem Dev.answer_eq (d : Dev) (h : Hdr) (re : Bool) (st : Status) (ws : List Nat) : ∃ rs m o hm,
    d.answer h re st ws = { d with host := { d.host with rings := rs, msix := m }, out := o, hostMem := hm } := by
  obtain ⟨rs, m, o, hm, he⟩ := Dev.flushRing_eq h.set ((d.ring h.set).queue.length + 1) (d.setRing h.set { d.ring h.set with
    queue := (d.ring h.set).queue ++ [{ tag := h.tag, status := st, rescanned := re, index := h.index, words := ws.map word }] })
  exact ⟨rs, m, o, hm, he⟩

/-- Settles O31: each write reaches its register and starts or refuses its ring. -/
theorem ringControl : Obligations.RingControl := by
  unfold Obligations.RingControl
  refine ⟨?enable, ?misaligned, ?event, ?tail⟩
  case enable =>
    intro s k v hk hl hv he hc hp h4 h12 hq
    change execRingEnableWrite .. = _
    refine onDev_eq ((if_pos hk).trans ((Dev.bar0Write_ring v hk (by decide) rfl hl).trans ?_))
    change s.dev.ringCtl k v = _
    unfold Dev.ringCtl
    dsimp only
    rw [hv, decide_eq_false (not_not.mpr hc), decide_eq_false (not_not.mpr hp), decide_eq_false (Nat.not_lt.mpr h4),
      decide_eq_false (Nat.not_lt.mpr h12), if_neg (by decide), if_neg (by decide), if_neg (by rw [he]; exact Bool.false_ne_true)]
    refine Dev.flushRing_nil ?_
    rw [Dev.ring_setRing]
    exact hq
  case misaligned =>
    intro s k v hk hl hv hc
    change execRingEnableWrite .. = _
    refine onDev_eq ((if_pos hk).trans ((Dev.bar0Write_ring v hk (by decide) rfl hl).trans ?_))
    change s.dev.ringCtl k v = _
    unfold Dev.ringCtl
    dsimp only
    rw [hv, decide_eq_true hc, if_neg (by decide)]
    rfl
  case event =>
    intro s v hl hv he hb h6 h16 hs
    change execEventRingEnableWrite .. = _
    refine onDev_eq ((Dev.bar0Write_evt v hl).trans ?_)
    unfold Dev.evtCtl
    dsimp only
    rw [hv, decide_eq_false (not_not.mpr hb), decide_eq_false (not_not.mpr hs), decide_eq_false (Nat.not_lt.mpr h6),
      decide_eq_false (Nat.not_lt.mpr h16), if_neg (by decide), if_neg (by decide), if_neg (by rw [he]; exact Bool.false_ne_true)]
  case tail =>
    intro s k tail hk hl
    change execCmdTailDoorbell .. = _
    exact onDev_eq ((if_pos hk).trans (Dev.bar0Write_ring (word tail) hk (by decide) rfl hl))

/-! ## Completions and records -/

theorem Dev.ring_fire (d : Dev) (v k : Nat) : (d.fire v).ring k = d.ring k := by
  obtain ⟨m, o, h⟩ := d.fire_eq v
  rw [h]
  rfl

theorem Dev.fire_hostMem (d : Dev) (v : Nat) : (d.fire v).hostMem = d.hostMem := by
  obtain ⟨m, o, h⟩ := d.fire_eq v
  rw [h]

theorem Dev.posted_hostMem (d : Dev) (k : Nat) (c : Completion) (rest : List Completion) : (d.posted k c rest).hostMem
    = d.hostMem.writeBytes ((d.ring k).cplBase.toNat + 32 * (d.ring k).cplTail) (c.bytes (d.ring k).phase) := rfl

theorem Dev.ring_posted (d : Dev) (k : Nat) (c : Completion) (rest : List Completion) : (d.posted k c rest).ring k = { d.ring k with
    queue := rest, cplTail := ((d.ring k).cplTail + 1) % (d.ring k).size
    phase := if ((d.ring k).cplTail + 1) % (d.ring k).size = 0 then !(d.ring k).phase else (d.ring k).phase
    cplOut := (d.ring k).cplOut + 1 } := Dev.ring_setRing _ k _

/-- A ring set with one completion that waits. -/
def Dev.queued (d : Dev) (k : Nat) (c : Completion) : Dev := d.setRing k { d.ring k with queue := [c] }

theorem Dev.ring_queued (d : Dev) (k : Nat) (c : Completion) : (d.queued k c).ring k = { d.ring k with queue := [c] } :=
  d.ring_setRing k _

theorem Dev.postCpl_of_empty {d : Dev} {k : Nat} (c : Completion) (hq : (d.ring k).queue = []) :
    d.postCpl k c = Dev.flushRing k 1 (d.queued k c) := by
  unfold Dev.postCpl
  dsimp only
  rw [hq]
  rfl

theorem Dev.postCpl_of_room {d : Dev} {k : Nat} (c : Completion) (hq : (d.ring k).queue = []) (he : (d.ring k).enabled = true)
    (hs : (d.ring k).cplOut < (d.ring k).size) : d.postCpl k c = ((d.queued k c).posted k c []).fire (2 + k) := by
  refine (Dev.postCpl_of_empty c hq).trans (Dev.flushRing_cons (n := 0) (by rw [Dev.ring_queued]) ?_)
  rw [Dev.ring_queued]
  change ¬ (!(d.ring k).enabled || decide ((d.ring k).size ≤ (d.ring k).cplOut)) = true
  rw [he, decide_eq_false (Nat.not_le.mpr hs)]
  exact Bool.false_ne_true

theorem Dev.storeHost_twice (d : Dev) (a b : Nat) (l m : List Byte) : ((d.storeHost a l).storeHost b m).host = d.host
    ∧ ((d.storeHost a l).storeHost b m).mem = d.mem ∧ ((d.storeHost a l).storeHost b m).log = d.log := ⟨rfl, rfl, rfl⟩

/-- The oldest record goes into the event ring, with the shadow tail after it. -/
theorem Dev.evtPut_leaves (d : Dev) (r : Record) :
    let tail := (d.host.evt.tail + 1) % 2 ^ (d.host.evt.size.toNat % 32)
    (d.evtPut r).host.evt = { d.host.evt with tail := tail }
      ∧ (d.evtPut r).hostMem = (d.hostMem.writeBytes (d.host.evt.base.toNat + 128 * d.host.evt.tail) r.bytes).writeBytes
          d.host.evt.shadow.toNat (leBytes 4 tail)
      ∧ (d.evtPut r).mem = d.mem ∧ (d.evtPut r).log = d.log := by
  intro tail
  unfold Dev.evtPut
  extract_lets e t d1
  have h1 : d1.hostMem = (d.hostMem.writeBytes (e.base.toNat + 128 * e.tail) r.bytes).writeBytes e.shadow.toNat (leBytes 4 tail) := by
    change ((d.storeHost (e.base.toNat + 128 * e.tail) r.bytes).storeHost e.shadow.toNat (leBytes 4 tail)).hostMem = _
    rw [Dev.storeHost_hostMem, Dev.storeHost_hostMem]
  have h2 : d1.host = d.host ∧ d1.mem = d.mem ∧ d1.log = d.log := Dev.storeHost_twice d _ _ _ _
  clear_value d1
  obtain ⟨m, o, hf⟩ := Dev.fire_eq { d1 with host := { d1.host with evt := { d1.host.evt with tail := t } } } 0
  refine ⟨?_, ?_, ?_, ?_⟩
  · rw [hf, h2.1]
  · rw [hf]; exact h1
  · rw [hf]; exact h2.2.1
  · rw [hf]; exact h2.2.2

/-- Settles O32: an empty ring set posts the completion at once or keeps it, and the event ring takes the oldest record. -/
theorem completionPosted : Obligations.CompletionPosted := by
  unfold Obligations.CompletionPosted
  refine ⟨?post, ?wait, ?event⟩
  case post =>
    intro d k c hk hq he hs
    rw [Dev.postCpl_of_room c hq he hs]
    have hm : (((d.queued k c).posted k c []).fire (2 + k)).mem = d.mem ∧ (((d.queued k c).posted k c []).fire (2 + k)).ctxs = d.ctxs := by
      obtain ⟨rs, hm, hp⟩ := (d.queued k c).posted_eq k c []
      rw [hp]
      obtain ⟨m, o, hf⟩ := Dev.fire_eq { d.queued k c with host := { (d.queued k c).host with rings := rs }, hostMem := hm } (2 + k)
      rw [hf]
      exact ⟨rfl, rfl⟩
    rw [Dev.fire_hostMem, Dev.ring_fire, Dev.posted_hostMem, Dev.ring_posted, Dev.ring_queued]
    exact ⟨rfl, rfl, rfl, rfl, hm⟩
  case wait =>
    intro d k c hq hs
    have hf : d.postCpl k c = d.queued k c := by
      refine (Dev.postCpl_of_empty c hq).trans (Dev.flushRing_stays ?_)
      rw [Dev.ring_queued]
      change (!(d.ring k).enabled || decide ((d.ring k).size ≤ (d.ring k).cplOut)) = true
      rw [decide_eq_true hs, Bool.or_true]
    rw [hf, Dev.ring_queued]
    exact ⟨rfl, rfl⟩
  case event =>
    intro s r rest hr hu hq
    have he : eventDeliverEff s.dev
        = Dev.evtPut { s.dev with host := { s.dev.host with evt := { s.dev.host.evt with queue := rest } } } r := by
      unfold eventDeliverEff
      rw [hr, if_neg (by decide), if_neg (not_not.mpr hu), hq]
    obtain ⟨hev, hh, hm, hl⟩ :=
      Dev.evtPut_leaves { s.dev with host := { s.dev.host with evt := { s.dev.host.evt with queue := rest } } } r
    refine ⟨_, (show execEventDeliver .. = _ from onDev_eq he), ?_, ?_, hh, hm, hl⟩
    · rw [hev]
    · rw [hev]

/-! ## Answers, and a device at rest (R399) -/

/-- A step of the search for contexts that may close. -/
def Dev.reapStep (c : Nat) (d : Dev) : Dev :=
  let x := d.ctx c
  let d1 := match x.older with
    | some r => if x.closing && !x.bound && r.state = 1 then d.endStep c false St.stepAborted else d
    | none => d
  if d1.mayClose c then d1.closeCtx c else d1

theorem Dev.reapStep_of_open {d : Dev} {c : Nat} (h : (d.ctx c).closing = false) : d.reapStep c = d := by
  have hm : ¬ d.mayClose c = true := by
    unfold Dev.mayClose
    dsimp only
    rw [h]
    exact Bool.false_ne_true
  unfold Dev.reapStep
  dsimp only
  rw [h]
  simp only [Bool.false_and, Bool.false_eq_true, if_false]
  split <;> exact if_neg hm

theorem foldl_of_fixed {α β : Type} {f : β → α → β} {b : β} {l : List α} (h : ∀ a ∈ l, f b a = b) : l.foldl f b = b := by
  induction l with
  | nil => rfl
  | cons a l ih =>
    rw [List.foldl_cons, h a List.mem_cons_self]
    exact ih fun x hx => h x (List.mem_cons_of_mem _ hx)

/-- A device at rest keeps its contexts when closing contexts are looked for. -/
theorem Dev.reapClosing_of_open {d : Dev} (h : ∀ c, c < 8 → (d.ctx c).closing = false) : d.reapClosing = d := by
  have h1 : upto 8 Dev.reapStep d = d :=
    foldl_of_fixed fun c hc => Dev.reapStep_of_open (h c (List.mem_range.mp hc))
  unfold Dev.reapClosing
  change (if (upto 8 Dev.reapStep d).ctxs = d.ctxs then d else (upto 8 Dev.reapStep d).settleHost) = d
  rw [h1, if_pos rfl]

theorem Dev.retryPorts_of_idle {d : Dev} (h : ∀ p, p ∈ d.hubs → p.2.kvWait = 0) : d.retryPorts = d := by
  have hn : d.hubs.filter (fun p => p.2.kvWait ≠ 0) = [] := List.filter_eq_nil_iff.mpr fun p hp => by simp [h p hp]
  unfold Dev.retryPorts
  rw [hn]
  rfl

theorem Dev.settle_of_calm {d : Dev} (h : d.calm) : d.settle = d := by
  obtain ⟨hf, hh, hc⟩ := h
  unfold Dev.settle
  rw [Dev.reapClosing_of_open hc, Dev.retryPorts_of_idle hh]
  dsimp only
  rw [hf, List.foldl_nil, Dev.retryPorts_of_idle hh]
  exact ite_self d

/-- Settles O33: a completion leaves by the rings, and a device at rest has nothing that follows a command. -/
theorem answerFrame : Obligations.AnswerFrame := by
  unfold Obligations.AnswerFrame
  refine ⟨fun d h re st ws => ?_, fun d hd => Dev.settle_of_calm hd⟩
  obtain ⟨rs, m, o, hm, he⟩ := d.answer_eq h re st ws
  rw [he]
  exact ⟨rfl, rfl, rfl, rfl, rfl, rfl, rfl, rfl, rfl, rfl, rfl, rfl, rfl, rfl, rfl, rfl, rfl, rfl, rfl, rfl, rfl, rfl, rfl, rfl⟩

/-! ## The window, and writes of device memory -/

/-- Settles O34: by the checks of an access to the window. -/
theorem bar2Window : Obligations.Bar2Window := by
  unfold Obligations.Bar2Window
  refine ⟨?read, ?refused, ?write, ?staging⟩
  case read =>
    intro s off n hl hn hs hw hp
    change execBar2Read .. = _
    refine onDev_eq ?_
    unfold bar2ReadEff
    dsimp only
    rw [hl, decide_eq_false (Nat.not_lt.mpr hn), if_neg (by decide), if_neg hs, hw, if_neg (by decide), hp, if_neg (by decide)]
    split <;> rfl
  case refused =>
    intro s off n hl hn hs hw hp
    change execBar2Read .. = _
    refine onDev_eq ?_
    unfold bar2ReadEff
    dsimp only
    rw [hl, decide_eq_false (Nat.not_lt.mpr hn), if_neg (by decide), if_neg hs, hw, if_neg (by decide), hp, if_pos (by decide)]
    rfl
  case write =>
    intro s off b hl hn hs hw hw1 hp hg
    change execBar2Write .. = _
    refine onDev_eq ?_
    unfold bar2WriteEff
    dsimp only
    rw [hl, decide_eq_false (Nat.not_lt.mpr hn), if_neg (by decide), if_neg hs, hw, hw1, if_neg (by decide), hp, if_neg (by decide), hg]
  case staging =>
    intro s off b hl hn hs
    change execBar2Write .. = _
    have hn' : ¬ 2 ^ 36 < off + b.length := by omega
    refine onDev_eq ?_
    unfold bar2WriteEff
    dsimp only
    rw [hl, decide_eq_false hn', if_neg (by decide), if_pos hs]
    exact if_pos (decide_eq_true hn)

/-- Settles O35: by the laws of a memory written with a list of bytes. -/
theorem writeMemFrame : Obligations.WriteMemFrame := fun d a b =>
  ⟨fun x hx => d.mem.read_writeBytes_out a x b hx, fun i hi => d.mem.read_writeBytes_in a i b hi⟩

/-! ## Heartbeats and the link -/

/-- What the loss of the host leaves as it is. -/
def Dev.besideHost (d : Dev) : Memory × Fabric × SMap Hist := (d.mem, d.fab, d.health.hist)

theorem Dev.hostState_besideHost (d : Dev) (n : Nat) : (d.hostState n).besideHost = d.besideHost := by
  obtain ⟨m, o, h⟩ := d.hostState_eq n
  rw [h]
  rfl

theorem Dev.orphanAll_besideHost (d : Dev) (cause : Nat) : (d.orphanAll cause).besideHost = d.besideHost := by
  unfold Dev.orphanAll
  split
  · rfl
  · extract_lets d1 d2 _ d3
    have h1 : d1.besideHost = d.besideHost := foldl_fixes Dev.besideHost (f := fun d s => d.setRing s { d.ring s with
      enabled := false, session := false, cmdHead := (d.ring s).cmdTail.toNat, queue := [] }) (fun _ _ => rfl) (List.range 4) d
    have h2 : d2.besideHost = d1.besideHost := by
      obtain ⟨c, hc⟩ := Dev.foldl_orphanCtx_eq (List.range 8) d1
      exact (congrArg Dev.besideHost hc).trans rfl
    clear_value d2
    have h3 : d3.besideHost = d2.besideHost := rfl
    clear_value d3
    obtain ⟨m, o, hg⟩ := d3.startGrace_eq cause
    have h4 : ((d3.startGrace cause).hostState 7).besideHost = d3.besideHost :=
      (Dev.hostState_besideHost _ 7).trans (by rw [hg]; rfl)
    refine Eq.trans ?_ (h4.trans (h3.trans (h2.trans h1)))
    generalize (d3.startGrace cause).hostState 7 = e
    unfold Dev.besideHost
    rw [Dev.record_mem, Dev.record_fab, Dev.record_hist]
    rfl

theorem Dev.linkEvent_besideHost (d : Dev) (cause : Nat) : (d.linkEvent cause).besideHost = d.besideHost := by
  unfold Dev.linkEvent
  extract_lets d1 d2
  have h2 : d2.besideHost = d.besideHost := d.orphanAll_besideHost cause
  split
  · exact (Dev.hostState_besideHost _ 0).trans h2
  · exact h2

/-- The link's registers and rings after an event of the link. -/
theorem Dev.linkEvent_cleared (d : Dev) (cause : Nat) : (d.linkEvent cause).host.rings = [] ∧ (d.linkEvent cause).host.winCtl = 0 := by
  unfold Dev.linkEvent
  extract_lets d1 d2
  have h2 : d2.host.rings = [] ∧ d2.host.winCtl = 0 := ⟨rfl, rfl⟩
  clear_value d2
  split
  · obtain ⟨m, o, h⟩ := Dev.hostState_eq { d2 with host := { d2.host with staging := [] } } 0
    rw [h]
    exact h2
  · exact h2

/-- Settles O36: by the state that each event of the host's side finds. -/
theorem hostLinkEvents : Obligations.HostLinkEvents := by
  unfold Obligations.HostLinkEvents
  refine ⟨?beat, ?lost, ?grace, ?reset, ?down, ?wavelength, ?up⟩
  case beat =>
    intro s v hl hs
    change execHostHeartbeatWrite .. = _
    refine onDev_eq (if_neg ?_)
    rw [hl, decide_eq_false hs]
    exact Bool.false_ne_true
  case lost =>
    intro s hs
    change execHostHeartbeatLost .. = _
    exact onDev_eq (if_pos hs)
  case grace =>
    intro s hc hu
    change execOrphanGraceExpiry .. = _
    exact onDev_eq (if_neg (by omega))
  case reset =>
    intro s hl
    constructor
    · change execHotReset .. = _
      exact onDev_eq (if_pos hl)
    · change execFlr .. = _
      exact onDev_eq (if_pos hl)
  case down =>
    intro s
    obtain ⟨hr, hw⟩ := s.dev.linkEvent_cleared 2
    have hb := s.dev.linkEvent_besideHost 2
    exact ⟨s.dev.linkLost, rfl, rfl, rfl, hr, hw, congrArg (·.1) hb, congrArg (·.2.1) hb, congrArg (·.2.2) hb⟩
  case wavelength =>
    intro s lam hl hc hu
    change execHostWavelengthLoss .. = _
    refine onDev_eq ((if_neg ?_).trans (if_pos hu))
    rw [hc, decide_eq_false (Nat.not_le.mpr hl)]
    exact Bool.false_ne_true
  case up =>
    intro s hl hg hd
    change execHostLinkUp .. = _
    refine onDev_eq (if_neg ?_)
    rw [hl, hg, hd]
    decide

end Sys2Proof.Machine
end

section
/-! SUPPORT. Headframe firmware: ticks and shedding, restarts and the hand-over, and the statements about them. -/

open Sys2Proof Sys2Proof.Machine

namespace Sys2Proof.Machine

/-! ## Ticks -/

/-- One service of a tick takes of what is left what it still has to do. -/
def grantStep (shed : Nat) (work : List Nat) (a : List (Nat × Nat) × Nat) (p : Nat × Nat) : List (Nat × Nat) × Nat :=
  let more := if p.1 = 5 ∧ 3 ≤ shed then 0 else min (at' work p.1 0 - p.2) a.2
  (a.1 ++ [(p.1, p.2 + more)], a.2 - more)

theorem grants_eq (shed : Nat) (run work : List Nat) : grants shed run work
    = ((run.map (fun i => (i, min (at' work i 0) (svcShare i)))).foldl (grantStep shed work)
        ([], 1000 - ((run.map (fun i => (i, min (at' work i 0) (svcShare i)))).map (·.2)).sum)).1 := rfl

/-- What is granted beyond the reservations comes out of what is left. -/
theorem sum_foldl_grantStep (shed : Nat) (work : List Nat) (l : List (Nat × Nat)) (a : List (Nat × Nat) × Nat) :
    ((l.foldl (grantStep shed work) a).1.map (·.2)).sum ≤ (a.1.map (·.2)).sum + (l.map (·.2)).sum + a.2 := by
  induction l generalizing a with
  | nil => simp
  | cons p l ih =>
    have hm : (if p.1 = 5 ∧ 3 ≤ shed then 0 else min (at' work p.1 0 - p.2) a.2) ≤ a.2 := by
      split
      · exact Nat.zero_le _
      · exact Nat.min_le_right _ _
    refine (ih _).trans ?_
    simp only [grantStep, List.map_append, List.sum_append, List.map_cons, List.map_nil, List.sum_cons, List.sum_nil]
    omega

theorem sum_map_min_le (work : List Nat) (run : List Nat) :
    ((run.map (fun i => (i, min (at' work i 0) (svcShare i)))).map (·.2)).sum ≤ (run.map svcShare).sum := by
  induction run with
  | nil => exact Nat.le_refl _
  | cons i run ih =>
    simp only [List.map_cons, List.sum_cons]
    exact Nat.add_le_add (Nat.min_le_right _ _) ih

/-- A tick grants no more than the reservations or its 1,000 µs (R414). -/
theorem sum_grants_le (shed : Nat) (run work : List Nat) :
    ((grants shed run work).map (·.2)).sum ≤ max 1000 ((run.map svcShare).sum) := by
  rw [grants_eq]
  have hs := sum_map_min_le work run
  refine (sum_foldl_grantStep shed work _ _).trans ?_
  simp only [List.map_nil, List.sum_nil]
  omega

/-! ## The shed level -/

theorem Dev.setShed_leaves (d : Dev) (n : Nat) : ∃ q, (d.setShed n).fw = { d.fw with shed := n, subs := q }
    ∧ (d.setShed n).mem = d.mem ∧ (d.setShed n).ctxs = d.ctxs ∧ (d.setShed n).host.inflight = d.host.inflight := by
  unfold Dev.setShed
  split
  next h => exact ⟨d.fw.subs, by rw [← h], rfl, rfl, rfl⟩
  next h =>
    obtain ⟨q, hq⟩ := Dev.record_fw { d with fw := { d.fw with shed := n } } { type := Rt.firmware, status := St.fwShed, opcode := n }
    obtain ⟨v, hv⟩ := Dev.record_host { d with fw := { d.fw with shed := n } } { type := Rt.firmware, status := St.fwShed, opcode := n }
    exact ⟨q, hq, Dev.record_mem _ _, Dev.record_ctxs _ _, by rw [hv]⟩

/-- Settles O38: by the load of the window's cores; a tick's grants are bounded by the reservations. -/
theorem ticksAndShedding : Obligations.TicksAndShedding := by
  unfold Obligations.TicksAndShedding
  refine ⟨?tick, ?busy, ?quiet, sum_grants_le⟩
  case tick =>
    intro s core work hr hc g
    change execKernelTick .. = _
    refine onDev_eq (if_neg ?_)
    rw [hr, hc, decide_eq_false (not_not.mpr rfl)]
    exact Bool.false_ne_true
  case busy =>
    intro s hr hb hs
    refine ⟨shedWindowEndEff s.dev.fwHalf s.dev, rfl, ?_⟩
    unfold shedWindowEndEff
    rw [if_neg (by rw [hr, decide_eq_false (not_not.mpr rfl)]; exact Bool.false_ne_true)]
    extract_lets b d1 quiet
    rw [if_pos hb]
    obtain ⟨q, hf, hm, hc, -⟩ := (quiet 0 d1).setShed_leaves (min 3 (d1.fw.shed + 1))
    have h1 : (quiet 0 d1).fw.quiet = 0 ∧ d1.fw.shed = s.dev.fw.shed ∧ (quiet 0 d1).mem = s.dev.mem
        ∧ (quiet 0 d1).ctxs = s.dev.ctxs := ⟨rfl, rfl, rfl, rfl⟩
    rw [hf]
    refine ⟨?_, h1.1, hm.trans h1.2.2.1, hc.trans h1.2.2.2⟩
    rw [h1.2.1]
    exact Nat.min_eq_right hs
  case quiet =>
    intro s hr hb hq
    refine ⟨shedWindowEndEff s.dev.fwHalf s.dev, rfl, ?_⟩
    have hn : ¬ s.dev.cplx.busy.any (fun t => decide (9500 < t)) = true := by
      intro h
      obtain ⟨t, ht, h95⟩ := List.any_eq_true.mp h
      have h80 := of_decide_eq_true (List.all_eq_true.mp hb t ht)
      have := of_decide_eq_true h95
      omega
    unfold shedWindowEndEff
    rw [if_neg (by rw [hr, decide_eq_false (not_not.mpr rfl)]; exact Bool.false_ne_true)]
    extract_lets b d1 quiet
    rw [if_neg hn, if_neg (by rw [show b.all (fun t => decide (t < 8000)) = true from hb]; exact Bool.false_ne_true),
      if_neg (show ¬ d1.fw.quiet < 9 from Nat.not_lt.mpr hq)]
    obtain ⟨q, hf, hm, hc, -⟩ := (quiet 0 d1).setShed_leaves (d1.fw.shed - 1)
    have h1 : (quiet 0 d1).fw.quiet = 0 ∧ d1.fw.shed = s.dev.fw.shed ∧ (quiet 0 d1).mem = s.dev.mem
        ∧ (quiet 0 d1).ctxs = s.dev.ctxs := ⟨rfl, rfl, rfl, rfl⟩
    rw [hf]
    exact ⟨congrArg (· - 1) h1.2.1, h1.1, hm.trans h1.2.2.1, hc.trans h1.2.2.2⟩

/-! ## Restarts -/

theorem Dev.noteAbsent_eq (d : Dev) : ∃ t, d.noteAbsent = { d with fw := { d.fw with absentSince := t } } := by
  unfold Dev.noteAbsent
  split
  · exact ⟨_, rfl⟩
  · exact ⟨d.fw.absentSince, rfl⟩

/-- A restart is counted, and the rest of the device stays (R420). -/
theorem Dev.startRestart_leaves (d : Dev) (level unit : Nat) (svcs cores : List Nat) :
    let e := d.startRestart level unit svcs cores
    e.fw.lastRestart = d.bell ∧ e.fw.restarts = setAt d.fw.restarts level (at' d.fw.restarts level 0 + 1)
      ∧ e.mem = d.mem ∧ e.ctxs = d.ctxs ∧ e.insts = d.insts ∧ e.fab = d.fab ∧ e.bank = d.bank := by
  intro e
  have he : e = d.startRestart level unit svcs cores := rfl
  clear_value e
  unfold Dev.startRestart at he
  extract_lets f d1 d2 at he
  have h2 : d2.fw.lastRestart = d.bell ∧ d2.fw.restarts = setAt d.fw.restarts level (at' d.fw.restarts level 0 + 1) ∧ d2.mem = d.mem
      ∧ d2.ctxs = d.ctxs ∧ d2.insts = d.insts ∧ d2.fab = d.fab ∧ d2.bank = d.bank := ⟨rfl, rfl, rfl, rfl, rfl, rfl, rfl⟩
  clear_value d2
  obtain ⟨t, ht⟩ := d2.noteAbsent_eq
  rw [ht] at he
  subst he
  rw [Dev.record_mem, Dev.record_ctxs, Dev.record_insts, Dev.record_fab, Dev.record_bank]
  obtain ⟨q, hq⟩ := Dev.record_fw (Dev.stick { d2 with fw := { d2.fw with absentSince := t } } Sticky.fwRestart)
    { type := Rt.firmware, unit := unit
      status := if level = 0 then St.fwServiceRestart else if level = 1 then St.fwCoreRestart else St.fwComplexRestart }
  rw [hq]
  exact h2

/-- A rescan with nothing in flight finds nothing to answer. -/
theorem Dev.rescan_of_idle {d : Dev} (h : d.host.inflight = []) : d.rescan = d := by
  unfold Dev.rescan
  rw [h]
  have hh : ({ d.host with inflight := [] } : HostIf) = d.host := by rw [← h]
  change ({ d with host := { d.host with inflight := [] } } : Dev) = d
  rw [hh]

theorem Dev.fwResume_leaves {d : Dev} (h : d.host.inflight = []) : d.fwResume.fw.absentSince = none ∧ d.fwResume.fw.shed = 0
    ∧ d.fwResume.fw.paused = false ∧ d.fwResume.fw.svc = [0, 0, 0, 0, 0, 0, 0, 0, 0] ∧ d.fwResume.fw.handing = false
    ∧ d.fwResume.mem = d.mem ∧ d.fwResume.ctxs = d.ctxs := by
  unfold Dev.fwResume
  extract_lets f len mailbox d1 d2
  obtain ⟨q, hf, hm, hc, hi⟩ :=
    (d1.updCplx (fun x => { x with restarting := 0, restartingCores := [], cores := [0, 1, 2, 3], busy := [0, 0, 0, 0] })).setShed_leaves 0
  have hd : (if mailbox = true then d2.rescan else d2) = d2 := by
    split
    · exact Dev.rescan_of_idle (hi.trans h)
    · rfl
  rw [hd, show d2.fw = _ from hf]
  exact ⟨rfl, rfl, rfl, rfl, rfl, hm, hc⟩

theorem Dev.refreshHealth_fw (d : Dev) : ∃ q, d.refreshHealth.fw = { d.fw with subs := q } ∧ d.refreshHealth.mem = d.mem
    ∧ d.refreshHealth.ctxs = d.ctxs := by
  unfold Dev.refreshHealth
  extract_lets new old _ d1
  split
  · exact ⟨d.fw.subs, rfl, rfl, rfl⟩
  · have h1 : (if old = 0 then d1.stick Sticky.degraded else d1).fw = d.fw
        ∧ (if old = 0 then d1.stick Sticky.degraded else d1).mem = d.mem
        ∧ (if old = 0 then d1.stick Sticky.degraded else d1).ctxs = d.ctxs := by
      split <;> exact ⟨rfl, rfl, rfl⟩
    generalize (if old = 0 then d1.stick Sticky.degraded else d1) = e at h1
    obtain ⟨hf, hm, hc⟩ := h1
    obtain ⟨q, hq⟩ := e.record_fw { type := Rt.health, status := St.deviceDegraded }
    rw [Dev.record_mem, Dev.record_ctxs, hq, hf]
    exact ⟨q, rfl, hm, hc⟩

theorem Dev.handOver_leaves {d : Dev} (h : (at' d.fw.complexes (1 - d.fwHalf) {}).standby = true) :
    d.handOver.fw.complexes = setAt (setAt d.fw.complexes d.fwHalf { out := true }) (1 - d.fwHalf) { active := true, tookOver := true }
      ∧ d.handOver.fw.handing = true ∧ d.handOver.mem = d.mem ∧ d.handOver.ctxs = d.ctxs := by
  unfold Dev.handOver
  extract_lets old new l _ d1
  rw [if_neg (by rw [show (at' d.fw.complexes new {}).standby = true from h]; exact Bool.false_ne_true)]
  have h1 : d1.fw.complexes = l ∧ d1.fw.handing = true ∧ d1.mem = d.mem ∧ d1.ctxs = d.ctxs := ⟨rfl, rfl, rfl, rfl⟩
  clear_value d1
  obtain ⟨t, ht⟩ := d1.noteAbsent_eq
  rw [ht]
  obtain ⟨q, hq⟩ := Dev.record_fw (Dev.stick { d1 with fw := { d1.fw with absentSince := t } } Sticky.fwHandover)
    { type := Rt.firmware, status := St.fwHandover }
  obtain ⟨q', hf, hm, hc⟩ := Dev.refreshHealth_fw ((Dev.stick { d1 with fw := { d1.fw with absentSince := t } } Sticky.fwHandover).record
    { type := Rt.firmware, status := St.fwHandover })
  rw [hf, hm, hc, hq, Dev.record_mem, Dev.record_ctxs]
  exact h1

/-- Settles O39: by the state of the complex that each event finds. -/
theorem firmwareRestarts : Obligations.FirmwareRestarts := by
  unfold Obligations.FirmwareRestarts
  refine ⟨?service, ?watchdog, ?core, Dev.startRestart_leaves, ?done, ?absent, ?failed, ?change, ?alone, ?changed, ?test⟩
  case service =>
    intro s prio hr h1 h9 hv
    change execServiceException .. = _
    refine onDev_eq (if_neg ?_)
    rw [hr, hv, decide_eq_false (Nat.one_le_iff_ne_zero.mp h1), decide_eq_false (Nat.not_lt.mpr h9)]
    decide
  case watchdog =>
    intro s core hr hc
    change execWatchdogBite .. = _
    refine onDev_eq (if_neg ?_)
    rw [hr, hc]
    decide
  case core =>
    intro s hr hs
    change execCoreRestartTimeout .. = _
    refine onDev_eq (if_pos ?_)
    rw [hr, hs]
    rfl
  case done =>
    intro s hr hs hi
    obtain ⟨ha, hsh, hp, hv, -, hm, hc⟩ := Dev.fwResume_leaves hi
    refine ⟨s.dev.fwResume, ?_, ha, hsh, hp, hv, hm, hc⟩
    change execFwRestartDone .. = _
    refine onDev_eq (congrArg Dev.settle ((if_neg ?_).trans (if_pos rfl)))
    rw [hr, decide_eq_false hs]
    decide
  case absent =>
    intro s ha hp
    change execFwAbsent .. = _
    refine onDev_eq (if_neg ?_)
    rw [hp, Bool.or_false, Option.isNone_iff_eq_none]
    exact Option.isSome_iff_ne_none.mp ha
  case failed =>
    intro s ha hr
    change execFwAbsentFailed .. = _
    refine onDev_eq (if_neg ?_)
    rw [hr, Bool.false_and, Bool.or_false, Option.isNone_iff_eq_none]
    exact Option.isSome_iff_ne_none.mp ha
  case change =>
    intro s hr ht hb
    refine ⟨s.dev.handOver, ?_, Dev.handOver_leaves hb⟩
    change execHandover .. = _
    refine onDev_eq ((if_neg ?_).trans ((if_pos rfl).trans (if_pos ht)))
    rw [hr]
    decide
  case alone =>
    intro s hr ht hb
    change execHandover .. = _
    refine onDev_eq ((if_neg ?_).trans ((if_pos rfl).trans ((if_pos ht).trans (if_pos ?_))))
    · rw [hr]
      decide
    · rw [hb]
      rfl
  case changed =>
    intro s hh hi
    obtain ⟨ha, -, -, -, hg, hm, hc⟩ := Dev.fwResume_leaves hi
    refine ⟨s.dev.fwResume, ?_, hg, ha, hm, hc⟩
    change execHandoverDone .. = _
    exact onDev_eq (congrArg Dev.settle (if_pos hh))
  case test =>
    intro s half core pass hd u
    change execHeadframeCoreTest .. = _
    refine onDev_eq (if_neg ?_)
    rw [hd]
    decide

end Sys2Proof.Machine
end

section
/-! SUPPORT. The management port and the registers, and the statements about them. -/

open Sys2Proof Sys2Proof.Machine

namespace Sys2Proof.Machine

/-! ## The management port -/

theorem Dev.sendEvent_of_queued {d : Dev} {q : Subscription} {r : Record} {rest : List Record} (ok : Bool) (hd : q.dropped = 0)
    (hq : q.queue = r :: rest) : d.sendEvent q ok = (d.emit (.redfish q.id r)).updSub q.id (fun q =>
      if ok then { q with queue := rest, stage := 0 } else { q with stage := min 14 (q.stage + 1) }) := by
  unfold Dev.sendEvent
  dsimp only
  rw [if_neg (not_not.mpr hd), hq]

/-- Settles O40: each request is answered, and the oldest event of a subscription is sent. -/
theorem managementPort : Obligations.ManagementPort := by
  unfold Obligations.ManagementPort
  refine ⟨?subscribe, ?log, ?push, ?spdm⟩
  case subscribe =>
    intro s n hu hf
    change execRedfishRequest .. = _
    refine onDev_eq ?_
    unfold redfishRequestEff
    rw [hu, if_neg (by decide)]
    dsimp only
    rw [if_neg (fun h => Nat.zero_ne_one h.1), hf]
    rfl
  case log =>
    intro s k r hu hr
    change execRedfishRequest .. = _
    refine onDev_eq ?_
    unfold redfishRequestEff
    rw [hu, if_neg (by decide)]
    change s.dev.emit (.redfishAnswer 3 (match s.dev.log.records.reverse[k]? with
      | some r => _ | none => _)) = _
    rw [hr]
  case push =>
    intro s id ok q r rest hu hs hf hd hq d
    have hid : q.id = id := by simpa using List.find?_some hf
    have he : s.dev.sendEvent q ok = d := (Dev.sendEvent_of_queued ok hd hq).trans (by rw [hid])
    refine ⟨fun hst => ?_, fun hst => ?_⟩
    · change execRedfishPush .. = _
      refine onDev_eq ?_
      unfold redfishPushEff
      rw [hf]
      refine (if_pos ?_).trans he
      rw [hu, hst, hs]
      rfl
    · change execRedfishRetry .. = _
      refine onDev_eq ?_
      unfold redfishRetryEff
      rw [hf]
      refine (if_pos ?_).trans he
      rw [hu, hs, decide_eq_true hst]
      rfl
  case spdm =>
    intro s req hu h4 h96 a d
    change execSpdmTcpRequest .. = _
    refine onDev_eq ?_
    have hn : ¬ (!s.dev.mgmtUp || decide (req.length < 4) || decide (4096 < req.length)) = true := by
      rw [hu, decide_eq_false (Nat.not_lt.mpr h4), decide_eq_false (Nat.not_lt.mpr h96)]
      decide
    unfold spdmTcpRequestEff
    rw [if_neg hn]
    change (if 4096 < a.length then d else d.emit (.spdm a)) = _
    by_cases ha : a.length ≤ 4096
    · rw [if_neg (Nat.not_lt.mpr ha), if_pos ha]
    · rw [if_pos (Nat.not_le.mp ha), if_neg ha]

/-! ## Registers -/

section
variable {d : Dev} {core die off : Nat} {v : Word} {act : Dev → Dev}

/-- A store of the Headframe to a register of its own half. -/
theorem Dev.hfStore_of_own (hv : d.dpaValid (ctlDpa die off) = true) (hh : dieHalf die = d.fwHalf) :
    d.hfStore core die off v act = act d := by
  unfold Dev.hfStore
  rw [hv, if_neg (by decide), if_pos hh]

theorem Dev.hfStore_of_other (hv : d.dpaValid (ctlDpa die off) = true) (hh : dieHalf die ≠ d.fwHalf) :
    d.hfStore core die off v act = d.sendCrosscut d.fwHalf {
      cls := 2, src := hubDie d.fwHalf, dst := die, window := core, gen := 0, poison := false
      words := [word (ctlDpa die off), word (ctlDpa die off / 2 ^ 32), v] } := by
  unfold Dev.hfStore
  rw [hv, if_neg (by decide), if_neg hh]

theorem Dev.hfStore_of_invalid (hv : d.dpaValid (ctlDpa die off) = false) :
    d.hfStore core die off v act = d.hfTrap core faultStore (ctlDpa die off) := by
  unfold Dev.hfStore
  rw [hv, if_pos (by decide)]
end

theorem hubDie_dieHalf {die : Nat} (h : die = 16 ∨ die = 17) : hubDie (dieHalf die) = die := by
  rcases h with rfl | rfl <;> rfl

theorem dieHalf_hubDie {half : Nat} (h : half < 2) : dieHalf (hubDie half) = half := by
  interval_cases half <;> rfl

/-- The Headframe may arm any group. -/
theorem cfgCommitWriteEff_of_headframe {d : Dev} {core half : Nat} {v : Word} (hv : v.toNat < 65536) (hh : d.halfOn half = true)
    (hg : d.groupIn v.toNat half = true) (hm : d.mayArm v.toNat half = true) :
    cfgCommitWriteEff (.headframe core) half v d = d.arm v.toNat half none := by
  unfold cfgCommitWriteEff
  dsimp only
  rw [hh, hg, hm, decide_eq_false (Nat.not_le.mpr hv)]
  rfl

/-- Settles O41: by the checks that each access passes or fails. -/
theorem registerAccess : Obligations.RegisterAccess := by
  unfold Obligations.RegisterAccess
  refine ⟨?rc, ?bel, ?hif, ?clear, ?hub, ?stage, ?far, ?invalid, ?trap, ?commit, ?opcode⟩
  case rc =>
    intro s die off hr hd
    change execRcCounterRead .. = _
    refine onDev_eq (if_neg ?_)
    rw [hr]
    rcases hd with ⟨h64, hon⟩ | ⟨h64, hl⟩
    · rw [hon, decide_eq_false h64]
      simp
    · rw [hl, decide_eq_true h64, decide_eq_false (not_not.mpr h64)]
      simp
  case bel =>
    intro s die since hd hon
    change execBelNowRead .. = _
    refine onDev_eq (if_neg ?_)
    rintro (⟨h16, h17⟩ | h)
    · exact hd.elim h16 h17
    · rw [hon] at h
      exact Bool.false_ne_true h
  case hif =>
    intro s hl
    change execHifBellRead .. = _
    refine onDev_eq (if_neg ?_)
    rw [hl]
    decide
  case clear =>
    intro s core index v hi hh hd hv
    change execStickyClearWrite .. = _
    refine onDev_eq ((Dev.hfStore_of_own hv hd).trans (if_pos ?_))
    rw [hh, decide_eq_true hi]
    rfl
  case hub =>
    intro s half core index v
    exact onDev_eq (f := fun d => d.byWriter (.hub half core) 16 (0x0B000020 + 4 * index) v (stickyClearWriteEff (.hub half core) index v))
      rfl
  case stage =>
    intro s core die off v r hd ho hon hr hv hh
    change execRegisterWrite .. = _
    refine onDev_eq ((if_pos ho).trans ((Dev.hfStore_of_own hv hh).trans ((if_pos ?_).trans ?_)))
    · rcases hd with rfl | rfl <;> rfl
    · unfold Dev.hubRegWrite
      dsimp only
      rw [hubDie_dieHalf hd, hr]
      rfl
  case far =>
    intro s core die off v ho hv hh
    change execRegisterWrite .. = _
    exact onDev_eq ((if_pos ho).trans (Dev.hfStore_of_other hv hh))
  case invalid =>
    intro s core die off v ho hv
    change execRegisterWrite .. = _
    exact onDev_eq ((if_pos ho).trans (Dev.hfStore_of_invalid hv))
  case trap =>
    intro s half core die off v hh hc hr
    change execRegisterWrite .. = _
    refine onDev_eq ((if_neg ?_).trans (if_pos ?_))
    · rw [hh, decide_eq_false (Nat.not_le.mpr hc)]
      decide
    · rw [hr]
      exact Bool.or_true _
  case commit =>
    intro s core half v hv hh hg hm hd hf
    change execCfgCommitWrite .. = _
    have h2 : half < 2 := by
      unfold Dev.halfOn at hh
      exact of_decide_eq_true (Bool.and_eq_true_iff.mp hh).1
    refine onDev_eq ((Dev.hfStore_of_own hd ?_).trans (cfgCommitWriteEff_of_headframe hv hh hg hm))
    rw [dieHalf_hubDie h2]
    exact hf
  case opcode =>
    intro s h opcode ht ha
    change execOpcodeInvalid .. = _
    refine onDev_eq (if_neg ?_)
    rw [ha, ht]
    decide

end Sys2Proof.Machine
end

section
/-! SUPPORT. The flits of the crosscut, and the statement that a message is read back from its flits. -/

open Sys2Proof Sys2Proof.Machine

namespace Sys2Proof.Machine

/-! ## Parity -/

theorem flag_eq (b : Bool) (i : Nat) : flag b i = b.toNat * 2 ^ i := by
  cases b <;> simp [flag]

theorem oddOnes_succ (n v : Nat) : oddOnes (n + 1) v = (oddOnes n v ^^ bit v n) := by
  unfold oddOnes
  rw [List.range_succ, List.foldl_append]
  rfl

/-- The parity of the low bits does not see the bits above. -/
theorem oddOnes_add_mul_pow {v m : Nat} (hv : v < 2 ^ m) (k : Nat) : ∀ {n : Nat}, n ≤ m → oddOnes n (v + k * 2 ^ m) = oddOnes n v
  | 0, _ => rfl
  | n + 1, h => by
    have hbit : bit (v + k * 2 ^ m) n = bit v n := by
      rw [bit_eq_testBit, bit_eq_testBit, Nat.add_comm, Nat.mul_comm, Nat.testBit_two_pow_mul_add k hv, if_pos (Nat.lt_of_succ_le h)]
    rw [oddOnes_succ, oddOnes_succ, oddOnes_add_mul_pow hv k (Nat.le_of_succ_le h), hbit]

/-- A half of a header with its parity bit has an even count of ones. -/
theorem oddOnes_parity {v : Nat} (h : v < 2 ^ 31) : oddOnes 32 (v + flag (oddOnes 31 v) 31) = false := by
  have hbit : bit (v + (oddOnes 31 v).toNat * 2 ^ 31) 31 = oddOnes 31 v := by
    unfold bit
    rw [Nat.add_mul_div_right _ _ (Nat.two_pow_pos 31), Nat.div_eq_of_lt h]
    cases oddOnes 31 v <;> rfl
  rw [flag_eq, oddOnes_succ, oddOnes_add_mul_pow h _ (Nat.le_refl 31), hbit, Bool.xor_self]

/-! ## The fields of a header -/

/-- The low half of a header without its parity bit. -/
def flitLo (seq cls : Nat) (first last poison : Bool) (src dst : Nat) : Nat :=
  seq % 4096 + cls % 4 * 2 ^ 12 + flag first 14 + flag last 15 + flag poison 16 + src % 64 * 2 ^ 17 + dst % 64 * 2 ^ 23

/-- The high half of a header without its parity bit. -/
def flitHi (window gen words : Nat) : Nat := window % 65536 + gen % 256 * 2 ^ 16 + words % 128 * 2 ^ 24

theorem flag_le (b : Bool) (i : Nat) : flag b i ≤ 2 ^ i := by
  cases b <;> simp [flag]

theorem flitLo_lt (seq cls : Nat) (first last poison : Bool) (src dst : Nat) :
    flitLo seq cls first last poison src dst < 2 ^ 29 := by
  have h14 := flag_le first 14
  have h15 := flag_le last 15
  have h16 := flag_le poison 16
  unfold flitLo
  omega

theorem flitHi_lt (window gen words : Nat) : flitHi window gen words < 2 ^ 31 := by
  unfold flitHi
  omega

section
variable (seq cls : Nat) (first last poison : Bool) (src dst window gen words : Nat)

theorem flitHeader_toNat : (flitHeader seq cls first last poison src dst window gen words).toNat =
    (flitLo seq cls first last poison src dst + flag (oddOnes 31 (flitLo seq cls first last poison src dst)) 31)
      + (flitHi window gen words + flag (oddOnes 31 (flitHi window gen words)) 31) * 2 ^ 32 := by
  have hlo := flitLo_lt seq cls first last poison src dst
  have hhi := flitHi_lt window gen words
  have plo := flag_le (oddOnes 31 (flitLo seq cls first last poison src dst)) 31
  have phi := flag_le (oddOnes 31 (flitHi window gen words)) 31
  refine (BitVec.toNat_ofNat _ 64).trans (Nat.mod_eq_of_lt ?_)
  change (flitLo seq cls first last poison src dst + flag (oddOnes 31 (flitLo seq cls first last poison src dst)) 31)
    + (flitHi window gen words + flag (oddOnes 31 (flitHi window gen words)) 31) * 2 ^ 32 < 2 ^ 64
  omega

/-- The halves of a header, each with its parity bit. -/
theorem flitHeader_halves :
    bits (flitHeader seq cls first last poison src dst window gen words).toNat 31 0 =
      flitLo seq cls first last poison src dst + flag (oddOnes 31 (flitLo seq cls first last poison src dst)) 31
    ∧ bits (flitHeader seq cls first last poison src dst window gen words).toNat 63 32 =
      flitHi window gen words + flag (oddOnes 31 (flitHi window gen words)) 31 := by
  rw [flitHeader_toNat]
  have hlo := flitLo_lt seq cls first last poison src dst
  have hhi := flitHi_lt window gen words
  have plo := flag_le (oddOnes 31 (flitLo seq cls first last poison src dst)) 31
  have phi := flag_le (oddOnes 31 (flitHi window gen words)) 31
  unfold bits
  omega

/-- Both halves of a header pass parity. -/
theorem flitHeader_parity :
    oddOnes 32 (bits (flitHeader seq cls first last poison src dst window gen words).toNat 31 0) = false
    ∧ oddOnes 32 (bits (flitHeader seq cls first last poison src dst window gen words).toNat 63 32) = false := by
  obtain ⟨hlo, hhi⟩ := flitHeader_halves seq cls first last poison src dst window gen words
  rw [hlo, hhi]
  exact ⟨oddOnes_parity (Nat.lt_trans (flitLo_lt ..) (by decide)), oddOnes_parity (flitHi_lt ..)⟩

/-- The fields of the low half. -/
theorem flitHeader_low {h : Nat} (hh : h = (flitHeader seq cls first last poison src dst window gen words).toNat) :
    bits h 11 0 = seq % 4096 ∧ bits h 13 12 = cls % 4 ∧ bit h 14 = first ∧ bit h 15 = last ∧ bit h 16 = poison
      ∧ bits h 22 17 = src % 64 ∧ bits h 28 23 = dst % 64 ∧ bits h 30 29 = 0 := by
  rw [flitHeader_toNat] at hh
  have plo := Bool.toNat_le (oddOnes 31 (flitLo seq cls first last poison src dst))
  rw [flag_eq (oddOnes 31 (flitLo ..))] at hh
  generalize (oddOnes 31 (flitLo seq cls first last poison src dst)).toNat = p at plo hh
  generalize flitHi window gen words + _ = q at hh
  have hlo : flitLo seq cls first last poison src dst = seq % 4096 + cls % 4 * 2 ^ 12 + first.toNat * 2 ^ 14 + last.toNat * 2 ^ 15
      + poison.toNat * 2 ^ 16 + src % 64 * 2 ^ 17 + dst % 64 * 2 ^ 23 := by
    unfold flitLo
    rw [flag_eq, flag_eq, flag_eq]
  rw [hlo] at hh
  have h14 := Bool.toNat_le first
  have h15 := Bool.toNat_le last
  have h16 := Bool.toNat_le poison
  have hbit (b : Bool) (i : Nat) (hb : h / 2 ^ i % 2 = b.toNat) : bit h i = b := by
    unfold bit
    rw [hb]
    cases b <;> rfl
  unfold bits
  refine ⟨?_, ?_, hbit first 14 ?_, hbit last 15 ?_, hbit poison 16 ?_, ?_, ?_, ?_⟩ <;> omega

/-- The fields of the high half. -/
theorem flitHeader_high {h : Nat} (hh : h = (flitHeader seq cls first last poison src dst window gen words).toNat) :
    bits h 47 32 = window % 65536 ∧ bits h 55 48 = gen % 256 ∧ bits h 62 56 = words % 128 := by
  rw [flitHeader_toNat] at hh
  have hlo := flitLo_lt seq cls first last poison src dst
  have plo := flag_le (oddOnes 31 (flitLo seq cls first last poison src dst)) 31
  have phi := Bool.toNat_le (oddOnes 31 (flitHi window gen words))
  rw [flag_eq (oddOnes 31 (flitHi ..))] at hh
  generalize (oddOnes 31 (flitHi window gen words)).toNat = p at phi hh
  unfold flitHi at hh
  unfold bits
  refine ⟨?_, ?_, ?_⟩ <;> omega

end

/-! ## The flits of a message -/

/-- The words of a message that its flit i carries. -/
def msgPart (m : XMsg) (i : Nat) : List Word := (m.words.drop (16 * i)).take 16

theorem length_msgPart (m : XMsg) (i : Nat) : (msgPart m i).length = min 16 (m.words.length - 16 * i) := by
  rw [msgPart, List.length_take, List.length_drop]

theorem msgPart_bounds {m : XMsg} {i : Nat} (hw : m.words ≠ []) (hi : i < msgFlits m) :
    1 ≤ (msgPart m i).length ∧ (msgPart m i).length ≤ 16 := by
  have hpos : 0 < m.words.length := List.length_pos_of_ne_nil hw
  rw [length_msgPart]
  unfold msgFlits ceilDiv at hi
  omega

theorem length_words_le {m : XMsg} (hw : m.words ≠ []) : m.words.length ≤ 16 * msgFlits m := by
  have hpos : 0 < m.words.length := List.length_pos_of_ne_nil hw
  unfold msgFlits ceilDiv
  omega

/-- The parts before flit n, joined, are the first 16 n words. -/
theorem take_append_msgPart (m : XMsg) (n : Nat) :
    m.words.take (16 * n) ++ msgPart m n = m.words.take (16 * (n + 1)) := by
  rw [msgPart, Nat.mul_succ, List.take_add]

section
variable {m : XMsg} {i : Nat} (seq : Nat)

theorem xFlit_header : (xFlit m seq i).header = flitHeader seq m.cls (i = 0) (i + 1 = msgFlits m) m.poison m.src m.dst m.window
    m.gen (max 1 (msgPart m i).length) := rfl

theorem xFlit_words : (xFlit m seq i).words = msgPart m i ++ List.replicate (16 - (msgPart m i).length) 0 := rfl

variable (hw : m.words ≠ []) (hi : i < msgFlits m)
include hw hi

theorem flitCount_xFlit : flitCount (xFlit m seq i) = (msgPart m i).length := by
  obtain ⟨h1, h16⟩ := msgPart_bounds hw hi
  have hc := (flitHeader_high seq m.cls (i = 0) (i + 1 = msgFlits m) m.poison m.src m.dst m.window m.gen
    (max 1 (msgPart m i).length) rfl).2.2
  rw [← xFlit_header, Nat.max_eq_right h1, Nat.mod_eq_of_lt (Nat.lt_of_le_of_lt h16 (by decide))] at hc
  exact hc

/-- The words that a flit says it carries. -/
theorem take_flitCount_xFlit : (xFlit m seq i).words.take (flitCount (xFlit m seq i)) = msgPart m i := by
  rw [flitCount_xFlit seq hw hi, xFlit_words, List.take_left]

theorem flitOk_xFlit : flitOk (xFlit m seq i) = true := by
  obtain ⟨h1, h16⟩ := msgPart_bounds hw hi
  obtain ⟨hlo, hhi⟩ := flitHeader_parity seq m.cls (i = 0) (i + 1 = msgFlits m) m.poison m.src m.dst m.window m.gen
    (max 1 (msgPart m i).length)
  have hlen : (xFlit m seq i).words.length = 16 := by
    rw [xFlit_words, List.length_append, List.length_replicate]
    omega
  have hpar : (xFlit m seq i).parity = payloadParity (xFlit m seq i).words := rfl
  unfold flitOk
  rw [xFlit_header, hlo, hhi, hlen, hpar]
  simp

/-- What the header of a flit says of a legal message. -/
theorem xFlit_fields (hc : m.cls < 3) (hs : m.src < 40) (hd : m.dst < 40) (hwin : m.window < 65536) (hg : m.gen < 256)
    {h : Nat} (hh : h = (xFlit m seq i).header.toNat) :
    bits h 11 0 = seq % 4096 ∧ bits h 13 12 = m.cls ∧ bit h 14 = decide (i = 0) ∧ bit h 15 = decide (i + 1 = msgFlits m)
      ∧ bit h 16 = m.poison ∧ bits h 22 17 = m.src ∧ bits h 28 23 = m.dst ∧ bits h 30 29 = 0 ∧ bits h 47 32 = m.window
      ∧ bits h 55 48 = m.gen := by
  rw [xFlit_header] at hh
  obtain ⟨hseq, hcls, hfirst, hlast, hpoison, hsrc, hdst, hzero⟩ := flitHeader_low _ _ _ _ _ _ _ _ _ _ hh
  obtain ⟨hwindow, hgen, -⟩ := flitHeader_high _ _ _ _ _ _ _ _ _ _ hh
  rw [Nat.mod_eq_of_lt (by omega)] at hcls hsrc hdst hwindow hgen
  exact ⟨hseq, hcls, hfirst, hlast, hpoison, hsrc, hdst, hzero, hwindow, hgen⟩

variable (hc : m.cls < 3) (hs : m.src < 40) (hd : m.dst < 40) (hwin : m.window < 65536) (hg : m.gen < 256)
include hc hs hd hwin hg

theorem flitLegal_xFlit : flitLegal (xFlit m seq i) = true := by
  obtain ⟨-, hcls, -, -, -, hsrc, hdst, hzero, -, -⟩ := xFlit_fields seq hw hi hc hs hd hwin hg rfl
  obtain ⟨h1, h16⟩ := msgPart_bounds hw hi
  unfold flitLegal flitClass
  rw [hcls, hsrc, hdst, hzero, flitCount_xFlit seq hw hi]
  simp [*]

/-- The first flit starts the message with its own part. -/
theorem joinFlit_first (a : Option XMsg) (h0 : i = 0) : joinFlit (xFlit m seq i) a = { m with words := msgPart m i } := by
  obtain ⟨-, hcls, hfirst, -, hpoison, hsrc, hdst, -, hwindow, hgen⟩ := xFlit_fields seq hw hi hc hs hd hwin hg rfl
  have hf : flitFirst (xFlit m seq i) = true := hfirst.trans (decide_eq_true h0)
  unfold joinFlit flitClass
  dsimp only
  rw [hf, flitLegal_xFlit seq hw hi hc hs hd hwin hg, take_flitCount_xFlit seq hw hi, hcls, hpoison, hsrc, hdst, hwindow, hgen]
  rfl

/-- A later flit adds its part. -/
theorem joinFlit_later (l : List Word) (h0 : i ≠ 0) :
    joinFlit (xFlit m seq i) (some { m with words := l }) = { m with words := l ++ msgPart m i } := by
  obtain ⟨-, -, hfirst, -, hpoison, -, -, -, -, -⟩ := xFlit_fields seq hw hi hc hs hd hwin hg rfl
  have hf : flitFirst (xFlit m seq i) = false := hfirst.trans (decide_eq_false h0)
  unfold joinFlit
  dsimp only
  rw [hf, flitLegal_xFlit seq hw hi hc hs hd hwin hg, take_flitCount_xFlit seq hw hi, hpoison, Bool.or_self]
  rfl

end

/-- Flits 0 to n of a message, joined in order, give its first words. -/
theorem joinFlits {m : XMsg} (seq : Nat) (hw : m.words ≠ []) (hc : m.cls < 3) (hs : m.src < 40) (hd : m.dst < 40)
    (hwin : m.window < 65536) (hg : m.gen < 256) : ∀ {n : Nat}, n < msgFlits m →
    (List.range (n + 1)).foldl (fun (a : Option XMsg) i => some (joinFlit (xFlit m ((seq + i) % 4096) i) a)) none
      = some { m with words := m.words.take (16 * (n + 1)) }
  | 0, hi => congrArg some (joinFlit_first _ hw hi hc hs hd hwin hg none rfl)
  | n + 1, hi => by
    rw [List.range_succ, List.foldl_append, joinFlits seq hw hc hs hd hwin hg (Nat.lt_of_succ_lt hi)]
    refine congrArg some ((joinFlit_later _ hw hi hc hs hd hwin hg _ n.succ_ne_zero).trans ?_)
    rw [take_append_msgPart]

/-- Settles O52: the header's fields lie side by side, and the parts of the flits are the message's words in order. -/
theorem flitsRoundTrip : Obligations.FlitsRoundTrip := by
  unfold Obligations.FlitsRoundTrip
  intro m seq hc hs hd hwin hg hw
  refine ⟨fun i hi => ?fields, ?join⟩
  case fields =>
    obtain ⟨hseq, hcls, hfirst, hlast, -⟩ := xFlit_fields seq hw hi hc hs hd hwin hg rfl
    exact ⟨flitOk_xFlit seq hw hi, flitLegal_xFlit seq hw hi hc hs hd hwin hg, hseq, hcls, hfirst, hlast⟩
  case join =>
    have hpos : 0 < msgFlits m := Nat.le_max_left 1 _
    have h := joinFlits seq hw hc hs hd hwin hg (Nat.sub_lt hpos Nat.one_pos)
    rw [Nat.sub_add_cancel hpos, List.take_of_length_le (length_words_le hw)] at h
    exact h

end Sys2Proof.Machine
end

section
/-! SUPPORT. The floating formats: the binary logarithm, rounding what a format holds, and the statement that every finite
encoding is the conversion of its own value. -/

open Sys2Proof Sys2Proof.Machine

namespace Sys2Proof.Machine

/-! ## Powers of two and the binary logarithm -/

theorem pow2_eq_zpow (e : Int) : pow2 e = (2 : ℚ) ^ e := by
  unfold pow2
  split
  next h =>
    obtain ⟨n, rfl⟩ := Int.eq_ofNat_of_zero_le h
    rw [Rat.mkRat_eq_div]
    simp
  next h =>
    obtain ⟨n, hn⟩ := Int.eq_ofNat_of_zero_le (Int.le_of_lt (Int.neg_pos_of_neg (Int.not_le.mp h)))
    obtain rfl : e = -(n : Int) := by omega
    rw [Rat.mkRat_eq_div]
    simp

theorem pow2_pos (e : Int) : 0 < pow2 e := by
  rw [pow2_eq_zpow]
  exact zpow_pos (by norm_num) e

theorem pow2_add (a b : Int) : pow2 (a + b) = pow2 a * pow2 b := by
  rw [pow2_eq_zpow, pow2_eq_zpow, pow2_eq_zpow, zpow_add₀ (by norm_num)]

theorem pow2_natCast (n : Nat) : pow2 n = ((2 ^ n : Nat) : ℚ) := by
  rw [pow2_eq_zpow, zpow_natCast, Nat.cast_pow, Nat.cast_ofNat]

theorem pow2_le_pow2 {a b : Int} : pow2 a ≤ pow2 b ↔ a ≤ b := by
  rw [pow2_eq_zpow, pow2_eq_zpow]
  exact zpow_le_zpow_iff_right₀ (by norm_num)

theorem pow2_lt_pow2 {a b : Int} : pow2 a < pow2 b ↔ a < b := by
  rw [pow2_eq_zpow, pow2_eq_zpow]
  exact zpow_lt_zpow_iff_right₀ (by norm_num)

/-- The bounds of a positive rational by the logarithms of its numerator and denominator. -/
theorem pow2_log_bounds {a : ℚ} (ha : 0 < a) :
    pow2 ((Nat.log2 a.num.natAbs : Int) - (Nat.log2 a.den : Int) - 1) ≤ a
      ∧ a < pow2 ((Nat.log2 a.num.natAbs : Int) - (Nat.log2 a.den : Int) + 1) := by
  have hnum : 0 < a.num := Rat.num_pos.mpr ha
  have hn0 : a.num.natAbs ≠ 0 := Int.natAbs_ne_zero.mpr hnum.ne'
  have hd0 : a.den ≠ 0 := a.den_nz
  have hval : a * (a.den : ℚ) = (a.num.natAbs : ℚ) := by
    rw [Rat.mul_den_eq_num, Nat.cast_natAbs, abs_of_pos hnum]
  have hnlo : pow2 (Nat.log2 a.num.natAbs) ≤ (a.num.natAbs : ℚ) := by
    rw [pow2_natCast]
    exact_mod_cast Nat.log2_self_le hn0
  have hnhi : (a.num.natAbs : ℚ) < pow2 (Nat.log2 a.num.natAbs + 1 : Nat) := by
    rw [pow2_natCast]
    exact_mod_cast Nat.lt_log2_self
  have hdlo : pow2 (Nat.log2 a.den) ≤ (a.den : ℚ) := by
    rw [pow2_natCast]
    exact_mod_cast Nat.log2_self_le hd0
  have hdhi : (a.den : ℚ) < pow2 (Nat.log2 a.den + 1 : Nat) := by
    rw [pow2_natCast]
    exact_mod_cast Nat.lt_log2_self
  have hdpos : (0 : ℚ) < a.den := by exact_mod_cast Nat.pos_of_ne_zero hd0
  generalize (a.num.natAbs.log2) = n at *
  generalize a.den.log2 = k at *
  constructor
  · refine le_of_mul_le_mul_right ?_ hdpos
    rw [hval]
    calc pow2 ((n : Int) - k - 1) * a.den ≤ pow2 ((n : Int) - k - 1) * pow2 (k + 1 : Nat) :=
          mul_le_mul_of_nonneg_left hdhi.le (pow2_pos _).le
      _ = pow2 n := by rw [← pow2_add]; congr 1; push_cast; omega
      _ ≤ _ := hnlo
  · refine lt_of_mul_lt_mul_right ?_ hdpos.le
    rw [hval]
    calc (a.num.natAbs : ℚ) < pow2 (n + 1 : Nat) := hnhi
      _ = pow2 ((n : Int) - k + 1) * pow2 k := by rw [← pow2_add]; congr 1; push_cast; omega
      _ ≤ pow2 ((n : Int) - k + 1) * a.den := mul_le_mul_of_nonneg_left hdlo (pow2_pos _).le

/-- The logarithm is the exponent of the power of two just below. -/
theorem floorLog2_bounds {a : ℚ} (ha : 0 < a) : pow2 (floorLog2 a) ≤ a ∧ a < pow2 (floorLog2 a + 1) := by
  obtain ⟨hlo, hhi⟩ := pow2_log_bounds ha
  unfold floorLog2
  dsimp only
  split
  next h => exact ⟨h, hhi⟩
  next h => exact ⟨hlo, by rw [Int.sub_add_cancel]; exact not_le.mp h⟩

/-- A value below a power of two has a smaller logarithm. -/
theorem floorLog2_lt {a : ℚ} (ha : 0 < a) {e : Int} (h : a < pow2 e) : floorLog2 a < e :=
  pow2_lt_pow2.mp (lt_of_le_of_lt (floorLog2_bounds ha).1 h)

theorem floorLog2_eq {a : ℚ} {e : Int} (hlo : pow2 e ≤ a) (hhi : a < pow2 (e + 1)) : floorLog2 a = e := by
  have ha : 0 < a := lt_of_lt_of_le (pow2_pos e) hlo
  have hle : e < floorLog2 a + 1 := pow2_lt_pow2.mp (lt_of_le_of_lt hlo (floorLog2_bounds ha).2)
  have hlt := floorLog2_lt ha hhi
  omega

theorem toNat_floor_natCast (k : Nat) : ((k : ℚ)).floor.toNat = k := by
  have h : ((k : ℚ)).floor = (k : Int) := by simpa using Rat.floor_intCast k
  rw [h, Int.toNat_natCast]

/-- A whole number of steps rounds to itself. -/
theorem roundStep_mul (k : Nat) {s : ℚ} (hs : s ≠ 0) : roundStep ((k : ℚ) * s) s = k := by
  unfold roundStep
  dsimp only
  rw [mul_div_cancel_right₀ _ hs, toNat_floor_natCast, sub_self]
  exact if_neg (by norm_num)

/-! ## The values that a format holds -/

/-- The largest fraction at the largest exponent, in steps: all ones, or one less where all ones is the NaN. -/
def FloatFmt.maxSteps (t : FloatFmt) : Nat := 2 ^ (t.f + 1) - (if ¬ t.hasInf ∧ t.nan.isSome then 2 else 1)

/-- The constants of a format fit together: the smallest exponent has the code 1, the largest one lies below the codes of the
values that are not finite, and the largest value has the largest fraction there (R49, R52). -/
structure FloatFmt.Fits (t : FloatFmt) : Prop where
  ebits : 0 < t.ebits
  frac : 0 < t.f
  emin : t.emin = 1 - t.bias
  emax : t.emax + t.bias = 2 ^ t.ebits - (if t.hasInf then 2 else 1)
  max : t.maxf = (t.maxSteps : ℚ) * pow2 (t.emax - t.f)
  range : t.emin < t.emax

theorem floatFmt_fits {code : Nat} {t : FloatFmt} (h : floatFmt code = some t) : t.Fits := by
  unfold floatFmt at h
  split at h <;> cases h <;> exact ⟨by decide, by decide, by decide, by decide, by decide +kernel, by decide⟩

/-- A format holds `k` steps of the exponent `q`: a fraction without its leading one only at the smallest exponent. -/
structure FloatFmt.Holds (t : FloatFmt) (k : Nat) (q : Int) : Prop where
  lt : k < 2 ^ (t.f + 1)
  exp : t.emin ≤ q
  lead : q = t.emin ∨ 2 ^ t.f ≤ k

section
variable {t : FloatFmt} {k : Nat} {q : Int}

theorem natCast_mul_pow2_pos (hk : k ≠ 0) (e : Int) : 0 < (k : ℚ) * pow2 e :=
  mul_pos (by exact_mod_cast Nat.pos_of_ne_zero hk) (pow2_pos e)

theorem natCast_mul_pow2_lt {n : Nat} (hk : k < 2 ^ n) (e : Int) : (k : ℚ) * pow2 e < pow2 (e + n) := by
  rw [add_comm, pow2_add, pow2_natCast]
  exact mul_lt_mul_of_pos_right (by exact_mod_cast hk) (pow2_pos e)

theorem le_natCast_mul_pow2 {n : Nat} (hk : 2 ^ n ≤ k) (e : Int) : pow2 (e + n) ≤ (k : ℚ) * pow2 e := by
  rw [add_comm, pow2_add, pow2_natCast]
  exact mul_le_mul_of_nonneg_right (by exact_mod_cast hk) (pow2_pos e).le

/-- A fraction with its leading one has its exponent for logarithm. -/
theorem floorLog2_of_lead (hk : 2 ^ t.f ≤ k) (hlt : k < 2 ^ (t.f + 1)) : floorLog2 ((k : ℚ) * pow2 (q - t.f)) = q := by
  refine floorLog2_eq ?_ ?_
  · have h := le_natCast_mul_pow2 hk (q - t.f)
    rwa [Int.sub_add_cancel] at h
  · have h := natCast_mul_pow2_lt hlt (q - t.f)
    rwa [Nat.cast_add, ← Int.add_assoc, Int.sub_add_cancel] at h

/-- A fraction without it has a smaller one. -/
theorem floorLog2_of_not_lead (h0 : k ≠ 0) (hk : k < 2 ^ t.f) : floorLog2 ((k : ℚ) * pow2 (q - t.f)) < q := by
  refine floorLog2_lt (natCast_mul_pow2_pos h0 _) ?_
  have h := natCast_mul_pow2_lt hk (q - t.f)
  rwa [Int.sub_add_cancel] at h

theorem FloatFmt.Holds.max_floorLog2 (h : t.Holds k q) (h0 : k ≠ 0) :
    max (floorLog2 ((k : ℚ) * pow2 (q - t.f))) t.emin = q := by
  by_cases hk : 2 ^ t.f ≤ k
  · rw [floorLog2_of_lead hk h.lt, max_eq_left h.exp]
  · obtain rfl : q = t.emin := h.lead.resolve_right hk
    exact max_eq_right (floorLog2_of_not_lead h0 (Nat.not_le.mp hk)).le

/-- A value that the format holds is not rounded. -/
theorem FloatFmt.Holds.round (h : t.Holds k q) : t.round ((k : ℚ) * pow2 (q - t.f)) = (k : ℚ) * pow2 (q - t.f) := by
  unfold FloatFmt.round
  by_cases h0 : k = 0
  · rw [h0, Nat.cast_zero, zero_mul, if_pos rfl]
  · rw [if_neg (natCast_mul_pow2_pos h0 _).ne', h.max_floorLog2 h0]
    dsimp only
    rw [roundStep_mul k (pow2_pos _).ne']

/-- The code of a value that the format holds. -/
theorem FloatFmt.Holds.encodeMag (h : t.Holds k q) :
    t.encodeMag ((k : ℚ) * pow2 (q - t.f)) = if k < 2 ^ t.f then k else (q + t.bias).toNat * 2 ^ t.f + (k - 2 ^ t.f) := by
  unfold FloatFmt.encodeMag
  by_cases h0 : k = 0
  · rw [h0, Nat.cast_zero, zero_mul, if_pos rfl, if_pos (Nat.two_pow_pos _)]
  · rw [if_neg (natCast_mul_pow2_pos h0 _).ne']
    dsimp only
    by_cases hk : k < 2 ^ t.f
    · obtain rfl : q = t.emin := h.lead.resolve_right (Nat.not_le.mpr hk)
      rw [if_pos (floorLog2_of_not_lead h0 hk), if_pos hk, mul_div_cancel_right₀ _ (pow2_pos _).ne', toNat_floor_natCast]
    · rw [floorLog2_of_lead (Nat.not_lt.mp hk) h.lt, if_neg (not_lt.mpr h.exp), if_neg hk,
        mul_div_cancel_right₀ _ (pow2_pos _).ne', toNat_floor_natCast]

/-- A value that a format holds is at most its largest one, unless its exponent is larger or its fraction is there. -/
theorem FloatFmt.Holds.le_maxf (h : t.Holds k q) (ht : t.Fits) (hq : q ≤ t.emax) (hk : q = t.emax → k ≤ t.maxSteps) :
    (k : ℚ) * pow2 (q - t.f) ≤ t.maxf := by
  rw [ht.max]
  obtain rfl | hlt := hq.eq_or_lt
  · exact mul_le_mul_of_nonneg_right (by exact_mod_cast hk rfl) (pow2_pos _).le
  · have hsteps : 2 ^ t.f ≤ t.maxSteps := by
      have hf : 2 ^ 1 ≤ 2 ^ t.f := Nat.pow_le_pow_right (by decide) ht.frac
      unfold FloatFmt.maxSteps
      rw [Nat.pow_succ]
      split <;> omega
    calc (k : ℚ) * pow2 (q - t.f) ≤ pow2 (q - t.f + (t.f + 1 : Nat)) := (natCast_mul_pow2_lt h.lt _).le
      _ ≤ pow2 (t.emax - t.f + t.f) := pow2_le_pow2.mpr (by push_cast; omega)
      _ ≤ _ := le_natCast_mul_pow2 hsteps _

end

/-! ## What an encoding says -/

/-- The exponent code of a finite encoding is not beyond that of the largest exponent. -/
theorem FloatFmt.Fits.exp_le {t : FloatFmt} (ht : t.Fits) {e : Nat} (he : e < 2 ^ t.ebits)
    (hinf : ¬ (t.hasInf = true ∧ e = 2 ^ t.ebits - 1)) : (e : Int) - t.bias ≤ t.emax := by
  have hmax := ht.emax
  rw [show (2 : Int) ^ t.ebits = ((2 ^ t.ebits : Nat) : Int) by push_cast; rfl] at hmax
  generalize 2 ^ t.ebits = n at *
  cases hi : t.hasInf
  · rw [hi, if_neg Bool.false_ne_true] at hmax
    omega
  · rw [hi, if_pos rfl] at hmax
    have : e ≠ n - 1 := fun h => hinf ⟨hi, h⟩
    omega

/-- At the largest exponent a finite encoding's fraction is at most the largest one. -/
theorem FloatFmt.Fits.frac_le {t : FloatFmt} (ht : t.Fits) {e r : Nat} (hr : r < 2 ^ t.f)
    (hnan : ¬ (¬ t.hasInf = true ∧ t.nan.isSome = true ∧ e = 2 ^ t.ebits - 1 ∧ r = 2 ^ t.f - 1))
    (hq : (e : Int) - t.bias = t.emax) : 2 ^ t.f + r ≤ t.maxSteps := by
  have hmax := ht.emax
  rw [show (2 : Int) ^ t.ebits = ((2 ^ t.ebits : Nat) : Int) by push_cast; rfl] at hmax
  unfold FloatFmt.maxSteps
  rw [Nat.pow_succ]
  by_cases hn : ¬ t.hasInf = true ∧ t.nan.isSome = true
  · rw [if_neg hn.1] at hmax
    have : r ≠ 2 ^ t.f - 1 := fun h => hnan ⟨hn.1, hn.2, by omega, h⟩
    rw [if_pos hn]
    omega
  · rw [if_neg hn]
    omega

/-- A finite encoding gives a value that the format holds, at most the largest one, and is the code of that value under its
sign. -/
theorem FloatFmt.decode_fin {t : FloatFmt} (ht : t.Fits) {v : Nat} {neg : Bool} {m : ℚ} (h : t.decode v = .fin neg m) :
    bit v (t.ebits + t.f) = neg ∧ t.round m = m ∧ m ≤ t.maxf ∧ t.encodeMag m = v % 2 ^ (t.ebits + t.f) := by
  have hr : v % 2 ^ t.f < 2 ^ t.f := Nat.mod_lt _ (Nat.two_pow_pos _)
  have hexp : bits v (t.ebits + t.f - 1) t.f = v / 2 ^ t.f % 2 ^ t.ebits := by
    have := ht.ebits
    unfold bits
    rw [show t.ebits + t.f - 1 + 1 - t.f = t.ebits by omega]
  have hlow : v % 2 ^ (t.ebits + t.f) = v / 2 ^ t.f % 2 ^ t.ebits * 2 ^ t.f + v % 2 ^ t.f := by
    rw [Nat.add_comm t.ebits, Nat.pow_add, Nat.mod_mul, Nat.add_comm, Nat.mul_comm]
  have he : v / 2 ^ t.f % 2 ^ t.ebits < 2 ^ t.ebits := Nat.mod_lt _ (Nat.two_pow_pos _)
  unfold FloatFmt.decode at h
  dsimp only at h
  rw [hexp] at h
  rw [hlow]
  generalize v / 2 ^ t.f % 2 ^ t.ebits = e at *
  generalize v % 2 ^ t.f = r at *
  split at h
  next => split at h <;> cases h
  next hinf =>
  split at h
  next => cases h
  next hnan =>
  split at h
  next h0 =>
    cases h
    have hold : t.Holds r t.emin := ⟨by rw [Nat.pow_succ]; omega, le_rfl, .inl rfl⟩
    refine ⟨rfl, hold.round, hold.le_maxf ht ht.range.le fun hq => absurd hq ht.range.ne, hold.encodeMag.trans ?_⟩
    rw [if_pos hr, h0, Nat.zero_mul, Nat.zero_add]
  next h0 =>
    cases h
    have hold : t.Holds (2 ^ t.f + r) ((e : Int) - t.bias) :=
      ⟨by rw [Nat.pow_succ]; omega, by have := ht.emin; omega, .inr (Nat.le_add_right _ _)⟩
    refine ⟨rfl, hold.round, hold.le_maxf ht (ht.exp_le he hinf) fun hq => ht.frac_le hr hnan hq, hold.encodeMag.trans ?_⟩
    rw [if_neg (Nat.not_lt.mpr (Nat.le_add_right _ _)), Int.sub_add_cancel, Int.toNat_natCast, Nat.add_sub_cancel_left]

/-- The sign above the other bits gives an encoding back. -/
theorem mod_add_flag {v n : Nat} (hv : v < 2 ^ (1 + n)) : v % 2 ^ n + flag (bit v n) n = v := by
  have hd : v / 2 ^ n < 2 := by
    rw [Nat.div_lt_iff_lt_mul (Nat.two_pow_pos n), Nat.mul_comm, ← Nat.pow_succ, Nat.succ_eq_one_add]
    exact hv
  have hdm := Nat.mod_add_div v (2 ^ n)
  rw [flag_eq]
  unfold bit
  rw [Nat.mod_eq_of_lt hd]
  obtain h | h := Nat.le_one_iff_eq_zero_or_eq_one.mp (Nat.le_of_lt_succ hd)
  · rw [h] at hdm ⊢
    simpa using hdm
  · rw [h] at hdm ⊢
    simpa using hdm

/-- Settles O57: a finite encoding's value is one that its format holds, so it is neither rounded nor beyond the range. -/
theorem formatsRoundTrip : Obligations.FormatsRoundTrip := by
  unfold Obligations.FormatsRoundTrip
  intro code v t neg infOk m hf hv hd
  unfold decodeElem at hd
  rw [hf] at hd
  obtain ⟨hneg, hround, hmax, hcode⟩ := FloatFmt.decode_fin (floatFmt_fits hf) hd
  unfold convertElem
  rw [hf]
  dsimp only
  rw [hround, if_neg (not_lt.mpr hmax), hcode, ← hneg, mod_add_flag (by rwa [← Nat.add_assoc]), if_neg fun h => h.2 h.1]

end Sys2Proof.Machine
end

section
/-! SUPPORT. The exchanges of a bound context, the links, the crosscut, and the statements about them. -/

open Sys2Proof Sys2Proof.Machine

namespace Sys2Proof.Machine

/-! ## Exchanges -/

/-- The exchanges are about the older step while it has no decision to commit. -/
theorem exchanged_of_state {d : Dev} {c : Nat} {r : StepRun} (hr : (d.ctx c).older = some r) (hs : r.state ≠ 3) :
    d.exchanged c = false := by
  unfold Dev.exchanged
  rw [hr]
  exact Bool.and_eq_false_imp.mpr fun h => absurd (of_decide_eq_true h) hs

/-- Settles O49: each exchange is about the older step, in the state that it asks for. -/
theorem exchanges : Obligations.Exchanges := by
  unfold Obligations.Exchanges
  refine ⟨?notice, ?vote, ?decision, ?sealVote, ?sealDecision, ?unbound⟩
  case notice =>
    intro s c src r hb hj hr hst
    change execAbandonNotice .. = _
    refine onDev_eq ?_
    unfold abandonNoticeEff
    rw [hb, hj, exchanged_of_state hr (by rw [hst]; decide)]
    dsimp only [Ctx.step?]
    rw [if_neg (by decide), if_neg Bool.false_ne_true, hr]
    dsimp only
    rw [hst, if_neg (by decide), if_pos (by decide)]
  case vote =>
    intro s c src v r hb hj hr hst
    change execAbandonVote .. = _
    refine onDev_eq ?_
    unfold abandonVoteEff
    rw [hb, hj, exchanged_of_state hr (by rw [hst]; decide)]
    dsimp only [Ctx.step?]
    rw [if_neg (by decide), if_neg Bool.false_ne_true, hr]
    dsimp only
    rw [hst, if_pos rfl]
  case decision =>
    intro s c dec r hb hr hst
    change execAbandonDecision .. = _
    refine onDev_eq ?_
    unfold abandonDecisionEff
    rw [if_pos hb, exchanged_of_state hr (by rw [hst]; decide)]
  case sealVote =>
    intro s c src since v r hb hj hr hst
    change execSealVote .. = _
    refine onDev_eq ?_
    unfold sealVoteEff
    rw [hb, hj, if_neg (by decide), hr]
    exact if_pos hst
  case sealDecision =>
    intro s c dec r hb hr hst hv hd hk hbell
    change execSealDecision .. = _
    refine onDev_eq ?_
    unfold sealDecisionEff Dev.applySeal
    rw [if_pos hb, hr]
    dsimp only
    rw [hst, hv, hd, if_neg (by decide), if_neg (Nat.not_le.mpr hbell)]
  case unbound =>
    intro s c src since v dec hb
    have hnot : (!(s.dev.ctx c).bound || !(s.dev.jobOf c).contains src) = true := by rw [hb]; rfl
    have hoff : ¬ (s.dev.ctx c).bound = true := by rw [hb]; exact Bool.false_ne_true
    refine ⟨?_, ?_, ?_, ?_, ?_⟩
    · change execAbandonNotice .. = _
      exact onDev_eq (if_pos hnot)
    · change execAbandonVote .. = _
      exact onDev_eq (if_pos hnot)
    · change execAbandonDecision .. = _
      exact onDev_eq (if_neg hoff)
    · change execSealVote .. = _
      exact onDev_eq (if_pos hnot)
    · change execSealDecision .. = _
      exact onDev_eq (if_neg hoff)

/-! ## Links -/

/-- Settles O50: by the checks of each order and of each flit. -/
theorem linkEvents : Obligations.LinkEvents := by
  unfold Obligations.LinkEvents
  refine ⟨?ack, ?nak, ?credit, ?crc, ?retire, ?lambda, ?subset⟩
  case ack =>
    intro s port seq hon hseq
    change execAck .. = _
    refine onDev_eq ?_
    unfold ackEff
    rw [if_pos hon, Nat.mod_eq_of_lt hseq]
  case nak =>
    intro s port seq hon hseq
    change execNak .. = _
    refine onDev_eq ?_
    unfold nakEff
    rw [hon, Nat.mod_eq_of_lt hseq]
    rfl
  case credit =>
    intro s port counts hon hlen hlt
    have hcounts : counts.map (· % 4096) = counts :=
      (List.map_congr_left fun n hn => Nat.mod_eq_of_lt (hlt n hn)).trans (List.map_id' counts)
    change execCredit .. = _
    refine onDev_eq ?_
    unfold creditEff
    rw [hon, hlen, hcounts]
    rfl
  case crc =>
    intro s port seq hon hdis hseq
    change execFlitCrcFail .. = _
    refine onDev_eq ?_
    unfold flitCrcFailEff
    dsimp only
    rw [hon, hdis, Nat.mod_eq_of_lt hseq]
    rfl
  case retire =>
    intro s port
    change execPortRetire .. = _
    exact onDev_eq rfl
  case lambda =>
    intro s port lam hu hon x l
    have hlose : wavelengthFailEff port lam s.dev =
        if l.length < 4 then (s.dev.setPort port { x with lambdas := l }).retirePort port
        else s.dev.setPort port { x with lambdas := l } := by
      change s.dev.loseWavelength port lam = _
      unfold Dev.loseWavelength
      rw [hu, hon]
      rfl
    refine ⟨fun h4 => ?_, fun h4 => ?_⟩
    · change execWavelengthFail .. = _
      exact onDev_eq (hlose.trans (if_neg (Nat.not_lt.mpr h4)))
    · change execWavelengthFail .. = _
      exact onDev_eq (hlose.trans (if_pos h4))
  case subset =>
    intro x seq f hf
    unfold ackFlits at hf
    split at hf
    next => exact hf
    next g rest hg => exact (List.dropWhile_suffix _).subset (hg ▸ List.mem_cons_of_mem g hf)

/-! ## The crosscut -/

/-- A flit that passes parity, in its place in the sequence. -/
theorem Dev.takeFlit_in_order {d : Dev} {dir link : Nat} {f : XFlit} (hok : flitOk f = true)
    (hseq : flitSeq f = (d.xlink dir link).rxSeq) : d.takeFlit dir link f =
      (let x := d.xlink dir link
       let m := joinFlit f (x.rx.find? (flitClass f))
       let d1 := (d.setXlink dir link { x with
         rxSeq := (x.rxSeq + 1) % 4096, discarding := false
         rx := if flitLast f then x.rx.erase (flitClass f) else x.rx.insert (flitClass f) m }).emit (.crosscutAck dir link (flitSeq f))
       if flitLast f then d1.ingress (1 - dir) m else d1) := by
  unfold Dev.takeFlit
  dsimp only
  rw [hok, if_neg (by decide), if_neg (not_not.mpr hseq)]

/-- Another flit that passes parity is discarded. -/
theorem Dev.takeFlit_out_of_order {d : Dev} {dir link : Nat} {f : XFlit} (hok : flitOk f = true)
    (hseq : flitSeq f ≠ (d.xlink dir link).rxSeq) : d.takeFlit dir link f = d := by
  unfold Dev.takeFlit
  dsimp only
  rw [hok, if_neg (by decide), if_pos hseq]

/-- Settles O51: by the sequence number and the parity of the flit, and by the window that the message names. -/
theorem crosscut : Obligations.Crosscut := by
  unfold Obligations.Crosscut
  refine ⟨?taken, ?discarded, ?parity, ?answers, ?retire, ?noWindow⟩
  case taken =>
    intro s dir link f hon hok hseq x m d
    change execCrosscutMessage .. = _
    refine onDev_eq ((if_pos hon).trans ?_)
    exact (if_pos hon).trans (Dev.takeFlit_in_order hok hseq)
  case discarded =>
    intro s dir link f hok hseq
    change execCrosscutMessage .. = _
    refine onDev_eq ?_
    unfold crosscutMessageEff
    split
    next hon => exact (if_pos hon).trans (Dev.takeFlit_out_of_order hok hseq)
    next => rfl
  case parity =>
    intro s dir link f hon hbad hseq
    have hask : ¬ ((s.dev.xlink dir link).discarding && decide (flitSeq f ≠ (s.dev.xlink dir link).rxSeq)) = true := by
      intro h
      obtain ⟨hd, hne⟩ := Bool.and_eq_true_iff.mp h
      exact of_decide_eq_true hne (hseq hd)
    change execCrosscutParityFail .. = _
    refine onDev_eq ?_
    unfold crosscutParityFailEff Dev.takeFlit
    dsimp only
    rw [hon, hbad, if_pos (by decide), if_pos (by decide), if_neg hask]
  case answers =>
    intro s dir link seq hon hseq
    refine ⟨?_, ?_⟩
    · change execCrosscutAck .. = _
      refine onDev_eq ?_
      unfold crosscutAckEff
      rw [if_pos hon, Nat.mod_eq_of_lt hseq]
    · change execCrosscutReplayRequest .. = _
      refine onDev_eq ?_
      unfold crosscutReplayRequestEff
      rw [hon, Nat.mod_eq_of_lt hseq]
      rfl
  case retire =>
    intro s dir link hon
    change execCrosscutLinkRetire .. = _
    exact onDev_eq (if_pos hon)
  case noWindow =>
    intro d half m hf hc hw
    have hnone : d.xc.windows.find? (fun w => w.half = half && w.num = m.window && w.gen = m.gen && !w.got) = none := by
      rw [← Option.not_isSome_iff_eq_none, List.find?_isSome]
      exact fun ⟨w, hm, h⟩ => Bool.false_ne_true (hw.symm.trans (List.any_eq_true.mpr ⟨w, hm, h⟩))
    unfold Dev.ingress
    rw [hf, if_neg Bool.false_ne_true, if_neg (Nat.ne_of_lt hc), if_pos hc]
    unfold Dev.deliverWindow
    rw [hnone]
    rfl

end Sys2Proof.Machine
end

section
/-! SUPPORT. The deep tier, the stash, scrubs and repairs, and the statement about them. -/

open Sys2Proof Sys2Proof.Machine

namespace Sys2Proof.Machine

/-- The request with a number is at hand: it leaves, and its end acts. -/
theorem Dev.deepEnd_of_found {d : Dev} {id : Nat} {q : DeepReq} (f : Dev → DeepReq → Dev)
    (hq : d.deep.find? (fun q => q.id = id) = some q) :
    d.deepEnd id f = f { d with deep := d.deep.filter (fun r => r.id ≠ id) } q := by
  unfold Dev.deepEnd
  rw [hq]

/-- No request has the number. -/
theorem Dev.deepEnd_of_none {d : Dev} {id : Nat} (f : Dev → DeepReq → Dev) (hq : d.deep.any (fun q => q.id = id) = false) :
    d.deepEnd id f = d := by
  have hnone : d.deep.find? (fun q => q.id = id) = none := by
    rw [← Option.not_isSome_iff_eq_none, List.find?_isSome]
    exact fun ⟨q, hm, h⟩ => Bool.false_ne_true (hq.symm.trans (List.any_eq_true.mpr ⟨q, hm, h⟩))
  unfold Dev.deepEnd
  rw [hnone]

/-- A move of the stash changes the counts of its items alone. -/
theorem Dev.stashMove_leaves (d : Dev) (half : Nat) :
    d.stashMove half = { d with items := (d.stashMove half).items } ∧ (d.stashMove half).items.length = d.items.length := by
  unfold Dev.stashMove
  dsimp only
  split
  next => exact ⟨rfl, List.length_map ..⟩
  next =>
    split
    next => exact ⟨rfl, List.length_map ..⟩
    next => exact ⟨rfl, rfl⟩

/-- Two updates that give the context the same fields are one update. -/
theorem Dev.updCtx_congr {d : Dev} {c : Nat} {f g : Ctx → Ctx} (h : f (d.ctx c) = g (d.ctx c)) : d.updCtx c f = d.updCtx c g :=
  congrArg (d.setCtx c) h

/-- The line that a context repairs leaves its repairs, and its scrubbed lines. -/
theorem Ctx.repaired {x : Ctx} {l : Nat} (h : x.repairs = [l]) :
    { x with repairs := x.repairs.filter (fun k => !decide (l = k)), scrubbed := x.scrubbed.filter (fun k => !decide (l = k)) }
      = { x with repairs := [], scrubbed := x.scrubbed.filter (· ≠ l) } := by
  have hleft : [l].filter (fun k => !decide (l = k)) = [] := List.filter_cons_of_neg (by simp)
  have hkeep : (fun k => !decide (l = k)) = fun k => decide (k ≠ l) := by
    funext k
    rw [← decide_not, decide_eq_decide]
    exact ne_comm
  rw [h, hleft, hkeep]

/-- A line that the other members gave back, whole and in its place, is written and leaves the repairs. -/
theorem parityRepairDoneEff_line {d : Dev} {c l : Nat} {b : List Byte} (hrep : (d.ctx c).repairs = [l])
    (hring : (d.ctx c).relief.inRing = true) (hup : (d.ctx c).relief.upkeep = false) (hb : b.length = 64) :
    parityRepairDoneEff c true [(64 * l, b)] d = ((d.writeMem (64 * l) b).record
      { type := Rt.memory, status := St.parityRepaired, addr := 64 * l, ctx := some c }).updCtx c
        (fun x => { x with repairs := [], scrubbed := x.scrubbed.filter (· ≠ l) }) := by
  have hline : lineOf (64 * l) = l := Nat.mul_div_cancel_left l (by decide)
  have hgot : [(64 * l, b)].filter (fun p => [l].contains (lineOf p.1) && decide (p.1 % 64 = 0) && decide (p.2.length = 64))
      = [(64 * l, b)] := by
    refine List.filter_eq_self.mpr fun p hp => ?_
    rw [List.mem_singleton.mp hp]
    dsimp only
    rw [hline, Nat.mul_mod_right, hb]
    simp
  have hdone (k : Nat) : ([(64 * l, b)].any (fun p => lineOf p.1 = k)) = decide (l = k) := by
    rw [List.any_cons, List.any_nil, Bool.or_false, hline]
  unfold parityRepairDoneEff
  dsimp only
  rw [hrep, hring, hup]
  dsimp only
  rw [if_neg (by decide), if_neg Bool.false_ne_true, hgot]
  simp only [hdone]
  refine Dev.updCtx_congr (Ctx.repaired ?_)
  change (((d.writeMem (64 * l) b).record
      { type := Rt.memory, status := St.parityRepaired, addr := 64 * l, ctx := some c }).ctx c).repairs = [l]
  rw [Dev.record_ctx]
  exact hrep

/-- Settles O53: by the request that has the number, the line that is named and the block that is spare. -/
theorem deepAndStash : Obligations.DeepAndStash := by
  unfold Obligations.DeepAndStash
  refine ⟨?arrived, ?failed, ?absent, ?down, ?stash, ?scrub, ?idle, ?line, ?retire⟩
  case arrived =>
    intro s id q data hq hk
    change execDeepResponse .. = _
    refine onDev_eq (congrArg Dev.settle ?_)
    unfold deepResponseEff
    rw [Dev.deepEnd_of_found _ hq]
    unfold Dev.deepArrived
    rw [hk]
    rfl
  case failed =>
    intro s id q hq d
    refine ⟨?_, ?_⟩
    · change execDeepResponse .. = _
      exact onDev_eq (congrArg Dev.settle (Dev.deepEnd_of_found _ hq))
    · change execDeepTimeout .. = _
      exact onDev_eq (congrArg Dev.settle (Dev.deepEnd_of_found _ hq))
  case absent =>
    intro s id ok po data hq
    change execDeepResponse .. = _
    exact onDev_eq (congrArg Dev.settle (Dev.deepEnd_of_none _ hq))
  case down =>
    intro s half q hq hh
    change execDeepLinkDown .. = _
    refine onDev_eq (congrArg Dev.settle ?_)
    have hfind : s.dev.deep.find? (fun r => r.id = q.id) = some q := by
      rw [hq]
      exact List.find?_cons_of_pos (decide_eq_true rfl)
    have hleft : s.dev.deep.filter (fun r => r.id ≠ q.id) = [] := by
      rw [hq]
      exact List.filter_cons_of_neg (by simp)
    have hids : (s.dev.deep.filter (fun q => q.half = half)).map (·.id) = [q.id] := by
      rw [hq, List.filter_cons_of_pos (by simpa using hh)]
      rfl
    unfold deepLinkDownEff
    rw [hids]
    refine (Dev.deepEnd_of_found (fun d q => d.deepFailed q St.deepError) hfind).trans ?_
    rw [hleft]
  case stash =>
    intro s half hon
    obtain ⟨hdev, hlen⟩ := s.dev.stashMove_leaves half
    change ∃ d : Dev, execStashMoveDone .. = _ ∧ _
    exact ⟨s.dev.stashMove half, onDev_eq (if_pos hon), hdev, hlen⟩
  case scrub =>
    intro s half off hh ho a hv hheld
    have hok : ¬ (1 < half ∨ 2 ^ 38 ≤ off ∨ ¬ s.dev.dpaValid a = true ∨ s.dev.heldExt (a / 2 ^ 21) = true) := by
      rw [hv, hheld]
      rintro (h | h | h | h)
      · omega
      · omega
      · exact h rfl
      · exact Bool.false_ne_true h
    refine ⟨?_, ?_⟩
    · change execScrubLine .. = _
      exact onDev_eq (if_neg hok)
    · change execScrubLine .. = _
      exact onDev_eq ((if_neg hok).trans (if_pos rfl))
  case idle =>
    intro s c lines hr
    change execParityRepairDone .. = _
    refine onDev_eq (congrArg Dev.settle ?_)
    unfold parityRepairDoneEff
    dsimp only
    rw [hr]
  case line =>
    intro s c l b hrep hring hup hb
    change execParityRepairDone .. = _
    exact onDev_eq (congrArg Dev.settle (parityRepairDoneEff_line hrep hring hup hb))
  case retire =>
    intro s key n hp hn
    change execLocationRetire .. = _
    refine onDev_eq ?_
    unfold locationRetireEff Dev.retired!
    dsimp only
    rw [hp, hn, if_neg (by decide), if_pos rfl, decide_eq_false n.succ_ne_zero]
    rfl

end Sys2Proof.Machine
end

section
/-! SUPPORT. Packets that arrive, and the statement about them. -/

open Sys2Proof Sys2Proof.Machine

namespace Sys2Proof.Machine

section
variable {d : Dev} {port : Nat} {k : Packet}

/-- A whole packet is taken on its link; then the device that it is for decides. -/
theorem Dev.arrive_whole (hon : d.linkOn port = true) (hrsv : k.rsv = false) (ht : k.type ≤ 5) (hpos : 0 < k.len)
    (hlen : k.len ≤ 64) (data : List Byte) : d.arrive port k.type k data =
      if k.dst ≠ d.fab.phys then ((d.linkTake port k).sendPacket (portHalf port) (some (portDim port)) k data, false)
      else if d.physOf k.ldst ≠ some d.fab.phys then ((d.linkTake port k).misroute (portHalf port), false)
      else (d.linkTake port k, true) := by
  have hlink : ¬ (!d.linkOn port || (decide (k.type ≠ k.type) && !k.rsv)) = true := by
    rw [hon, decide_eq_false (not_not.mpr rfl)]
    exact Bool.false_ne_true
  have hgood : ¬ (k.rsv || decide (5 < k.type) || decide (64 < k.len) || decide (k.len = 0)) = true := by
    rw [hrsv, decide_eq_false (Nat.not_lt.mpr ht), decide_eq_false (Nat.not_lt.mpr hlen), decide_eq_false hpos.ne']
    decide
  exact (if_neg hlink).trans (if_neg hgood)

theorem Dev.delivers.arrive {type : Nat} (h : d.delivers port type k) (ht : type ≤ 5) (data : List Byte) :
    d.arrive port type k data = (d.linkTake port k, true) := by
  obtain ⟨hon, rfl, hrsv, hpos, hlen, hdst, hphys⟩ := h
  rw [Dev.arrive_whole hon hrsv ht hpos hlen, if_neg (not_not.mpr hdst), if_neg (not_not.mpr hphys)]

variable {c : Nat} {b : Bool} (data : List Byte) (p : Part) (hr : d.receiver k = some (c, b))
include hr

/-- A packet for the half it arrived in. -/
theorem Dev.packetArrives_here (hh : k.dstHalf % 2 = portHalf port) :
    d.packetArrives port k data p = d.packetTo k c b data p := by
  unfold Dev.packetArrives
  rw [hr]
  exact if_pos hh

/-- A packet for the other half. -/
theorem Dev.packetArrives_across (hh : k.dstHalf % 2 ≠ portHalf port) (hon : d.halfOn (k.dstHalf % 2) = true) :
    d.packetArrives port k data p = d.packetAcross k c b data := by
  unfold Dev.packetArrives
  rw [hr]
  exact (if_neg hh).trans (if_pos hon)

end

/-- The part of a collective that is not poisoned is received. -/
theorem Dev.packetTo_part {d : Dev} {k : Packet} {c : Nat} {b : Bool} (data : List Byte) (p : Part) (ht : k.type ≠ 0)
    (hp : k.poison = false) : d.packetTo k c b data p = d.takePart c k.gen k.tag (k.type = 3) p := by
  unfold Dev.packetTo
  rw [if_neg ht, hp, if_neg Bool.false_ne_true]

/-- Settles O48: a packet for this device is taken on its link and acts by its type, and another is passed on. -/
theorem packets : Obligations.Packets := by
  unfold Obligations.Packets
  refine ⟨?write, ?others, ?parts, ?transit⟩
  case write =>
    intro s port c b k data hdel d hr key a
    have ht : k.type = 0 := hdel.2.1
    have harr := hdel.arrive (by decide) data
    have hnone : (d.receiver k).isNone = false := by rw [hr]; rfl
    have hctx : ((d.receiver k).map (·.1)).getD 0 = c := by rw [hr]; rfl
    have heff (hgo : (decide (k.dstHalf % 2 = portHalf port) || d.halfOn (k.dstHalf % 2)) = true) :
        ulusilWritePacketEff port k data s.dev
          = (d.packetArrives port k data (bytesPart data)).sendPacket (portHalf port) none a [] := by
      unfold ulusilWritePacketEff
      dsimp only
      rw [harr]
      dsimp only
      rw [hnone, hgo, hctx]
      exact if_neg (by decide)
    refine ⟨fun hh => ?_, fun hh hon => ?_⟩
    · change execUlusilWritePacket .. = _
      refine onDev_eq ((heff (by rw [decide_eq_true hh]; rfl)).trans ?_)
      rw [Dev.packetArrives_here data _ hr hh]
      unfold Dev.packetTo
      rw [if_pos ht]
    · change execUlusilWritePacket .. = _
      refine onDev_eq ((heff (by rw [hon, Bool.or_true])).trans ?_)
      rw [Dev.packetArrives_across data _ hr hh hon]
  case others =>
    intro s port k data
    refine ⟨fun hdel => ?_, fun hdel => ?_, fun hdel => ?_⟩
    · change execWriteAckPacket .. = _
      exact onDev_eq (congrArg Prod.fst (hdel.arrive (by decide) []))
    · change execControlPacket .. = _
      exact onDev_eq (congrArg Prod.fst (hdel.arrive (by decide) data))
    · change execManagementPacket .. = _
      refine onDev_eq ?_
      unfold managementPacketEff
      dsimp only
      rw [hdel.arrive (by decide) data]
      rfl
  case parts =>
    intro s port c b k p hr hh hp
    refine ⟨fun hdel => ?_, fun hdel => ?_⟩
    · have ht : k.type = 2 := hdel.2.1
      change execCollectiveContribution .. = _
      refine onDev_eq ?_
      unfold collectiveContributionEff
      dsimp only
      rw [hdel.arrive (by decide) (partBytes p)]
      refine (if_pos rfl).trans ((Dev.packetArrives_here _ p hr hh).trans ?_)
      rw [Dev.packetTo_part _ p (by rw [ht]; decide) hp, ht]
      rfl
    · have ht : k.type = 3 := hdel.2.1
      change execCollectiveResult .. = _
      refine onDev_eq ?_
      unfold collectiveResultEff
      dsimp only
      rw [hdel.arrive (by decide) (partBytes p)]
      refine (if_pos rfl).trans ((Dev.packetArrives_here _ p hr hh).trans ?_)
      rw [Dev.packetTo_part _ p (by rw [ht]; decide) hp, ht]
      rfl
  case transit =>
    intro s port k hon ht hrsv hpos hlen hdst
    change execWriteAckPacket .. = _
    refine onDev_eq ?_
    have harr := Dev.arrive_whole hon hrsv (by rw [ht]; decide) hpos hlen []
    rw [ht, if_pos hdst] at harr
    exact congrArg Prod.fst harr

end Sys2Proof.Machine
end

section
/-! SUPPORT. The issue of slices, and the statement about it. -/

open Sys2Proof Sys2Proof.Machine

namespace Sys2Proof.Machine

/-! ## Slots of a core -/

theorem at'_setAt {α : Type} (a b : α) : ∀ {l : List α} {i : Nat}, i < l.length → at' (setAt l i a) i b = a
  | _ :: _, 0, _ => rfl
  | _ :: l, i + 1, h => at'_setAt (l := l) (i := i) a b (Nat.lt_of_succ_lt_succ h)

/-- A slice that is put into an engine lies in one of its two slots. -/
theorem Core.put_holds {x : Core} {e : Nat} (s : Slice) (ha : e < x.act.length) (hn : e < x.nxt.length) :
    at' (x.put e s).act e none = some s ∨ at' (x.put e s).nxt e none = some s := by
  unfold Core.put
  split
  · exact .inl (at'_setAt _ _ ha)
  · exact .inr (at'_setAt _ _ hn)

theorem lt_four_of_mem_enginesFor {w : Work} {e : Nat} (h : e ∈ enginesFor w) : e < 4 := by
  unfold enginesFor at h
  split at h
  · have := List.mem_cons.mp h
    simp at h
    omega
  · split at h <;> (rw [List.mem_singleton.mp h]; decide)

/-! ## What an issue leaves -/

/-- What an issue leaves as it is, the scales that an engine loads and the counters aside. -/
def Dev.besideChans (d : Dev) : Memory × List Nat × List Alloc × List Inst × SMap Core := (d.mem, d.poison, d.allocs, d.insts, d.cores)

theorem Dev.loadChans_besideChans (d : Dev) (w : Work) (key : Nat) : (d.loadChans w key).besideChans = d.besideChans := by
  unfold Dev.loadChans
  split
  next => rfl
  next =>
    refine foldl_fixes Dev.besideChans (fun d k => ?_) _ _
    split
    next =>
      split
      · rfl
      · exact foldl_fixes Dev.besideChans (by intros; rfl) _ _
    next => rfl

theorem Dev.atnCount_besideChans (d : Dev) (w : Work) (die cluster : Nat) (first : Bool) :
    (d.atnCount w die cluster first).besideChans = d.besideChans := by
  unfold Dev.atnCount
  exact (apply_ite Dev.besideChans _ _ _).trans (ite_self _)

/-! ## The issue -/

/-- A candidate of an issue comes from the device as it is, or from an admission that it may make. -/
theorem Dev.mem_admittable {d b : Dev} {half : Nat} {x : Inst} (h : (b, x) ∈ d.admittable half) :
    ∃ c newer task mb, b = instanceAdmitEff c newer task mb d := by
  unfold Dev.admittable at h
  obtain ⟨c, -, h⟩ := List.mem_flatMap.mp h
  obtain ⟨newer, -, h⟩ := List.mem_flatMap.mp h
  split at h
  next =>
    obtain ⟨t, -, h⟩ := List.mem_flatMap.mp h
    dsimp only at h
    split at h
    · exact absurd h List.not_mem_nil
    · obtain ⟨m, -, h⟩ := List.mem_filterMap.mp h
      split at h
      · cases h
      · split at h
        · split at h <;> cases h
          exact ⟨c, newer, t, m, rfl⟩
        · cases h
  next => exact absurd h List.not_mem_nil

/-- What a task in hand is after a slice of it has been issued. -/
def Inst.issuedTo (i : Inst) (hi : Nat) (late : Bool) (rung : Nat) : Inst :=
  { i with issued := hi, late := i.late || late, rung := rung }

/-- The rung at which a task's next slice is issued: fixed with the first slice. -/
def Dev.issueRung (d : Dev) (w : Work) : Nat :=
  match (d.ctx w.x.ctx).step? w.x.newer with
  | some r => if w.x.issued = 0 then d.fixRung w r else w.x.rung
  | none => w.x.rung

/-- The slice that a core takes: into an engine of the task's, and it has issued up to its end. -/
theorem sliceIssueEff_takes {d0 b : Dev} {die cl core : Nat} {w : Work} (hon : d0.coreIssues die cl core = true)
    (hfind : ((d0.issueOrder ((d0.insts.map (fun i => (d0, i)) ++ d0.admittable (dieHalf die)).filter
      (fun q => q.1.issuable q.2 && q.2.half = dieHalf die))).filterMap (fun q => (q.1.work q.2).map (fun w => (q.1, w)))).find?
      (fun q => (enginesFor q.2).any (fun e => (d0.core (coreKey die cl core)).takes e) && !q.1.namesParked q.2) = some (b, w)) :
    ∃ e late rung, e ∈ enginesFor w ∧ (sliceIssueEff die cl core d0).besideChans
      = (b.mem, b.poison, b.allocs,
          b.insts.map (fun i => if i.is w.x.ctx w.x.newer w.x.task w.x.mb then i.issuedTo (b.sliceOf w).hi late rung else i),
          b.cores.put {} (coreKey die cl core) ((d0.core (coreKey die cl core)).put e (b.sliceOf w))) := by
  have hsome := List.find?_some hfind
  have hany := (Bool.and_eq_true_iff.mp hsome).1
  have hne : (enginesFor w).filter (fun e => (d0.core (coreKey die cl core)).takes e) ≠ [] := by
    obtain ⟨e, hm, he⟩ := List.any_eq_true.mp hany
    exact List.ne_nil_of_mem (List.mem_filter.mpr ⟨hm, he⟩)
  have hmem := (List.mem_filter.mp (b.at'_pick_mem hne)).1
  unfold sliceIssueEff
  dsimp only
  rw [hon, if_neg (by decide), hfind]
  dsimp only
  refine ⟨_, decide (w.x.issued = 0) && decide (w.x.due < b.bell), b.issueRung w, hmem, ?_⟩
  rw [Dev.atnCount_besideChans, apply_ite Dev.besideChans, Dev.loadChans_besideChans, ite_self, apply_ite Dev.besideChans]
  exact ite_self _

/-- Settles O44: the slice goes into one of the engine's slots, and the counters and scales are all that changes besides. -/
theorem sliceIssued : Obligations.SliceIssued := by
  unfold Obligations.SliceIssued
  intro s die cl core b w hon key hact hnxt all cands hfind
  obtain ⟨e, late, rung, he, heff⟩ := sliceIssueEff_takes hon hfind
  have hfrom : b = s.dev ∨ ∃ c newer task mb, b = instanceAdmitEff c newer task mb s.dev := by
    obtain ⟨⟨b', x⟩, hq, hw⟩ := List.mem_filterMap.mp (List.mem_of_find?_eq_some hfind)
    obtain ⟨w', -, hbw⟩ := Option.map_eq_some_iff.mp hw
    cases hbw
    obtain h | h := List.mem_append.mp (List.mem_filter.mp ((Dev.mem_issueOrder ..).mp hq)).1
    · obtain ⟨i, -, h⟩ := List.mem_map.mp h
      cases h
      exact .inl rfl
    · exact .inr (Dev.mem_admittable h)
  simp only [Dev.besideChans, Prod.mk.injEq] at heff
  obtain ⟨hm, hp, ha, hi, hc⟩ := heff
  have hcore : (sliceIssueEff die cl core s.dev).core key = (s.dev.core key).put e (b.sliceOf w) := by
    unfold Dev.core
    rw [hc]
    exact SMap.get_put_self ..
  refine ⟨sliceIssueEff die cl core s.dev, e, rfl, he, hfrom, ?slot, ?issued, hm, hp, ha, ?length⟩
  case slot =>
    have h4 := lt_four_of_mem_enginesFor he
    rw [hcore]
    exact Core.put_holds _ (hact ▸ h4) (hnxt ▸ h4)
  case issued =>
    intro i him his
    rw [hi] at him
    obtain ⟨j, -, rfl⟩ := List.mem_map.mp him
    split at his
    next h => rw [if_pos h]; rfl
    next h => exact absurd his h
  case length => rw [hi, List.length_map]

end Sys2Proof.Machine
end

section
/-! SUPPORT. Admission, and the statement about it. -/

open Sys2Proof Sys2Proof.Machine

namespace Sys2Proof.Machine

/-- A new one that fails a check ends with its status. -/
theorem Dev.admGo_of_checkFail {d : Dev} {w : Work} (run : StepRun) {st : Status} (h : d.checkFail w = some st) :
    d.admGo w run true = d.admStop w.x st clsFixed := by
  unfold Dev.admGo
  rw [if_pos rfl, h]

/-- A new one that nothing holds and whose reservation succeeds is admitted. -/
theorem Dev.admGo_of_takes {d e : Dev} {w : Work} {run : StepRun} {y : Inst} (h : d.checkFail w = none) (ht : w.t.op ≠ opUpdate)
    (hp : d.admPinned w = false) (hh : d.admHeld w run = false) (hr : d.reserve w = .takes e y) :
    d.admGo w run true = e.admitInst w run y := by
  unfold Dev.admGo
  rw [if_pos rfl, h]
  dsimp only
  rw [hp, hh, if_neg Bool.false_ne_true, if_neg Bool.false_ne_true, if_neg ht]
  unfold Dev.admReserve
  rw [hr]

/-- An eligible one that is new is opened and goes through its checks, holds and reservation. -/
theorem instanceAdmitEff_of_new {d0 : Dev} {c : Nat} {newer : Bool} {task mb : Nat} {g : GraphHdr} {run : StepRun} {dn : Dev}
    (hdn : dn = d0.noteReady c newer) (hg : dn.attemptGraph c newer = some g) (hr : (dn.ctx c).step? newer = some run)
    (he : dn.eligible c newer g run task mb = true) (hfw : dn.fw.paused = false) (hph : dn.pwr.phase ≠ 5)
    (hhalf : dn.pausedHalf ((dn.graphTask g task).half % 2) = false) (hi : dn.inst? c newer task mb = none) :
    instanceAdmitEff c newer task mb d0 = (dn.admOpen (dn.graphTask g task)).admGo
      (dn.admWork g run (dn.newInst c newer run (dn.graphTask g task) task mb)) run true := by
  unfold instanceAdmitEff
  dsimp only
  rw [← hdn, hg, hr]
  dsimp only
  rw [he, hfw, hhalf, decide_eq_false hph, hi]
  rfl

/-- One that is not eligible changes only the order in which tasks became eligible. -/
theorem instanceAdmitEff_of_not_eligible {d0 : Dev} {c : Nat} {newer : Bool} {task mb : Nat}
    (h : ∀ g run, (d0.noteReady c newer).attemptGraph c newer = some g → ((d0.noteReady c newer).ctx c).step? newer = some run →
      (d0.noteReady c newer).eligible c newer g run task mb = false) :
    instanceAdmitEff c newer task mb d0 = d0.noteReady c newer := by
  unfold instanceAdmitEff
  dsimp only
  split
  next g run hg hr =>
    rw [h g run hg hr]
    rfl
  next => rfl

/-- Settles O43: by the checks, the holds and the reservation, and by what a waiting one waits for. -/
theorem admission : Obligations.Admission := by
  unfold Obligations.Admission
  refine ⟨?eligible, ?other, ?pages, ?deadline⟩
  case eligible =>
    intro s c newer task mb g run dn hg hr he hfw hph hhalf hi t w d
    have heff : instanceAdmitEff c newer task mb s.dev = d.admGo w run true :=
      instanceAdmitEff_of_new rfl hg hr he hfw hph hhalf hi
    refine ⟨fun st hst => ?_, fun hc ht hp hh e y hres => ?_⟩
    · change execInstanceAdmit .. = _
      exact onDev_eq (heff.trans (Dev.admGo_of_checkFail run hst))
    · change execInstanceAdmit .. = _
      exact onDev_eq (heff.trans (Dev.admGo_of_takes hc ht hp hh hres))
  case other =>
    intro s c newer task mb dn h
    change execInstanceAdmit .. = _
    exact onDev_eq (instanceAdmitEff_of_not_eligible h)
  case pages =>
    intro s c newer task mb x hx hst hw
    change execPageExhausted .. = _
    refine onDev_eq ?_
    unfold pageExhaustedEff
    rw [hx]
    refine if_neg ?_
    rintro (h | h)
    · exact h hst
    · rw [Option.isNone_iff_eq_none.mp h] at hw
      exact Bool.false_ne_true hw
  case deadline =>
    intro s c newer task mb x hx hst hf
    change execHbmAdmitDeadline .. = _
    refine onDev_eq ?_
    unfold hbmAdmitDeadlineEff
    rw [hx]
    refine if_neg ?_
    rintro (h | h)
    · exact h hst
    · exact hf (List.isEmpty_iff.mp h)

end Sys2Proof.Machine
end

section
/-! SUPPORT. The tensors of the Update Engine, and the statement about them. -/

open Sys2Proof Sys2Proof.Machine

namespace Sys2Proof.Machine

/-! ## Starting a tensor -/

section
variable {d : Dev} {c : Nat} {newer : Bool} {task : Nat} {x : Inst} {j : UpdJob} (hx : d.inst? c newer task 0 = some x)
  (hj : d.updJob c newer task = some j)
include hx hj

/-- The ready tensor that comes first starts where the engine is free and no input is poisoned. -/
theorem updateTensorStartEff_of_first (hready : d.updReady x = true)
    (hfirst : ∀ y, y ∈ d.insts → y.half = x.half → d.updReady y = true →
      (d.updRank x).1 < (d.updRank y).1 ∨ ((d.updRank x).1 = (d.updRank y).1 ∧ (d.updRank x).2 ≤ (d.updRank y).2))
    (hfree : ∀ y, y ∈ d.insts → ¬ (y.op = opUpdate ∧ y.half = x.half ∧ y.state = 1 ∧ y.started = true))
    (hpoison : d.updPoison c x.mb j = none) (href : j.r.refreshes j.step = false) :
    updateTensorStartEff c newer task d = d.updInst x (fun y => { y with started := true, token := j.r.prog }) := by
  have hbusy : d.insts.any (fun y => y.op = opUpdate && y.half = x.half && y.state = 1 && y.started) = false := by
    refine List.any_eq_false.mpr fun y hy h => hfree y hy ?_
    simpa [and_assoc] using h
  have hall : d.insts.all (fun y => !(y.half = x.half && d.updReady y) || decide ((d.updRank x).1 < (d.updRank y).1)
      || (decide ((d.updRank x).1 = (d.updRank y).1) && decide ((d.updRank x).2 ≤ (d.updRank y).2))) = true := by
    refine List.all_eq_true.mpr fun y hy => ?_
    by_cases h : y.half = x.half ∧ d.updReady y = true
    · obtain hlt | ⟨heq, hle⟩ := hfirst y hy h.1 h.2
      · simp [hlt]
      · simp [heq, hle]
    · have hnot : (decide (y.half = x.half) && d.updReady y) = false := by
        rw [Bool.and_eq_false_iff]
        by_contra hc
        simp only [not_or, Bool.not_eq_false, decide_eq_true_eq] at hc
        exact h hc
      rw [hnot]
      rfl
  unfold updateTensorStartEff
  rw [hx, hj]
  dsimp only
  rw [hbusy, hready, hall, if_neg (by decide), hpoison, href]
  rfl

/-! ## The end of a tensor -/

variable (hop : x.op = opUpdate) (hst : x.state = 1) (hstart : x.started = true)
include hop hst hstart

/-- A tensor that runs ends with what its update computes: written, or not where a value is not finite. -/
theorem updateTensorDoneEff_of_computed (href : j.r.refreshes j.step = false) :
    updateTensorDoneEff c newer task false d =
      match (d.updCompute c x.mb j).bad with
      | some i => ((d.updCtx c (fun y => { y with nf := true })).reportNf c [] task 0 (BitVec.ofNat 64 i)).updInst x
          (fun y => { y with state := 2, started := false, written := y.tiles })
      | none => (if (d.clipTensorNorm c x.mb j).nonfinite then d.updCtx c (fun y => { y with nf := true }) else d).updWrite x j
          (d.updCompute c x.mb j) := by
  unfold updateTensorDoneEff
  rw [hx, hj]
  dsimp only
  rw [hop, hst, hstart, href]
  rfl

/-- A mismatch of the copies, the first of the attempt: the event is entered and the tensor runs once more. -/
theorem updateTensorDoneEff_of_mismatch {r : StepRun} (hr : (d.ctx c).step? newer = some r) (h0 : r.updRun = 0) :
    updateTensorDoneEff c newer task true d =
      ((((((d.checkRecord (hubUnit x.half 2) (some c) 0).stick Sticky.lockstep).rcAdd (hubDie x.half) 0x03001008 1).enterEvent
        (hubUnit x.half 2) (hubUnit x.half 2) 3).updCtx c (fun y => { y with lockstep := true })).updStep c newer
        (fun r => { r with updRun := 1 })).updInst x (fun y => { y with runs := y.runs + 1 }) := by
  have hrun : ((d.ctx c).step? newer).elim 0 (·.updRun) = 0 := by rw [hr]; exact h0
  unfold updateTensorDoneEff
  rw [hx, hj]
  dsimp only
  rw [hop, hst, hstart, hrun, if_neg (by decide), if_pos rfl, if_pos rfl]

end

/-- A check failure of a unit without an earlier event at its location changes the unit's history alone. -/
theorem Dev.enterEvent_of_new_check {d : Dev} {u key : Nat} (h : ((d.hist u).loc key).1.tA = none) :
    ∃ y, d.enterEvent u key 3 = d.setHist u y := by
  unfold Dev.enterEvent
  dsimp only
  rw [h]
  dsimp only
  rw [if_neg Bool.false_ne_true, if_neg (fun h => absurd h.1 (by decide))]
  exact ⟨_, rfl⟩

/-- A non-finite value at a position reports it in the context. -/
theorem Dev.reportNf_nil (d : Dev) (c task mb : Nat) (pos : DWord) : ∃ y : Ctx,
    y.nf = (d.ctx c).nf ∧ (d.reportNf c [] task mb pos = d ∨ d.reportNf c [] task mb pos = d.setCtx c y) := by
  unfold Dev.reportNf
  dsimp only [List.foldl_nil]
  split
  · exact ⟨d.ctx c, rfl, .inl rfl⟩
  · refine ⟨_, ?_, .inr rfl⟩
    dsimp only
    split <;> rfl

theorem Dev.updInst_leaves (d : Dev) (x : Inst) (f : Inst → Inst) : (d.updInst x f).mem = d.mem ∧ (d.updInst x f).poison = d.poison
    ∧ (d.updInst x f).slots = d.slots ∧ (d.updInst x f).log = d.log ∧ (d.updInst x f).ctxs = d.ctxs := ⟨rfl, rfl, rfl, rfl, rfl⟩

/-- A value that is not finite is noted in its context, and nothing is written. -/
theorem nonfinite_leaves (d : Dev) (c task : Nat) (pos : DWord) (x : Inst) (f : Inst → Inst) {e : Dev}
    (he : e = ((d.updCtx c (fun y => { y with nf := true })).reportNf c [] task 0 pos).updInst x f) :
    e.mem = d.mem ∧ e.poison = d.poison ∧ e.slots = d.slots ∧ e.log = d.log ∧ (e.ctx c).nf = true := by
  obtain ⟨hm, hp, hs, hl, hc⟩ := Dev.updInst_leaves ((d.updCtx c (fun y => { y with nf := true })).reportNf c [] task 0 pos) x f
  rw [he, hm, hp, hs, hl, Dev.ctx, hc]
  obtain ⟨y, hy, h | h⟩ := (d.updCtx c (fun y => { y with nf := true })).reportNf_nil c task 0 pos
  · rw [h]
    exact ⟨rfl, rfl, rfl, rfl, congrArg Ctx.nf (d.ctx_updCtx c _)⟩
  · rw [h]
    rw [Dev.ctx_updCtx] at hy
    exact ⟨rfl, rfl, rfl, rfl, (congrArg Ctx.nf (Dev.ctx_setCtx _ c y)).trans hy⟩

/-- A record of a check leaves the units' histories and what the device computes with. -/
theorem Dev.checkRecord_leaves (d : Dev) (u : Nat) (c : Option Nat) (a : Nat) : (d.checkRecord u c a).mem = d.mem
    ∧ (d.checkRecord u c a).poison = d.poison ∧ (d.checkRecord u c a).slots = d.slots ∧ (d.checkRecord u c a).ctxs = d.ctxs
    ∧ (d.checkRecord u c a).insts = d.insts ∧ (d.checkRecord u c a).health.hist = d.health.hist := by
  unfold Dev.checkRecord
  rw [Dev.record_mem, Dev.record_poison, Dev.record_slots, Dev.record_ctxs, Dev.record_insts, Dev.record_hist]
  exact ⟨rfl, rfl, rfl, rfl, rfl, Dev.stick_hist ..⟩

/-- The attempt of a step notes a mismatch: the context knows it, and the attempt's count is one. -/
theorem Dev.ctx_lockstep (d : Dev) (c : Nat) {newer : Bool} {r : StepRun} (hr : (d.ctx c).step? newer = some r) :
    (((d.updCtx c (fun y => { y with lockstep := true })).updStep c newer (fun r => { r with updRun := 1 })).ctx c).lockstep = true
    ∧ ((((d.updCtx c (fun y => { y with lockstep := true })).updStep c newer (fun r => { r with updRun := 1 })).ctx c).step?
      newer).elim 0 (·.updRun) = 1 := by
  unfold Dev.updStep
  rw [Dev.ctx_updCtx, Dev.ctx_updCtx]
  have hstep : Ctx.step? { d.ctx c with lockstep := true } newer = some r := by
    rw [← hr]
    cases newer <;> rfl
  dsimp only
  rw [hstep]
  cases newer <;> exact ⟨rfl, rfl⟩

/-- A first mismatch is recorded, entered and counted, and the tensor has run once more; nothing is written. -/
theorem mismatch_leaves {d : Dev} {u off die c : Nat} {newer : Bool} {r : StepRun} (hr : (d.ctx c).step? newer = some r) (x : Inst)
    (hloc : ((d.hist u).loc u).1.tA = none) (f : Inst → Inst) {e : Dev}
    (he : e = ((((((d.checkRecord u (some c) 0).stick Sticky.lockstep).rcAdd die off 1).enterEvent u u 3).updCtx c
      (fun y => { y with lockstep := true })).updStep c newer (fun r => { r with updRun := 1 })).updInst x f) :
    e.mem = d.mem ∧ e.poison = d.poison ∧ e.slots = d.slots ∧ (e.ctx c).lockstep = true
      ∧ ((e.ctx c).step? newer).elim 0 (·.updRun) = 1
      ∧ e.insts = d.insts.map (fun i => if i.is x.ctx x.newer x.task x.mb then f i else i) := by
  obtain ⟨hm, hp, hs, hc, hi, hh⟩ : (((d.checkRecord u (some c) 0).stick Sticky.lockstep).rcAdd die off 1).mem = d.mem
      ∧ (((d.checkRecord u (some c) 0).stick Sticky.lockstep).rcAdd die off 1).poison = d.poison
      ∧ (((d.checkRecord u (some c) 0).stick Sticky.lockstep).rcAdd die off 1).slots = d.slots
      ∧ (((d.checkRecord u (some c) 0).stick Sticky.lockstep).rcAdd die off 1).ctxs = d.ctxs
      ∧ (((d.checkRecord u (some c) 0).stick Sticky.lockstep).rcAdd die off 1).insts = d.insts
      ∧ (((d.checkRecord u (some c) 0).stick Sticky.lockstep).rcAdd die off 1).health.hist = d.health.hist :=
    d.checkRecord_leaves u (some c) 0
  generalize ((d.checkRecord u (some c) 0).stick Sticky.lockstep).rcAdd die off 1 = d1 at *
  have hloc1 : ((d1.hist u).loc u).1.tA = none := by
    unfold Dev.hist
    rw [hh]
    exact hloc
  have hr1 (y : Hist) : ((d1.setHist u y).ctx c).step? newer = some r := by
    rw [Dev.ctx, Dev.setHist_ctxs, hc]
    exact hr
  obtain ⟨y, hy⟩ := Dev.enterEvent_of_new_check hloc1
  rw [hy] at he
  obtain ⟨hlock, hrun⟩ := (d1.setHist u y).ctx_lockstep c (hr1 y)
  unfold Dev.updStep at he hlock hrun
  obtain ⟨um, up, us, -, uc⟩ := Dev.updInst_leaves (((d1.setHist u y).updCtx c (fun y => { y with lockstep := true })).updCtx c _) x f
  refine ⟨?_, ?_, ?_, ?_, ?_, ?_⟩
  · rw [he, um, Dev.updCtx_mem, Dev.updCtx_mem, Dev.setHist_mem, hm]
  · rw [he, up, Dev.updCtx_poison, Dev.updCtx_poison, Dev.setHist_poison, hp]
  · rw [he, us, Dev.updCtx_slots, Dev.updCtx_slots, Dev.setHist_slots, hs]
  · rw [he, Dev.ctx, uc]
    exact hlock
  · rw [he, Dev.ctx, uc]
    exact hrun
  · rw [he, ← hi]
    rfl

/-- Settles O47: by the ranks of the ready tensors, the result of the computation and the first mismatch of the attempt. -/
theorem updateTensors : Obligations.UpdateTensors := by
  unfold Obligations.UpdateTensors
  refine ⟨?start, ?written, ?nonfinite, ?mismatch⟩
  case start =>
    intro s c newer task x j hx hj hready hfirst hfree hpoison href
    change execUpdateTensorStart .. = _
    exact onDev_eq (updateTensorStartEff_of_first hx hj hready hfirst hfree hpoison href)
  case written =>
    intro s c newer task x j hx hj hop hst hstart href o ho
    change execUpdateTensorDone .. = _
    refine onDev_eq ((updateTensorDoneEff_of_computed hx hj hop hst hstart href).trans ?_)
    rw [show (s.dev.updCompute c x.mb j).bad = none from ho]
  case nonfinite =>
    intro s c newer task i x j hx hj hop hst hstart href ho
    change ∃ d : Dev, execUpdateTensorDone .. = _ ∧ _
    refine ⟨_, rfl, nonfinite_leaves s.dev c task (BitVec.ofNat 64 i) x
      (fun y => { y with state := 2, started := false, written := y.tiles }) ?_⟩
    rw [updateTensorDoneEff_of_computed hx hj hop hst hstart href, ho]
  case mismatch =>
    intro s c newer task x j r hx hj hop hst hstart hr h0 u hloc
    change ∃ d : Dev, execUpdateTensorDone .. = _ ∧ _
    exact ⟨_, rfl, mismatch_leaves hr x hloc (fun y => { y with runs := y.runs + 1 })
      (updateTensorDoneEff_of_mismatch hx hj hop hst hstart hr h0)⟩

end Sys2Proof.Machine
end

section
/-! SUPPORT. Tiles and groups, and the statement about them. -/

open Sys2Proof Sys2Proof.Machine

namespace Sys2Proof.Machine

/-! ## Attempts at a tile -/

section
variable {d : Dev} {die cl core e tile : Nat} {f : TileFault} {sl : Slice}
  (hsl : d.actSlice (coreKey die cl core) e = some sl)
include hsl

/-- An attempt that is judged goes on with its judgement. -/
theorem Dev.attemptTile_of_judged {q : TileEnd} (hwalk : f.walk = true → sl.bound = false) (href : sl.refold = false)
    (hq : d.tileEnd (coreKey die cl core) e tile f = some q) (k : Dev → TileEnd → Dev) :
    d.attemptTile die cl core e tile f k = k d q := by
  have hnot : ¬ (f.walk && sl.bound) = true := by
    intro h
    obtain ⟨hw, hb⟩ := Bool.and_eq_true_iff.mp h
    exact Bool.false_ne_true ((hwalk hw).symm.trans hb)
  unfold Dev.attemptTile
  dsimp only
  rw [hsl]
  dsimp only
  rw [if_neg hnot, hq, href]
  rfl

/-- A mismatch of the attention engine leaves the tile where it is. -/
theorem Dev.attemptTile_of_walk (hwalk : f.walk = true) (hbound : sl.bound = true) (k : Dev → TileEnd → Dev) :
    d.attemptTile die cl core e tile f k = (d.walkFailed die cl core e sl).stopDrained (coreKey die cl core) e := by
  unfold Dev.attemptTile
  dsimp only
  rw [hsl]
  dsimp only
  rw [hwalk, hbound]
  rfl

/-- The next tile of a slice ends its first attempt, and then the engine is at a tile boundary. -/
theorem Dev.drainTile_of_next (ht : sl.nextTile = some tile) (hon : d.dieOn die = true) :
    d.drainTile die cl core e tile f = (d.attemptTile die cl core e tile f (fun d q =>
      if q.passes then d.passTile die cl core e (engUnit die cl core e) tile f q
      else (d.failFirst die cl core e tile q).stopDrained (coreKey die cl core) e)).boundary (coreKey die cl core) e := by
  unfold Dev.drainTile
  dsimp only
  rw [hsl]
  dsimp only
  rw [ht, hon, if_neg]
  rintro (h | h)
  · exact h rfl
  · exact Bool.false_ne_true h

end

/-- The F-engine takes no foreign tile at a boundary. -/
theorem Dev.boundary_zero (d : Dev) (key : Nat) : d.boundary key 0 = d := if_neg (by decide)

section
variable {d : Dev} {die cl core eng : Nat}

/-- A replay is of the F-engine's tile where that has failed. -/
theorem tileReplayEff_of_failed {tile : Nat} {f : TileFault} {sl : Slice} (hsl : d.actSlice (coreKey die cl core) 0 = some sl)
    (hfail : sl.failed.any (fun f => f.1 = tile) = true) (hon : d.dieOn die = true) :
    tileReplayEff die cl core tile f d = d.replayTile die cl core 0 tile f := by
  unfold tileReplayEff
  dsimp only
  rw [List.find?_cons_of_pos]
  · exact if_pos hon
  · rw [hsl]
    exact Bool.and_eq_true_iff.mpr ⟨hfail, rfl⟩

/-- An engine whose array holds a foreign tile takes no other. -/
theorem Dev.intoArray_of_held {key : Nat} {t : ForeignTile} (h : at' (d.core key).arr eng none = some t) :
    d.intoArray key (eng + 1) = d := by
  unfold Dev.intoArray
  dsimp only
  rw [Nat.add_sub_cancel, h]

/-- The foreign tile in the array of a B-engine runs. -/
theorem foreignTileRunEff_of_held {f : TileFault} {t : ForeignTile} (heng : eng < 2) (hon : d.dieOn die = true)
    (ht : at' (d.core (coreKey die cl core)).arr eng none = some t) :
    foreignTileRunEff die cl core eng f d = d.foreignTile die cl core eng t f := by
  have hgo : ¬ (decide (1 < eng) || !d.dieOn die) = true := by
    rw [hon, decide_eq_false (by omega)]
    decide
  unfold foreignTileRunEff
  dsimp only
  rw [if_neg hgo, Dev.intoArray_of_held ht, ite_self, ht]

end

/-! ## Groups of the vector unit -/

/-- The next group of a slice of the vector unit is written, or counted and run again, or goes to the core's level. -/
theorem vuGroupDoneEff_of_next {d : Dev} {die cl core group fail : Nat} {sl : Slice} {w : Work}
    (hsl : d.actSlice (coreKey die cl core) 3 = some sl)
    (hg : ((List.range (sl.hi - sl.lo)).map (sl.lo + ·)).find? (fun g => !sl.drained.contains g) = some group)
    (hon : d.dieOn die = true) (hw : d.sliceWork sl = some w) (hf : fail ≤ 1 ∨ fail = 3) :
    vuGroupDoneEff die cl core group fail d =
      if fail = 0 then ((d.writeGroup w (engUnit die cl core 3) group).updAct (coreKey die cl core) 3
          (fun x => { x with drained := x.drained ++ [group], refold := false })).stopDrained (coreKey die cl core) 3
      else if sl.failed = [] then ((d.failCount die cl core 3 false true sl.ctx).updAct (coreKey die cl core) 3
          (fun x => { x with failed := [(group, 3)] })).stopDrained (coreKey die cl core) 3
      else (((d.failCount die cl core 3 false true sl.ctx).markSuspect (engUnit die cl core 3)).coreLevel die cl core 3).stopDrained
          (coreKey die cl core) 3 := by
  have hgo : ¬ ((some group ≠ some group) ∨ 4 < fail ∨ fail = 2 ∨ (!d.dieOn die) = true) := by
    rw [hon]
    rintro (h | h | h | h)
    · exact h rfl
    · omega
    · omega
    · exact Bool.false_ne_true h
  unfold vuGroupDoneEff
  dsimp only
  rw [hsl]
  dsimp only
  rw [hg, if_neg hgo, if_neg (show fail ≠ 4 by omega), hw]
  dsimp only
  by_cases h0 : sl.failed = []
  · rw [if_pos h0, if_pos (List.isEmpty_iff.mpr h0)]
  · rw [if_neg h0, if_neg (fun h => h0 (List.isEmpty_iff.mp h))]

/-- Settles O45: by the judgement of the attempt, and by how often the tile or the group has failed. -/
theorem tilesAndGroups : Obligations.TilesAndGroups := by
  unfold Obligations.TilesAndGroups
  refine ⟨?forward, ?backward, ?replay, ?foreign, ?walk, ?group, ?complete⟩
  case forward =>
    intro s die cl core tile f sl q hsl ht hon hwalk href hq
    change execFTileDrain .. = _
    refine onDev_eq ((Dev.drainTile_of_next hsl ht hon).trans ?_)
    rw [Dev.boundary_zero, Dev.attemptTile_of_judged hsl hwalk href hq]
  case backward =>
    intro s die cl core eng tile f sl q heng hsl harr hfail ht hon hwalk href hq
    have hgo : ¬ (decide (1 < eng) || !s.dev.ownArray (coreKey die cl core) (eng + 1) || !sl.failed.isEmpty) = true := by
      have hown : s.dev.ownArray (coreKey die cl core) (eng + 1) = true := by
        unfold Dev.ownArray
        rw [Nat.add_sub_cancel, harr]
        exact Bool.or_true _
      rw [hown, hfail, decide_eq_false (by omega)]
      decide
    change execBTileDrain .. = _
    refine onDev_eq ?_
    unfold bTileDrainEff
    dsimp only
    rw [hsl]
    refine (if_neg hgo).trans ((Dev.drainTile_of_next hsl ht hon).trans ?_)
    rw [Dev.attemptTile_of_judged hsl hwalk href hq]
  case replay =>
    intro s die cl core tile f sl q hsl hfail hon hwalk href hq
    change execTileReplay .. = _
    refine onDev_eq ((tileReplayEff_of_failed hsl hfail hon).trans ?_)
    unfold Dev.replayTile
    dsimp only
    rw [Dev.boundary_zero, Dev.attemptTile_of_judged hsl hwalk href hq]
  case foreign =>
    intro s die cl core eng f t sl q heng hon key e ht d hsl hwalk href hq d1
    change execForeignTileRun .. = _
    refine onDev_eq ((foreignTileRunEff_of_held heng hon ht).trans ?_)
    have hnot : ¬ (f.walk && sl.bound) = true := by
      intro h
      obtain ⟨hw, hb⟩ := Bool.and_eq_true_iff.mp h
      exact Bool.false_ne_true ((hwalk hw).symm.trans hb)
    unfold Dev.foreignTile
    dsimp only
    rw [show (s.dev.setCore key { s.dev.core key with arr := setAt (s.dev.core key).arr eng none }).actSlice key e = some sl from hsl]
    dsimp only
    rw [if_neg hnot, Dev.attemptTile_of_judged hsl hwalk href hq]
  case walk =>
    intro s die cl core tile f sl hsl ht hon hwalk hbound
    change execFTileDrain .. = _
    refine onDev_eq ((Dev.drainTile_of_next hsl ht hon).trans ?_)
    rw [Dev.boundary_zero, Dev.attemptTile_of_walk hsl hwalk hbound]
  case group =>
    intro s die cl core group fail sl w hsl hg hon hw hf key u d1
    change execVuGroupDone .. = _
    exact onDev_eq (vuGroupDoneEff_of_next hsl hg hon hw hf)
  case complete =>
    intro s die cl core sl x hsl hall hx hwr hiss hnf
    change execSliceComplete .. = _
    refine onDev_eq ?_
    unfold sliceCompleteEff
    dsimp only
    rw [List.find?_cons_of_pos]
    · dsimp only
      rw [hsl]
      dsimp only [Option.bind]
      rw [hx]
      dsimp only
      rw [decide_eq_true hwr, decide_eq_true hiss, decide_eq_false (not_not.mpr hnf)]
      rfl
    · rw [hsl]
      exact hall

end Sys2Proof.Machine
end

section
/-! SUPPORT. No move of a collective's end, of a pool's configuration or of a cause gives the newer step a task in hand. -/

open Sys2Proof Sys2Proof.Machine

namespace Sys2Proof.Machine

/-- The newer step of a context has no task in hand with these numbers: context, task and micro-batch. -/
def Dev.Lacks (id : Nat × Nat × Nat) (e : Dev) : Prop := ∀ i, i ∈ e.insts → i.is id.1 true id.2.1 id.2.2 = false

namespace Dev.Lacks
variable {id : Nat × Nat × Nat} {e : Dev}

/-- A record update that leaves the tasks in hand. -/
theorem update (h : e.Lacks id) {bell opUs cycles free out mem hostMem poison bank rw rc host ctxs slots pools seqs retired allocs
    extents resvs items nextOrder chan cores clusters hubs sources deep nextDeep fab xc health log fw pwr} :
    Dev.Lacks id ⟨bell, opUs, cycles, free, out, mem, hostMem, poison, bank, rw, rc, host, ctxs, slots, pools, seqs, retired,
      allocs, extents, resvs, items, e.insts, nextOrder, chan, cores, clusters, hubs, sources, deep, nextDeep, fab, xc, health,
      log, fw, pwr⟩ := h

theorem ite {c : Prop} [Decidable c] {a b : Dev} (ha : a.Lacks id) (hb : b.Lacks id) : Dev.Lacks id (if c then a else b) := by
  split <;> assumption

theorem mk_fst {α : Type} {a : α} (h : e.Lacks id) : Dev.Lacks id (e, a).1 := h
theorem mk_snd {α : Type} {a : α} (h : e.Lacks id) : Dev.Lacks id (a, e).2 := h

theorem ite_fst {α : Type} {c : Prop} [Decidable c] {a b : Dev × α} (ha : a.1.Lacks id) (hb : b.1.Lacks id) :
    Dev.Lacks id (if c then a else b).1 := by split <;> assumption
theorem ite_snd {α : Type} {c : Prop} [Decidable c] {a b : α × Dev} (ha : a.2.Lacks id) (hb : b.2.Lacks id) :
    Dev.Lacks id (if c then a else b).2 := by split <;> assumption

theorem foldl {α : Type} {f : Dev → α → Dev} {l : List α} (h : e.Lacks id) (hf : ∀ e a, Dev.Lacks id e → Dev.Lacks id (f e a)) :
    Dev.Lacks id (l.foldl f e) := by
  induction l generalizing e with
  | nil => exact h
  | cons a l ih => exact ih (hf e a h)

theorem upto {n : Nat} {f : Nat → Dev → Dev} (h : e.Lacks id) (hf : ∀ a e, Dev.Lacks id e → Dev.Lacks id (f a e)) :
    Dev.Lacks id (upto n f e) := foldl h fun e a => hf a e

theorem foldl_fst {α β : Type} {f : Dev × β → α → Dev × β} {l : List α} {b : β} (h : e.Lacks id)
    (hf : ∀ p a, Dev.Lacks id p.1 → Dev.Lacks id (f p a).1) : Dev.Lacks id (l.foldl f (e, b)).1 := by
  induction l generalizing e b with
  | nil => exact h
  | cons a l ih => exact ih (hf (e, b) a h)

/-- The device of a pair. -/
theorem of_snd {α : Type} {p : α × Dev} {a : α} (h : Dev.Lacks id p.2) (he : p = (a, e)) : e.Lacks id := by rwa [he] at h

/-- Tasks in hand that leave come back under no number. -/
theorem filter (h : e.Lacks id) {p : Inst → Bool} {e' : Dev} (he : e'.insts = e.insts.filter p) : e'.Lacks id := by
  intro i hi
  rw [he] at hi
  exact h i (List.mem_filter.mp hi).1

theorem setCtx (h : e.Lacks id) {c x} : Dev.Lacks id (e.setCtx c x) := .update h
theorem updCtx (h : e.Lacks id) {c f} : Dev.Lacks id (e.updCtx c f) := h.setCtx
theorem setSlot (h : e.Lacks id) {k x} : Dev.Lacks id (e.setSlot k x) := .update h
theorem setPool (h : e.Lacks id) {k x} : Dev.Lacks id (e.setPool k x) := .update h
theorem setHub (h : e.Lacks id) {k x} : Dev.Lacks id (e.setHub k x) := .update h
theorem setSource (h : e.Lacks id) {k x} : Dev.Lacks id (e.setSource k x) := .update h
theorem setPort (h : e.Lacks id) {p x} : Dev.Lacks id (e.setPort p x) := .update h
theorem setXlink (h : e.Lacks id) {dir link x} : Dev.Lacks id (e.setXlink dir link x) := .update h
theorem setExtent (h : e.Lacks id) {k x} : Dev.Lacks id (e.setExtent k x) := .update h
theorem emit (h : e.Lacks id) {e'} : Dev.Lacks id (e.emit e') := .update h
theorem drawn (h : e.Lacks id) : Dev.Lacks id (e.drawn) := .update h
theorem store (h : e.Lacks id) {a b} : Dev.Lacks id (e.store a b) := .update h
theorem updStep (h : e.Lacks id) {c newer f} : Dev.Lacks id (e.updStep c newer f) := h.updCtx
theorem poisonLine (h : e.Lacks id) {l} : Dev.Lacks id (e.poisonLine l) := .update h
theorem writeMem (h : e.Lacks id) {a b} : Dev.Lacks id (e.writeMem a b) := .update h.store
theorem rwPut (h : e.Lacks id) {die off reset v} : Dev.Lacks id (e.rwPut die off reset v) := .update h
theorem stick (h : e.Lacks id) {n} : Dev.Lacks id (e.stick n) := .update h
theorem deliver (h : e.Lacks id) {r} : Dev.Lacks id (e.deliver r) := .update h
theorem record (h : e.Lacks id) {e'} : Dev.Lacks id (e.record e') :=
  .ite h.deliver.drawn (.ite h.deliver.drawn.stick (.ite h.deliver.drawn.stick.deliver.drawn h.deliver.drawn))
theorem putSeq (h : e.Lacks id) {a r} : Dev.Lacks id (e.putSeq a r) := h.store
theorem adoptSlot (h : e.Lacks id) {job k} : Dev.Lacks id (e.adoptSlot job k) := h.setSlot
theorem adopt (h : e.Lacks id) {c job} : Dev.Lacks id (e.adopt c job) := .foldl h fun _ _ h => h.adoptSlot
theorem screenDrop (h : e.Lacks id) {c} : Dev.Lacks id (e.screenDrop c) := .foldl h fun _ _ h => h.setSlot
theorem commitSlot (h : e.Lacks id) {c skip k} : Dev.Lacks id (e.commitSlot c skip k) :=
  .ite h.setSlot (.ite h.setSlot (.ite h.setSlot.updCtx.record h.setSlot))
theorem wideCommit (h : e.Lacks id) {c form probe} : Dev.Lacks id (e.wideCommit c form probe) :=
  .ite h.setCtx.record (.ite h.setCtx.record h.setCtx)
theorem screenCommit (h : e.Lacks id) {c form skip probe} : Dev.Lacks id (e.screenCommit c form skip probe) :=
  .wideCommit (.foldl h.updCtx fun _ _ h => h.commitSlot)
theorem ring! (h : e.Lacks id) {half s} : Dev.Lacks id (e.ring! half s) := .ite h.setSource h
theorem refreshHubSource (h : e.Lacks id) {half s} : Dev.Lacks id (e.refreshHubSource half s) := h.setSource
theorem putShare (h : e.Lacks id) {half p frame n} : Dev.Lacks id (e.putShare half p frame n) := h.store
theorem shareDown (h : e.Lacks id) {half p frame} : Dev.Lacks id (e.shareDown half p frame) := h.putShare
theorem deepGive (h : e.Lacks id) {half p ix} : Dev.Lacks id (e.deepGive half p ix) := h.setPool
theorem unshareTable (h : e.Lacks id) {half p table entries} : Dev.Lacks id (e.unshareTable half p table entries) :=
  .foldl h fun _ _ h => h.shareDown
theorem freeTable (h : e.Lacks id) {r} : Dev.Lacks id (e.freeTable r) := by
  unfold Dev.freeTable
  dsimp only
  split
  · exact .ring! (.record (.foldl h.unshareTable fun _ _ h => h.deepGive))
  · exact .record (.foldl h.unshareTable fun _ _ h => h.deepGive)
theorem dropSnaps (h : e.Lacks id) {i} : Dev.Lacks id (e.dropSnaps i) :=
  .foldl (.update (.foldl h fun _ _ h => .ite h.putSeq h)) fun _ _ h => h.freeTable
theorem setLock (h : e.Lacks id) {a on} : Dev.Lacks id (e.setLock a on) := .ite h.putSeq h
theorem kvUnlock (h : e.Lacks id) {x} : Dev.Lacks id (e.kvUnlock x) := .foldl h fun _ _ h => h.setLock
theorem seqFallBack (h : e.Lacks id) {a} : Dev.Lacks id (e.seqFallBack a) := .ite h.putSeq h
theorem dropAlloc (h : e.Lacks id) {a} : Dev.Lacks id (e.dropAlloc a) := .foldl (.update h) fun _ _ h => h.setExtent
theorem reapFreeing (h : e.Lacks id) : Dev.Lacks id (e.reapFreeing) := .foldl h fun _ _ h => h.dropAlloc
theorem releaseStage (h : e.Lacks id) {c newer mb stage} : Dev.Lacks id (e.releaseStage c newer mb stage) := .update h
theorem releaseStash (h : e.Lacks id) {c newer} : Dev.Lacks id (e.releaseStash c newer) := .update h
theorem setDone (h : e.Lacks id) {gid half st bell} : Dev.Lacks id (e.setDone gid half st bell) := .update h
theorem setFail (h : e.Lacks id) {gid half st} : Dev.Lacks id (e.setFail gid half st) := h.setDone
theorem cfgRefused (h : e.Lacks id) {half gid st} : Dev.Lacks id (e.cfgRefused half gid st) := h.rwPut.record
theorem tellHub (h : e.Lacks id) {hub code st} : Dev.Lacks id (e.tellHub hub code st) := by
  unfold Dev.tellHub
  split
  · exact .ite h.setHub h
  · exact h
theorem takeEffect (h : e.Lacks id) {g} : Dev.Lacks id (e.takeEffect g) := by
  unfold Dev.takeEffect
  extract_lets gid half die offs bank d0 drop bank0 moved com progs d1 d2 d3 d4
  have h2 : Dev.Lacks id d2 := .rwPut (.rwPut (.setDone h.update.update))
  have h4 : Dev.Lacks id d4 := .tellHub (.ite (.upto h2 fun _ _ h => h.putShare) h2)
  refine .ite (.tellHub (.cfgRefused (.setFail h.update.update))) ?_
  split
  · exact .ite h4.record h4
  · exact h4.record
theorem takeAll (h : e.Lacks id) {p} : Dev.Lacks id (e.takeAll p) := .foldl h fun _ _ h => h.takeEffect
theorem cfgAttempt (h : e.Lacks id) {c} : Dev.Lacks id (e.cfgAttempt c) := h.takeAll
theorem cfgStep (h : e.Lacks id) {c} : Dev.Lacks id (e.cfgStep c) := h.takeAll
theorem cfgAtCommit (h : e.Lacks id) {c} : Dev.Lacks id (e.cfgAtCommit c) := h.takeAll
theorem cfgPool (h : e.Lacks id) {half p} : Dev.Lacks id (e.cfgPool half p) := h.takeAll
theorem writeSnapshot (h : e.Lacks id) {c} : Dev.Lacks id (e.writeSnapshot c) := .ite h (.ite h.writeMem h)
theorem tellJob (h : e.Lacks id) {kind c data} : Dev.Lacks id (e.tellJob kind c data) :=
  .foldl h fun _ _ h => h.emit
theorem dropWork (h : e.Lacks id) {c newer} : Dev.Lacks id (e.dropWork c newer) := by
  refine .reapFreeing (.foldl (.updStep (.updCtx (.releaseStash ?_))) fun _ _ h => h.refreshHubSource)
  refine filter (e := (e.insts.filter (fun i => i.ctx = c && i.newer = newer)).foldl Dev.kvUnlock
    ((e.insts.filter (fun i => i.ctx = c && i.newer = newer)).foldl Dev.dropSnaps e)) ?_ rfl
  exact .foldl (.foldl h fun _ _ h => h.dropSnaps) fun _ _ h => h.kvUnlock
theorem kvAbandon (h : e.Lacks id) {c newer} : Dev.Lacks id (e.kvAbandon c newer) := by
  unfold Dev.kvAbandon
  split
  · exact .foldl h.updStep fun _ _ h => h.seqFallBack
  · exact h
theorem unstart (h : e.Lacks id) {c newer} : Dev.Lacks id (e.unstart c newer) := by
  unfold Dev.unstart
  split
  · exact .ite h.kvAbandon.dropWork.updStep h
  · exact h
theorem dropSpill (h : e.Lacks id) {r} : Dev.Lacks id (e.dropSpill r) := .foldl h fun _ _ h => h.dropAlloc
/-- The tasks in hand of a step that becomes the older one leave the newer one. -/
theorem promote (h : e.Lacks id) {c} : Dev.Lacks id (e.promote c) := by
  intro i hi
  obtain ⟨j, hj, rfl⟩ := List.mem_map.mp hi
  by_cases hc : j.ctx = c
  · simp [Inst.is, hc]
  · have hj' := h j hj
    simpa [Inst.is, hc] using hj'
theorem leaveStep (h : e.Lacks id) {c r st} : Dev.Lacks id (e.leaveStep c r st) := h.updCtx.record
theorem dropNewer (h : e.Lacks id) {c} : Dev.Lacks id (e.dropNewer c) := by
  unfold Dev.dropNewer
  split
  · exact h.kvAbandon.dropWork.dropSpill.leaveStep.updCtx
  · exact h
theorem scrubBoundary (h : e.Lacks id) {c} : Dev.Lacks id (e.scrubBoundary c) := h.updCtx
theorem endStep (h : e.Lacks id) {c newer st} : Dev.Lacks id (e.endStep c newer st) :=
  .ite (by
      split
      · exact h.kvAbandon.dropWork.dropSpill.leaveStep.updCtx
      · exact h) (by
      split
      · exact h.dropNewer.kvAbandon.dropWork.dropSpill.screenDrop.updCtx.leaveStep.updCtx.scrubBoundary
      · exact h)
theorem startAttempt (h : e.Lacks id) {c newer} : Dev.Lacks id (e.startAttempt c newer) := by
  unfold Dev.startAttempt
  split
  · exact h
  · extract_lets first d0 form r gen
    have h0 : Dev.Lacks id d0 := .ite h.cfgStep.cfgAttempt h.cfgAttempt
    split
    · exact h0.endStep
    · exact .ite (.foldl h0.updCtx fun _ _ h => h.setSlot) h0.updCtx
theorem declare (h : e.Lacks id) {c newer st cls ev} : Dev.Lacks id (e.declare c newer st cls ev) := by
  unfold Dev.declare
  extract_lets d join tell d1 d2
  have hd : Dev.Lacks id d := by
    dsimp only [d]
    split
    · exact h.record
    · exact h
  split
  · exact hd
  · have hjoin {e : Dev} (h : e.Lacks id) : Dev.Lacks id (join e) := h.updStep.updCtx
    have htell {e : Dev} (h : e.Lacks id) : Dev.Lacks id (tell e) := .ite h h.tellJob
    clear_value d join tell
    have h2 : Dev.Lacks id d2 := .updStep (htell (hjoin hd.updCtx))
    exact .ite (.ite h2 h2.unstart) (.ite (hjoin hd) (.ite (.updStep (htell (hjoin hd))) (.ite (hjoin hd) hd)))
theorem cause (h : e.Lacks id) {c newer st cls unit opcode addr} : Dev.Lacks id (e.cause c newer st cls unit opcode addr) :=
  h.declare
theorem takeMaxima (h : e.Lacks id) {m} : Dev.Lacks id (e.takeMaxima m) := .foldl h fun _ _ h => h.setSlot
theorem updCommit (h : e.Lacks id) {c skip r} : Dev.Lacks id (e.updCommit c skip r) :=
  .ite h.updCtx (.foldl h.updCtx.updCtx fun _ _ h => h.updCtx.record)
theorem kvCommit (h : e.Lacks id) {c skip r} : Dev.Lacks id (e.kvCommit c skip r) :=
  .ite h.kvAbandon (.foldl h fun _ _ h => .ite h.putSeq h)
theorem upkeepStart (h : e.Lacks id) {c} : Dev.Lacks id (e.upkeepStart c) := .ite h.updCtx h
theorem commitStep (h : e.Lacks id) {c skip maxima} : Dev.Lacks id (e.commitStep c skip maxima) := by
  unfold Dev.commitStep
  split
  · exact h
  · extract_lets overlap d0 d1 d2 d3 st d4 d5
    have h0 : Dev.Lacks id d0 := .ite h.unstart h
    have h3 : Dev.Lacks id d3 := h0.takeMaxima.screenCommit.updCommit.kvCommit.dropWork.dropSpill
    have h5 : Dev.Lacks id d5 := h3.updCtx.cfgAtCommit.leaveStep.writeSnapshot
    exact .scrubBoundary (.promote (.ite h5 h5.upkeepStart))
theorem adoptMaxima (h : e.Lacks id) {c m} : Dev.Lacks id (e.adoptMaxima c m) := .foldl h fun _ _ h => h.setSlot
theorem tellLate (h : e.Lacks id) {c newer r} : Dev.Lacks id (e.tellLate c newer r) := .ite h.tellJob.emit h.tellJob
theorem applyAbandon (h : e.Lacks id) {c newer dec} : Dev.Lacks id (e.applyAbandon c newer dec) := by
  unfold Dev.applyAbandon
  split
  · exact h
  · extract_lets own peer d1 late free told d2
    have h1 : Dev.Lacks id d1 := h.adoptMaxima.updCtx
    have ht : Dev.Lacks id told := .ite h1.tellLate h1
    have h2 : Dev.Lacks id d2 := h1.updStep
    exact .ite h (.ite ht.drawn.endStep (.ite (.ite h1.commitStep h1.updStep) (.ite h1.drawn.endStep
      (.ite h1.tellJob.updStep (.ite h2.startAttempt h2)))))
theorem reduceAbandon (h : e.Lacks id) {c newer} : Dev.Lacks id (e.reduceAbandon c newer) := by
  unfold Dev.reduceAbandon
  split
  · exact h
  · exact .ite (.applyAbandon (.ite h.drawn.emit h.drawn)) h
theorem drainTest (h : e.Lacks id) {c} : Dev.Lacks id (e.drainTest c).1 :=
  .foldl_fst h fun _ _ h => .ite_fst h (.mk_fst h.setSlot.updCtx)
theorem drained (h : e.Lacks id) {c newer} : Dev.Lacks id (e.drained c newer) := by
  unfold Dev.drained
  split
  · exact h
  · extract_lets t probe maxima d1 v d2
    have ht : Dev.Lacks id t.1 := .ite_fst h h.drainTest
    have h2 : Dev.Lacks id d2 := ht.adopt.kvAbandon.dropWork.updStep
    exact .ite h (.reduceAbandon (.ite h2.emit h2))
theorem putRun (h : e.Lacks id) {ctx mb puts} : Dev.Lacks id (e.putRun ctx mb puts) := .foldl h fun _ _ h => h.writeMem
theorem poisonRun (h : e.Lacks id) {ctx mb puts} : Dev.Lacks id (e.poisonRun ctx mb puts) :=
  .foldl h fun _ _ h => .foldl h fun _ _ h => h.poisonLine
theorem missNow (h : e.Lacks id) {c newer k} : Dev.Lacks id (e.missNow c newer k) :=
  .ite h (.ite h.setSlot h.setSlot.updCtx.declare)
theorem reportTo (h : e.Lacks id) {c newer half t r} : Dev.Lacks id (e.reportTo c newer half t r) := by
  unfold Dev.reportTo
  split
  · exact h
  · exact .missNow (.ite h.setSlot h.setSlot.updCtx)
theorem torusPort (h : e.Lacks id) {half k plus} : Dev.Lacks id (e.torusPort half k plus).2 :=
  .ite_snd (.mk_snd (.update h)) (.ite_snd (.mk_snd (.update h)) h.mk_snd)
theorem sendPackets (h : e.Lacks id) {p n} : Dev.Lacks id (e.sendPackets p n) := by
  induction n generalizing e with
  | zero => exact h
  | succ n ih =>
    unfold Dev.sendPackets
    dsimp only
    split
    · exact h
    · exact ih h.setPort.emit
theorem pumpPort (h : e.Lacks id) {p} : Dev.Lacks id (e.pumpPort p) := h.sendPackets
theorem queuePacket (h : e.Lacks id) {p k data} : Dev.Lacks id (e.queuePacket p k data) := .pumpPort (.setPort (.update h))
theorem sendPacket (h : e.Lacks id) {half from? k data} : Dev.Lacks id (e.sendPacket half from? k data) := by
  unfold Dev.sendPacket
  dsimp only
  split
  · exact h.queuePacket
  · split
    · exact h
    · split
      next _ heq => exact h
      next p d1 heq => exact .queuePacket (.of_snd h.torusPort heq)
theorem sendLogical (h : e.Lacks id) {c half logical dstHalf vc type tag gen data} :
    Dev.Lacks id (e.sendLogical c half logical dstHalf vc type tag gen data) := by
  unfold Dev.sendLogical
  split
  · exact h
  · exact h.sendPacket
theorem sendFlit (h : e.Lacks id) {dir link q} : Dev.Lacks id (e.sendFlit dir link q) := h.setXlink.emit
theorem sendFlits (h : e.Lacks id) {dir link n} : Dev.Lacks id (e.sendFlits dir link n) := by
  induction n generalizing e with
  | zero => exact h
  | succ n ih =>
    unfold Dev.sendFlits
    split
    · exact h
    · exact ih h.sendFlit
theorem pumpLink (h : e.Lacks id) {dir link} : Dev.Lacks id (e.pumpLink dir link) := h.sendFlits
theorem fencedMsg (h : e.Lacks id) {half m} : Dev.Lacks id (e.fencedMsg half m) :=
  .ite h (by
      split
      · exact h.cause
      · exact h)
theorem sendCrosscut (h : e.Lacks id) {dir m} : Dev.Lacks id (e.sendCrosscut dir m) :=
  .ite h.fencedMsg (.ite h (.pumpLink (.setXlink (.update h.drawn))))
theorem sendFar (h : e.Lacks id) {x a b poison} : Dev.Lacks id (e.sendFar x a b poison) := by
  unfold Dev.sendFar
  split
  · exact h
  · exact .sendCrosscut (.update h)
theorem putOut (h : e.Lacks id) {x puts poison} : Dev.Lacks id (e.putOut x puts poison) :=
  .foldl (.ite h.poisonRun h.putRun) fun _ _ h => h.sendFar
theorem putColl (h : e.Lacks id) {q} : Dev.Lacks id (e.putColl q) := .update h
theorem sendPart (h : e.Lacks id) {c i q result dest p} : Dev.Lacks id (e.sendPart c i q result dest p) := h.sendLogical
theorem writeSum (h : e.Lacks id) {x dst p} : Dev.Lacks id (e.writeSum x dst p) := .ite h.putOut.reportTo h.putOut.reportTo
theorem writeResult (h : e.Lacks id) {q i p from'} : Dev.Lacks id (e.writeResult q i p from') :=
  .ite h (by
      split
      · exact h
      · dsimp only
        split
        · exact .ite (.updCtx (.ite h.writeSum h.putOut)) (.ite h.writeSum h.putOut)
        · exact h)
theorem setClip (h : e.Lacks id) {c sum} : Dev.Lacks id (e.setClip c sum) := .update h.updCtx
theorem digestFail (h : e.Lacks id) {q half named} : Dev.Lacks id (e.digestFail q half named) :=
  .ite h.updCtx.putColl h.updCtx.putColl.emit.cause
theorem finishColl (h : e.Lacks id) {q i} : Dev.Lacks id (e.finishColl q i) := by
  unfold Dev.finishColl
  extract_lets reducer n fmt key range r r1 res d1 d2 d3 d4 own d1'
  have h2 : Dev.Lacks id d2 := by
    refine .ite h.putColl ?_
    split
    · exact h.putColl.reportTo
    · exact h.putColl
  have h4 : Dev.Lacks id d4 := .writeResult (.ite h2 (.foldl h2 fun _ _ h => h.sendPart))
  have h1 : Dev.Lacks id d1' := h.putColl
  clear_value d4 d1'
  refine .ite h (.ite h.putColl.cause (.ite h.digestFail (.ite (.ite h4.setClip h4) (.ite ?_ (.foldl h1 fun _ _ h => h.writeResult)))))
  split
  · exact .ite h.putColl.writeResult.setClip h.putColl.writeResult
  · exact h1
theorem postPart (h : e.Lacks id) {c newer task mb due i own} : Dev.Lacks id (e.postPart c newer task mb due i own) :=
  .finishColl (.ite h.putColl (.foldl h.putColl fun _ _ h => h.sendPart))
theorem postClip (h : e.Lacks id) {c newer} : Dev.Lacks id (e.postClip c newer) := by
  unfold Dev.postClip
  split
  · exact .ite (by
        dsimp only
        split
        · exact h.postPart
        · exact h) h
  · exact h
theorem noteReady (h : e.Lacks id) {c newer} : Dev.Lacks id (e.noteReady c newer) := by
  unfold Dev.noteReady
  split
  · exact .ite h (.update h.updStep)
  · exact h
theorem unpin (h : e.Lacks id) {c newer run mb} : Dev.Lacks id (e.unpin c newer run mb) := by
  unfold Dev.unpin
  split
  · exact h
  · exact h.updCtx.updStep

end Dev.Lacks

end Sys2Proof.Machine
end

section
/-! SUPPORT. The ends of work, and the statement about them. -/

open Sys2Proof Sys2Proof.Machine

namespace Sys2Proof.Machine

/-- A task in hand that completes leaves the device. -/
theorem instanceCompleteEff_lacks {d0 : Dev} {c task mb since : Nat} {w : Work} {r : StepRun} {d : Dev}
    (hd : d = d0.noteReady c true) (hw : (d.inst? c true task mb).bind d.work = some w) (hr : (d.ctx c).newer = some r)
    (hmay : d.mayComplete w r = true) : Dev.Lacks (c, task, mb) (instanceCompleteEff c true task mb since d0) := by
  unfold instanceCompleteEff
  rw [← hd]
  extract_lets e
  rw [hw, show (e.ctx c).step? true = some r from hr]
  dsimp -zeta only
  rw [hmay, if_neg (by decide)]
  extract_lets d1 d2 d3 d4 d5 run5 d7 d8 pools d9 d10 d11
  have h4 : Dev.Lacks (c, task, mb) d4 := by
    intro i hi
    have h := (List.mem_filter.mp hi).2
    simpa using h
  have h5 : Dev.Lacks (c, task, mb) d5 := h4.updStep
  have h7 : Dev.Lacks (c, task, mb) d7 := .ite h5.releaseStage h5
  have h8 : Dev.Lacks (c, task, mb) d8 := .ite h7.unpin h7
  have h9 : Dev.Lacks (c, task, mb) d9 := .reapFreeing (.foldl h8 fun _ _ h => h.cfgPool)
  have h10 : Dev.Lacks (c, task, mb) d10 := .ite h9.postClip h9
  have h11 : Dev.Lacks (c, task, mb) d11 := .noteReady (.ite h10.refreshHubSource h10)
  exact h11

/-- A copy whose inputs are ready in an attempt that runs moves the lines of its source. -/
theorem copyDoneEff_of_ready {d : Dev} {c : Nat} {newer : Bool} {task mb : Nat} {w : Work} {a b : TD}
    (hw : (d.inst? c newer task mb).bind d.work = some w) (hop : w.x.op = opCopy) (hst : w.x.state = 1)
    (hin : d.inputsReady w.x = true) (hrun : d.attemptRuns c newer = true) (ha : (d.withWindows w.x).inTd w 0 = some a)
    (hb : d.outTd w 1 = some b) (hfirst : (d.firstWrite w).2 = true) :
    copyDoneEff c newer task mb d =
      (let dv := d.withWindows w.x
       let runs := copyRuns a b
       let parts := runs.flatMap (fun q => lineParts dv (xlate c mb q.1) q.2.1 q.2.2)
       let puts (bad : Bool) : List (Nat × List Byte) := b.outPuts ((parts.filter (fun p => p.2.2 = bad)).map (fun p => (p.1, p.2.1)))
       (runs.foldl (fun (d : Dev) q => d.deepWrites w.x [(q.2.1, dv.mem.readBytes (xlate c mb q.1) q.2.2)]
         (dv.poisoned? (xlate c mb q.1) q.2.2).isSome) (((d.firstWrite w).1.putOut w.x (puts false) false).putOut w.x (puts true) true)).updInst
         w.x (fun i => { i with state := 2 })) := by
  unfold copyDoneEff
  rw [hw]
  dsimp only
  rw [hop, hst, hin, hrun, if_neg (by decide), ha, hb, hfirst]
  rfl

/-- A rung beyond a tensor's first one is recorded with the step and counts its readers. -/
theorem ladderConvertDoneEff_of_new {d : Dev} {c : Nat} {newer : Bool} {task mb : Nat} {w : Work} {r : StepRun} {y : TD}
    (hw : (d.inst? c newer task mb).bind d.work = some w) (hr : (d.ctx c).step? newer = some r)
    (hnew : r.rungs.any (fun q => q.1 = task && q.2.1 = mb) = false) (hst : w.x.state = 2) (hop : w.t.op = opConvert)
    (hl : w.t.ladder = true) (hre : w.t.recompute = false) (hy : d.rawTd w 1 = some y) (hrung : startRung y.fmt < w.x.rung)
    (hover : (d.ctx c).fbOver = true) :
    ladderConvertDoneEff c newer task mb d =
      (d.updStep c newer (fun r => { r with rungs := r.rungs ++ [(task, mb, w.x.rung)] })).updCtx c
        (fun x => { x with fbCount := x.fbCount + d.ladderReaders w }) := by
  unfold ladderConvertDoneEff
  rw [hw]
  dsimp -zeta only
  extract_lets run? known d1 start n d2 x slot
  have hknown : known = false := by
    dsimp only [known, run?]
    rw [hr]
    exact hnew
  have hstart : start = startRung y.fmt := by
    dsimp only [start]
    rw [hy]
  have hn : n = d.ladderReaders w := by
    refine if_neg fun h => ?_
    rw [hre, hstart, decide_eq_false (Nat.not_le.mpr hrung)] at h
    exact Bool.false_ne_true h
  have hx : x.fbOver = true := by
    dsimp only [x, d2, d1, Dev.updStep]
    rw [Dev.ctx_updCtx, Dev.ctx_updCtx, hr]
    cases newer <;> exact hover
  refine (if_neg ?_).trans ((if_neg ?_).trans ?_)
  · rw [hst, hop, hl, hknown]
    decide
  · rw [hx]
    simp
  · dsimp only [d2, d1]
    rw [hn]

/-- Settles O46: by what each work waits for before it ends. -/
theorem workEnds : Obligations.WorkEnds := by
  unfold Obligations.WorkEnds
  refine ⟨?copy, ?collective, ?ladder, ?complete, ?drained, ?late, ?intime⟩
  case copy =>
    intro s c newer task mb w a b hw hop hst hin hrun dv ha hb hfirst runs parts puts d
    change execCopyDone .. = _
    exact onDev_eq (copyDoneEff_of_ready hw hop hst hin hrun ha hb hfirst)
  case collective =>
    intro s c newer task mb x r q hx hr hq hop hst hres hfail
    change execCollectiveComplete .. = _
    refine onDev_eq ?_
    unfold collectiveCompleteEff
    rw [hx, hr]
    dsimp only
    rw [hq]
    dsimp only
    rw [hop, hst, hres, hfail]
    rfl
  case ladder =>
    intro s c newer task mb w r y hw hr hnew hst hop hl hre hy hrung hover
    change execLadderConvertDone .. = _
    exact onDev_eq (ladderConvertDoneEff_of_new hw hr hnew hst hop hl hre hy hrung hover)
  case complete =>
    intro s c task mb since w r hw hr hmay
    change ∃ d : Dev, execInstanceComplete .. = _ ∧ _
    refine ⟨_, rfl, ?_, (Dev.Keeps.instanceCompleteEff .refl).bell⟩
    exact List.find?_eq_none.mpr fun i hi => Bool.eq_false_iff.mp (instanceCompleteEff_lacks rfl hw hr hmay i hi)
  case drained =>
    intro s c newer
    change execAttemptDrained .. = _
    exact onDev_eq rfl
  case late =>
    intro s c newer r hr ha hlive hbell
    change execStepTimeout .. = _
    refine onDev_eq ?_
    unfold stepTimeoutEff
    rw [hr]
    exact if_pos ⟨ha, hbell, hlive⟩
  case intime =>
    intro s c newer r hr hbell
    change execStepTimeout .. = _
    refine onDev_eq ?_
    unfold stepTimeoutEff
    rw [hr]
    exact if_neg fun h => Nat.not_le.mpr hbell h.2.1

end Sys2Proof.Machine
end
